-- ==== Sys2Proof/Word.lean ====
section
/-! DEFINITION. The machine's word types (R5): a word of table memory has 36 bits, a byte 8, a register 32. -/

namespace Sys2Proof

/-- A word of table memory: 36 bits, numbered 35 down to 0 (R5). -/
abbrev Word := BitVec 36

/-- A byte: 8 bits (R5). -/
abbrev Byte := BitVec 8

/-- A register as the host bus sees it: 32 bits (R16). -/
abbrev Reg := BitVec 32

end Sys2Proof
end

