-- ==== Sys2Proof/Frames.lean ====
section
/-! DEFINITION. The data that commands carry: entries, frames and measurements. -/

namespace Sys2Proof

/-- The 64 bytes of a command entry, as its fields (R151). -/
structure Entry where
  hseq : Nat
  tag : Nat
  opcode : Nat
  flags : Nat
  byte7 : Nat
  latestStart : Nat
  params : List Byte
  deriving DecidableEq, Repr

/-- The field of `n` bytes at offset `i` of a byte sequence, most significant byte first (R11); absent bytes read 0. -/
def beField (b : List Byte) (i n : Nat) : Nat :=
  ((List.range n).map (fun k => (b.getD (i + k) 0).toNat)).foldl (fun a x => a * 256 + x) 0

/-- The `n` bytes of a number, most significant byte first (R11). -/
def beBytes (n v : Nat) : List Byte :=
  (List.range n).map (fun k => BitVec.ofNat 8 (v / 256 ^ (n - 1 - k)))

/-- The 64 bytes of an entry read as its fields (R151). -/
def Entry.ofBytes (b : List Byte) : Entry :=
  { hseq := beField b 0 2, tag := beField b 2 2, opcode := beField b 4 2, flags := beField b 6 1,
    byte7 := beField b 7 1, latestStart := beField b 8 8, params := (List.range 48).map (fun k => b.getD (16 + k) 0) }

/-- The 64 bytes of an entry (R151). -/
def Entry.bytes (e : Entry) : List Byte :=
  beBytes 2 e.hseq ++ beBytes 2 e.tag ++ beBytes 2 e.opcode ++ beBytes 1 e.flags ++ beBytes 1 e.byte7
    ++ beBytes 8 e.latestStart ++ (List.range 48).map (fun k => e.params.getD k 0)

/-- LATEST_START, ignored unless LS_VALID is set; 0 for none (R151). -/
def Entry.latest (e : Entry) : Nat := if e.flags / 2 % 2 = 1 then e.latestStart else 0

/-- An IEEE 802.15.4 address. -/
inductive Addr where
  | none
  | short (a : Nat)
  | ext (x : Nat)
  deriving DecidableEq, Repr

/-- The auxiliary security header of a frame (R332). `supported` is false for an option that R332 leaves out. -/
structure SecHdr where
  level : Nat
  mode : Nat
  keyIndex : Nat
  counter : Nat
  supported : Bool
  deriving DecidableEq, Repr

/-- The Quatos Flood Header (R322); FLAGS whole. -/
structure FloodHdr where
  flags : Nat
  ttl : Nat
  originPan : Nat
  originShort : Nat
  fseq : Nat
  deriving DecidableEq, Repr

/-- The Quatos beacon IE (R299). -/
structure BeaconIe where
  flags : Nat
  brId : Nat
  interval : Nat
  blocks : Nat
  deriving DecidableEq, Repr

/-- An IPv6 packet, as far as the device looks into it: addresses, DSCP, Hop Limit and length in bytes. -/
structure IpPacket where
  src : Nat
  dst : Nat
  dscp : Nat
  hopLimit : Nat
  bytes : List Byte
  deriving DecidableEq, Repr

/-- What the MAC payload of a received data frame holds for 6LoWPAN (R440): nothing of it, something unsupported (cause 1
CONTEXT or 2 DISPATCH), a fragment (tag, datagram size, offset in bytes, its bytes, whether a UDP checksum in it is elided), or a whole
packet. -/
inductive LowPayload where
  | none
  | bad (cause : Nat)
  | frag (tag size offset : Nat) (bytes : List Byte) (elided : Bool)
  | packet (p : IpPacket)
  deriving DecidableEq, Repr

/-- A MAC frame in the terms of R290: its header fields, its payload IEs and its payload. -/
structure MacFrame where
  version : Nat
  /-- 0 beacon, 1 data, 2 acknowledgment, 3 MAC command. -/
  ftype : Nat
  ackReq : Bool
  seq : Nat
  panId : Nat
  dst : Addr
  src : Addr
  sec : Option SecHdr
  /-- CSL phase and period (R307). -/
  csl : Option (Nat × Nat)
  /-- Time Correction IE, µs (R318). -/
  timeCorr : Option Int
  /-- Octets of the payload IEs, their termination included; none where it is empty. -/
  ies : List Byte
  /-- MAC command identifier. -/
  cmd : Option Nat
  /-- What follows the payload IEs and the identifier. -/
  payload : List Byte
  /-- Of a received frame: that payload IEs follow its header; the octets that CCM* authenticates only; and those it may have
  encrypted, with the MIC, as they came (R332). -/
  payIes : Bool
  mhr : List Byte
  closed : List Byte
  deriving DecidableEq, Repr

/-- A data frame of nothing, to fill in. -/
def MacFrame.blank : MacFrame :=
  { version := 2, ftype := 1, ackReq := false, seq := 0, panId := 0, dst := .none, src := .short 0, sec := none, csl := none,
    timeCorr := none, ies := [], cmd := none, payload := [], payIes := false, mhr := [], closed := [] }

/-- A master heard in Announce messages (R451): the data set that the best master clock algorithm compares, and the identity
of the sender. -/
structure PtpMaster where
  priority1 : Nat
  clockClass : Nat
  accuracy : Nat
  variance : Nat
  priority2 : Nat
  gmId : Nat
  steps : Nat
  sender : Nat
  deriving DecidableEq, Repr

/-- Errors found in one line of table memory when it is read: symbol positions and the difference of each symbol from
what was written (R356, R357). -/
structure LineError where
  line : Nat
  syms : List (Fin 20 × BitVec 9)
  deriving DecidableEq, Repr

/-- What a command acts on, with the errors of the lines of table memory that it reads (R357). -/
structure Reads (α : Type) where
  of : α
  errs : List LineError
  deriving DecidableEq, Repr

/-- A trim that a calibration step reports (R224, R225): the entry (64 × sector + entry on a spare), its BIAS and GAIN codes, the
gain-code offset of range 2H (group 2 only), and whether the entry met its target. -/
structure Trim where
  entry : Nat
  bias : Nat
  gain : Nat
  offset : Nat
  met : Bool
  deriving DecidableEq, Repr

/-! ### Readings that come with a command -/

/-- What a slice of the runtime self-test finds: the code of a fault, 0 for none, and the serial link it names (R120, R192). -/
structure TestFault where
  code : Fin 9
  loc : Fin 64
  deriving DecidableEq, Repr

/-- How the writes of a save went (R96): the bytes of the first write that were done, and those that the first and the second write left
wrong, by place. -/
structure SaveWrites where
  written : Nat
  flaws : List (Nat × Byte)
  again : List (Nat × Byte)
  deriving DecidableEq, Repr

/-- Steps of start-up calibration, by chain and number, that failed their repeat too, and that passed it (R228, R230). -/
structure CalRepeats where
  fails : List (Fin 36 × Nat)
  again : List (Fin 36 × Nat)
  deriving DecidableEq, Repr

/-- What one calibration step measures (R224, R230): the chain temperature in °C, and the code or the entries it trims. -/
structure CalFound where
  temp : Int
  code : BitVec 32
  trims : List Trim
  deriving DecidableEq, Repr

/-- What each lane brings to its mark: its signature, none where it is late (R181), and the single-bit errors met in its SRAM (R182). -/
structure LaneMarks where
  sigs : List (Option (BitVec 36))
  ce : List Nat
  deriving DecidableEq, Repr

/-- A chain, and which of its receive LO and its transmit synthesiser lock (R198, R199). -/
structure ChainLocks where
  chain : Fin 36
  rx : Bool
  tx : Bool
  deriving DecidableEq, Repr

/-- Amplitude and noise power of a port's stream over its word (R259). -/
structure StreamLevel where
  amp : Nat
  noise : Nat
  deriving DecidableEq, Repr

/-- What has been decided of a frame that goes no further: its PHR, and its octets (R254). -/
structure FrameStart where
  phr : BitVec 16
  bytes : List Byte
  deriving DecidableEq, Repr

/-- A completed exchange with a master (R451 to R453): the tag of its frames; whether a Follow_Up came after the Sync; the four time stamps
in ns, of the Sync as sent and as it arrived here, and of the Delay_Req as it left here and as it was received; and the corrections of Sync
and Delay_Resp, in units of 2^-16 ns. -/
structure PtpExchange where
  tag : Option Nat
  twoStep : Bool
  sent : Nat
  arrived : Nat
  asked : Nat
  answered : Nat
  syncCorr : Int
  respCorr : Int
  deriving DecidableEq, Repr

/-- The offset from the master in whole ns, rounded down: what the Sync shows of it less the mean path delay, half the sum of both ways
(IEEE 1588, delay request-response). -/
def PtpExchange.offset (x : PtpExchange) : Int :=
  (((x.arrived : Int) - x.sent - ((x.answered : Int) - x.asked)) * 2 ^ 16 - x.syncCorr + x.respCorr) / 2 ^ 17

/-- An Announce message as heard: backhaul port, tag, domain, transport (UDP or IEEE 802.3), and its master (R451). -/
structure Announce where
  port : Fin 2
  tag : Option Nat
  domain : BitVec 8
  udp : Bool
  master : PtpMaster
  deriving DecidableEq, Repr

/-- Levels that a PCI Express host holds: PERST_N, and the reference clock present (R66). -/
structure PcieHost where
  perstN : Bool
  refClk : Bool
  deriving DecidableEq, Repr

/-- What link training reaches: the generation less 1, and two lanes (R66). -/
structure PcieTrained where
  gen : Fin 3
  x2 : Bool
  deriving DecidableEq, Repr

end Sys2Proof
end

