-- ==== Sys2Proof/Syntax.lean ====
section
/-! DEFINITION. The commands of the block: one constructor per row of the opcode table, in the table's order, with the
data each command or event carries. A constructor's comment is the row's own summary and rule. Where a row is an event
of the device, its operands are what the event measures or receives from outside; everything else it needs is State's. -/

namespace Sys2Proof

/-- The commands and events of the Quatos 6032 (spec/opcode_table.json, 257 rows). -/
inductive Instr where
  /-- TEMPO_BOUNDARY (R39): Every 10,000th reference cycle a new tempo begins and the fixed per-tempo work of R39 runs in its stated order. -/
  | tempoBoundary (tj : BitVec 8) (vin : BitVec 16) (vbak : BitVec 10) (hwLate : Bool)
  /-- GUARANTEED_SLICE (R44): A job whose deferral count reaches 16 takes its guaranteed slice at the start of the tempo. -/
  | guaranteedSlice (rank : Fin 6) (errs : List LineError) (fault : TestFault)
  /-- SCRUB_WRITE_BACK (R45): A corrected line that is pending write-back is written back ahead of foreground work. -/
  | scrubWriteBack
  /-- VIN_LOW (R80): VIN stays below 11.6 V for 1 s and VIN_LOW is set. -/
  | vinLow
  /-- VIN_LOW_CLEARED (R80): VIN stays at or above 11.8 V for 1 s and VIN_LOW clears. -/
  | vinLowCleared
  /-- VIN_HIGH (R80): VIN stays above 13.8 V for 10 ms and VIN_HIGH is set. -/
  | vinHigh
  /-- VIN_HIGH_CLEARED (R80): VIN stays at or below 13.6 V for 10 ms and VIN_HIGH clears. -/
  | vinHighCleared
  /-- VBAK_LOW (R80): VBAK stays below 2.7 V for 1 s and VBAK_LOW is set. -/
  | vbakLow
  /-- VBAK_LOW_CLEARED (R80): VBAK stays at or above 2.8 V for 1 s and VBAK_LOW clears. -/
  | vbakLowCleared
  /-- VBAK_ABSENT (R80): VBAK stays below 2.3 V for 10 µs; VBAK_ABSENT is set, and STANDBY falls to OFF. -/
  | vbakAbsent
  /-- VBAK_ABSENT_CLEARED (R80): VBAK stays at or above 2.4 V for 1 s and VBAK_ABSENT clears. -/
  | vbakAbsentCleared
  /-- SAG (R81): VIN falls below 9.5 V for 0.5 µs and resignation begins, or a power-up that has not released is abandoned. -/
  | sag
  /-- SAVE_COMPLETE (R86): The save ends, and the device enters STANDBY, OFF or the reset hold. -/
  | saveComplete (writes : SaveWrites) (vin : Bool)
  /-- RESIGN_GO (R95): A write of PWR.RESIGN.GO starts a resignation with reason COMMANDED. -/
  | resignGo (value : BitVec 32)
  /-- THERMAL_SHUTDOWN (R95): The junction reaches 125 °C, and a resignation with reason THERMAL begins. -/
  | thermalShutdown
  /-- BANK_MEASURE (R93): The hourly timed discharge measures the usable energy of the hold-up bank. -/
  | bankMeasure (usable : BitVec 16) (volt : BitVec 10)
  /-- TARGET_IDLE (R86): A write of PWR.MODE.TARGET to IDLE stops new transmit grants and stops frames at steps 4 to 7. -/
  | targetIdle (value : BitVec 32)
  /-- IDLE_ENTRY (R86): Once the last transmission on air has ended, the chains go to STBY and the device is in IDLE. -/
  | idleEntry
  /-- TARGET_RUN (R86): A write of PWR.MODE.TARGET to RUN starts the chains toward RX. -/
  | targetRun (value : BitVec 32)
  /-- RUN_ENTRY (R86): The chains reach RX, and reception restarts at the next tempo boundary. -/
  | runEntry
  /-- TARGET_SLEEP (R86): A write of PWR.MODE.TARGET to SLEEP requests SLEEP, which is rejected at once if the slow clock is faulty. -/
  | targetSleep (value : BitVec 32)
  /-- SLEEP_ENTRY (R87): Once the SLEEP entry condition holds, links go down, memory self-refreshes, the lanes stop and the reference goes off. -/
  | sleepEntry
  /-- SLEEP_REQUEST_TIMEOUT (R86): The entry condition has not held for 400 tempos; TARGET returns to CURRENT and BUSY is recorded. -/
  | sleepRequestTimeout
  /-- WAKE (R88): An enabled wake source in SLEEP starts the reference and the wake sequence. -/
  | wake (src : Fin 4) (line : Fin 16) (rising : Bool) (tick : Nat)
  /-- WAKE_TIMER_EXPIRY (R88): The SLEEP wake timer reaches its programmed slow ticks. -/
  | wakeTimerExpiry
  /-- WAKE_COMPLETE (R38): The PLL locks, the lanes resume, and tempo, timers and duty bins are made up for the time slept. -/
  | wakeComplete (ticks : Nat) (pllCycles : Fin 80001)
  /-- REF_DEVIATION_WINDOW (R90): At the end of each 1 s window, the reference is compared with the comparison clock, and grants are refused or restored. -/
  | refDeviationWindow (ppb : BitVec 32)
  /-- REF_STOPPED (R90): No reference edge arrives for 1 µs, and a resignation with reason CLOCK begins. -/
  | refStopped
  /-- PLL_UNLOCK (R90): The lock detector reports an unlock, and a resignation with reason CLOCK begins. -/
  | pllUnlock
  /-- SLOW_CLOCK_STOPPED (R90): No slow edge arrives for 100 µs; AON_VALID is cleared and SLEEP is refused. -/
  | slowClockStopped
  /-- POWER_UP (R107): Qualify passes and a power-up begins with the Rails phase. -/
  | powerUp (testEn : Bool)
  /-- RAILS_UP (R107): The rails, reference and PLL are up, VOUT_3V3 comes on, and Load begins. -/
  | railsUp (pllCycles : Fin 80001)
  /-- LOAD_COMPLETE (R107): OTP and MRAM loads are done, including both record slots, and self-test begins. -/
  | loadComplete (flaws : List (Fin 4096 × Bool))
  /-- SELFTEST_SLICE (R112): One slice of the power-up self-test runs at a boundary and may decide an item. -/
  | selftestSlice (fault : Fin 9) (loc : BitVec 14) (ext : Bool) (cages : BitVec 2) (us : Nat)
  /-- COPY_COMPLETE (R492): The firmware image is copied into lane SRAM and table memory is zeroed. -/
  | copyComplete (us : Nat)
  /-- LANE_START (R107): The lanes start in lockstep and the voters check one agreed output of each stage. -/
  | laneStart
  /-- STARTUP_CALIBRATION (R229): Full calibration of all 36 chains completes during power-up. -/
  | startupCalibration (steps : CalRepeats) (temps : List Int) (trims : List (Fin 36 × Trim))
  /-- RELEASE (R108): At a boundary after BANK_READY, SYS.TEMPO is set to 0 and the device is released. -/
  | release (ticks pwrupT : Nat)
  /-- RESET_N_LOW (R105): RESET_N held low past its deglitch starts a resignation, or abandons a power-up, and leads to the reset hold. -/
  | resetNLow
  /-- RESET_N_HIGH (R106): RESET_N rises in the reset hold and a power-up starts with its rails up. -/
  | resetNHigh (qualified testEn : Bool)
  /-- RUNTIME_SELFTEST_SLICE (R120): One slice of the runtime self-test of items 0 to 3 runs. -/
  | runtimeSelftestSlice (fault : TestFault)
  /-- ARM (R124): BIST.TEST.ARM opens the 4-tempo window for zeroisation. -/
  | arm (value : BitVec 32)
  /-- CONFIRM (R125): BIST.TEST.CONFIRM is checked, and if accepted it stops transmit grants and starts erasure. -/
  | confirm (testEn : Bool) (value : BitVec 32)
  /-- ZEROISE_COMPLETE (R125): The erasure is verified, and the device resigns with reason COMMANDED and powers up. -/
  | zeroiseComplete
  /-- OPENING_END (R127): The running tempo count reaches 4,000 and the Opening ends. -/
  | openingEnd
  /-- REG_WRITE_GENERIC (R141): A write to a register with no row of its own is accepted whole or rejected whole. -/
  | regWriteGeneric (addr : BitVec 20) (be : BitVec 4) (data : BitVec 32)
  /-- RC_READ (R21): A read of an RC field returns its value and clears or restarts it. -/
  | rcRead (addr : BitVec 20)
  /-- PAIR_LO_STAGE (R8): A NAME_LO write is held in the staging latch. -/
  | pairLoStage (addr : BitVec 20) (be : BitVec 4) (data : BitVec 32)
  /-- PAIR_HI_COMMIT (R8): A NAME_HI write commits the staged low half and the high half as one write. -/
  | pairHiCommit (addr : BitVec 20) (be : BitVec 4) (data : BitVec 32)
  /-- IRQ_PEND_CLEAR (R137): Writing 1 to an IRQ_PEND bit clears the raw bit and re-arms its source. -/
  | irqPendClear (page : BitVec 8) (value : BitVec 32)
  /-- SOFT_RESET (R139): CTRL.SOFT_RESET starts a soft reset of the block. -/
  | softReset (page : BitVec 8) (value : BitVec 32)
  /-- SOFT_RESET_DONE (R139): The soft reset completes within 1 tempo and RESETTING clears. -/
  | softResetDone (page : BitVec 8)
  /-- FREEZE (R138): CTRL.FREEZE holds or releases the page's RO and RC fields. -/
  | freeze (page : BitVec 8) (value : BitVec 32)
  /-- BAR2_READ (R147): A BAR2 read returns a table-memory word, or poisoned data for a UE line. -/
  | bar2Read (off : Nat) (whole : Bool) (errs : List LineError)
  /-- BAR2_WRITE (R148): A BAR2 write is checked and writes one word into the host-defined region. -/
  | bar2Write (off bytes : Nat) (all : Bool) (value : Nat) (errs : List LineError)
  /-- SQ_DOORBELL (R157): A write of SQ_DB_n announces new submission entries and resumes fetching. -/
  | sqDoorbell (n : Fin 8) (value : BitVec 32)
  /-- CQ_DOORBELL (R157): A write of CQ_DB_n reports consumed completions and frees completion-ring space. -/
  | cqDoorbell (n : Fin 8) (value : BitVec 32)
  /-- RING_ENABLE (R158): A write of RING_CFG_n.EN := 1 starts the ring. -/
  | ringEnable (n : Fin 8) (value : BitVec 32)
  /-- RING_DISABLE (R158): A write of RING_CFG_n.EN := 0 stops fetching and lets commands in flight drain. -/
  | ringDisable (n : Fin 8) (value : BitVec 32)
  /-- CQ_BASE_WRITE (R158): A write of CQ_BASE sets CQ_WRITTEN and CQ_DB to 0. -/
  | cqBaseWrite (n : Fin 8) (value : BitVec 32)
  /-- COMMAND_ENTRY (R153): A fetched or arriving entry is classified as accepted, duplicate or gap. -/
  | commandEntry (ring : Fin 8) (bytes : List Byte) (via : Option Nat)
  /-- COMMAND_BEGIN (R156): An accepted command begins once its ring order and fence permit. -/
  | commandBegin (ring : Fin 8) (hseq : Reads Nat)
  /-- LATEST_START_PASS (R156): SYSTIME passes LATEST_START before the command begins, and it completes with LATE. -/
  | latestStartPass (ring : Fin 8) (hseq : Nat)
  /-- COMPLETION_WRITE (R157): A waiting completion is written once completion-ring space exists. -/
  | completionWrite (ring : Fin 8)
  /-- RING_DMA_ERROR (R158): A failed ring DMA stops the ring and sets FAULT. -/
  | ringDmaError (ring : Fin 8)
  /-- NOP (R161): The NOP command completes with no effect. -/
  | nop (ring : Fin 8) (hseq : Nat)
  /-- REG_READ (R161): The REG_READ command reads one to four registers. -/
  | regRead (ring : Fin 8) (hseq : Nat)
  /-- REG_WRITE (R161): The REG_WRITE command writes one to four registers. -/
  | regWrite (ring : Fin 8) (hseq : Nat)
  /-- RESYNC (R162): The RESYNC command replays held completions of a ring from FROM_DSEQ. -/
  | resync (ring : Fin 8) (hseq : Nat)
  /-- MSIX_POST (R166): An MSI-X message is posted for a pending, armed source when posting becomes possible. -/
  | msixPost (vector : Fin 64) (canPost : Bool)
  /-- MSIX_GAP_EXPIRY (R166): The MSIX_GAP interval on a vector ends and a delayed delivery is posted. -/
  | msixGapExpiry (vector : Fin 64) (canPost : Bool)
  /-- EVENT_RECORD_SEND (R166): A Brioz Link event record is sent for a pending, armed source, at most once per tempo. -/
  | eventRecordSend (source : Fin 64)
  /-- SOFT_SET (R167): IRQ.SOFT.SET sets IRQ.IRQ_RAW bit 0, which feeds SOFT. -/
  | softSet (value : BitVec 32)
  /-- VOTE (R175): A voter compares the live lanes' output at a stage and issues the voted transaction. -/
  | vote (stage : Fin 5) (port : Fin 32) (outs : List (Option Nat)) (half0 : Option (Fin 4))
  /-- SRAM_UE (R182): An uncorrectable lane SRAM error drops the lane. -/
  | sramUe (lane : Fin 4)
  /-- END_OF_TEMPO_MARK (R181): The lanes reach their mark and present the state signature at stage MARK. -/
  | endOfTempoMark (marks : LaneMarks) (half0 : Option (Fin 4))
  /-- QUARANTINE_END (R183): At the 160th boundary after a drop, the lane's test ends and it becomes PARKED or RETIRED. -/
  | quarantineEnd (lane : Fin 4) (pass : Bool)
  /-- ADMIT_REQ (R185): LANE.ADMIT.REQ starts an admission of a PARKED or SUSPECT lane. -/
  | admitReq (value : BitVec 32)
  /-- ADMISSION_COPY_DONE (R186): The 4 MiB SRAM copy to the admitted lane ends. -/
  | admissionCopyDone
  /-- ADMISSION_COMPLETE (R186): At the boundary after the copy, the lane becomes LIVE and SPARE_ADMIT is raised. -/
  | admissionComplete
  /-- DRY_START (R188): LANE.DRY_CTRL.START starts a dry admission of the named lane. -/
  | dryStart (value : BitVec 32)
  /-- DRY_ABORT (R189): LANE.DRY_CTRL.ABORT ends a dry admission at the next boundary. -/
  | dryAbort (value : BitVec 32)
  /-- DRY_END (R189): The shadow duration elapses, and the lane becomes PARKED or SUSPECT. -/
  | dryEnd
  /-- PORT_SERVICE_CHANGE (R197): A change of RFG_g.PORT_EN or its ENABLE puts a port into or out of service. -/
  | portServiceChange (g : Fin 4) (ctrl : Bool) (value : BitVec 32)
  /-- CHAIN_LOCK (R198): A chain's synthesisers lock and the chain moves on toward RX. -/
  | chainLock (locks : ChainLocks)
  /-- RX_LO_UNLOCK (R199): The receive LO loses lock; reception stops until relock and LOCK_FAIL is set. -/
  | rxLoUnlock (chain : Fin 36)
  /-- LOCK_FAIL (R201): A synthesiser has not locked within twice its time, and the lock is retried. -/
  | lockFail (chain : Fin 36)
  /-- SLOT_COMMAND (R200): A voted transmit command enters the port's transmit slot and any retune starts. -/
  | slotCommand (port : Fin 32)
  /-- DELAY_LINE_FILL (R283): The modulator starts filling the delay line one delay-line time before the planned ramp start. -/
  | delayLineFill (port : Fin 32)
  /-- TX_RELEASE (R200): A locked, due command is released from the slot and its ramp starts. -/
  | txRelease (port : Fin 32) (power : List (Option Int)) (grant : Bool)
  /-- TX_END (R198): The ramp-down ends, the chain returns to RX and the command completes. -/
  | txEnd (port : Fin 32)
  /-- TX_UNLOCK_ABORT (R201): The transmit synthesiser leaves lock after ramp start, and the PA ramps down. -/
  | txUnlockAbort (port : Fin 32)
  /-- PA_PROTECT (R202): Return loss below 6 dB for 10 µs ramps the PA down and faults the port. -/
  | paProtect (port : Fin 32)
  /-- MASK_VIOLATION (R280): CONSEC violating monitor windows stop the stream and ramp the PA down. -/
  | maskViolation (port : Fin 32) (window : Nat) (samples : List (Int × Int))
  /-- COEX_GRANT_LOSS (R213): COEX_GRANT falls during a covered transmission. -/
  | coexGrantLoss
  /-- BLANK_PIN (R209): BLANK_g high with its EN bit set blanks every receiver of the group. -/
  | blankPin (g : Fin 4) (level : Bool)
  /-- BLANK_EXT_EXPIRY (R209): EXT_US after BLANK_g or EN ceases, the group's blanking ends. -/
  | blankExtExpiry (g : Fin 4)
  /-- RF_LIMIT_WRITE (R206): A write of VAULT.RF_LIMIT changes the budget, and held commands are rechecked if it rises. -/
  | rfLimitWrite (value : BitVec 32)
  /-- STEP5_CHECK (R205): At downlink step 5, the frame is secured and checked against the vault, power table and RF budget. -/
  | step5Check (port : Fin 32)
  /-- FCNT_RESERVE_DONE (R346): A counter block reservation completes, and frames that wait for it proceed. -/
  | fcntReserveDone (slot : Fin 4096) (verified : Bool)
  /-- FCNT_RESERVE_RETRY (R347): A failed reservation write is retried once per tempo. -/
  | fcntReserveRetry (slot : Fin 4096)
  /-- OCC_WINDOW_START (R216): A new occupancy window starts, and frames held for occupancy are checked again. -/
  | occWindowStart
  /-- VAULT_COMMIT (R218): The VAULT_COMMIT command checks the draft and burns it as the next generation. -/
  | vaultCommit (ring : Fin 8) (hseq : Nat)
  /-- VAULT_BURN_DONE (R220): The burned generation is verified and takes effect at the next boundary. -/
  | vaultBurnDone
  /-- DRAFT_RELOAD (R217): VAULT.DRAFT_CTRL.RELOAD reloads the draft from the generation in force. -/
  | draftReload (value : BitVec 32)
  /-- CAL_DUE (R232): The calibration interval expires and the group's next chain is chosen. -/
  | calDue (g : Fin 4) (temps : List Int)
  /-- CAL_STEP (R224): One calibration step runs on a chain within a tempo. -/
  | calStep (g : Fin 4) (ok : Bool) (found : CalFound)
  /-- CASTLING_SETTLED (R234): The spare or port chain has settled through the tap and waits for the swap point. -/
  | castlingSettled (g : Fin 4)
  /-- SWAP_POINT (R236): At a ramp-down end or on SWAP_WAIT expiry, the port ball switches chain. -/
  | swapPoint (g : Fin 4) (gap : Fin 65)
  /-- CASTLING_RETURN (R234): At the boundary after the last step, the new table is committed and the port chain prepares to return. -/
  | castlingReturn (g : Fin 4) (chain : Fin 9)
  /-- CAL_REQUEST (R242): The CAL_REQUEST command queues calibrations of named chains. -/
  | calRequest (ring : Fin 8) (hseq : Nat)
  /-- PREAMBLE_DETECT (R251): A sentry detects a preamble and requests a demodulator context. -/
  | preambleDetect (port : Fin 32) (entry : Fin 16) (chan : Fin 64)
  /-- SYNC_FOUND (R255): The synchronising word is found; values are latched and a merge window may open. -/
  | syncFound (id : Nat) (strength snr cfo : Int) (level : StreamLevel) (word : BitVec 32)
  /-- SYNC_TIMEOUT (R254): SYNC_WAIT symbols pass without the word, and the context returns to FREE. -/
  | syncTimeout (id : Nat)
  /-- MERGE_WINDOW_CLOSE (R258): At the end of the merge window, candidates are combined, selected or suppressed. -/
  | mergeWindowClose (id : Nat) (snr : Int)
  /-- PHR_INVALID (R254): An invalid PHR or first block frees the context as PHR_BAD. -/
  | phrInvalid (id : Nat) (frame : FrameStart)
  /-- FRAME_CHECK (R254): At the frame's last symbol the FCS or CRCs are checked and the frame is delivered or dropped. -/
  | frameCheck (id : Nat) (fcs2 white : Bool) (len : BitVec 11) (bytes : List Byte)
  /-- CONTEXT_ABANDON (R254): Every port of a context stays blanked for BLANK_ABANDON symbols, and the context is abandoned. -/
  | contextAbandon (id : Nat)
  /-- GAIN_STEP_DOWN (R246): The ADC reaches full scale on 16 samples and the gain step falls at once. -/
  | gainStepDown (chain : Fin 36)
  /-- LSEL_WRITE (R270): A write of RXP.LSEL loads the staging words from the entry in force. -/
  | lselWrite (value : BitVec 32)
  /-- LISTEN_COMMIT (R270): RXP.LCTRL.COMMIT checks the staged listen entry and commits it at the next boundary. -/
  | listenCommit (value : BitVec 32)
  /-- LISTEN_LOAD (R270): RXP.LCTRL.LOAD reloads the staging words from the entry in force. -/
  | listenLoad (value : BitVec 32)
  /-- RX_RECORD_WRITE (R266): A waiting receive record is written to its ring once there is room. -/
  | rxRecordWrite (ring : Fin 4)
  /-- RXR_CONS_WRITE (R265): A write of RXR_CONS_n reports consumed records. -/
  | rxrConsWrite (n : Fin 4) (value : BitVec 32)
  /-- RXR_BASE_WRITE (R266): A write of RXR_BASE sets PROD and CONS to 0. -/
  | rxrBaseWrite (n : Fin 4) (value : BitVec 32)
  /-- RX_RING_TIMEOUT (R267): TIMEOUT_US after the first record, the ring's record bit is set. -/
  | rxRingTimeout (ring : Fin 4)
  /-- RX_RING_DMA_ERROR (R266): A DMA error stops a PCIe receive ring. -/
  | rxRingDmaError (ring : Fin 4)
  /-- UPLINK_PIPELINE (R27): A MAC frame leaves its input queue and passes steps 3 to 8 of the uplink path. -/
  | uplinkPipeline (g : Fin 4) (errs : List LineError)
  /-- TX_RAW (R285): The TX_RAW command sends a host-supplied frame down the transmit path. -/
  | txRaw (ring : Fin 8) (hseq : Nat)
  /-- SET_SEL_WRITE (R289): A write of TXP.SET_SEL that changes the set loads the staging copy. -/
  | setSelWrite (value : BitVec 32)
  /-- SET_DATA_ACCESS (R289): A TXP.SET_DATA access reads or writes the staged word and may advance INDEX. -/
  | setDataAccess (write : Bool) (value : BitVec 32)
  /-- SET_COMMIT (R288): TXP.SET_CTRL.COMMIT checks the staged filter or mask set and commits it at the next boundary. -/
  | setCommit (value : BitVec 32)
  /-- SET_LOAD (R288): TXP.SET_CTRL.LOAD reloads the staging copy from the set in force. -/
  | setLoad (value : BitVec 32)
  /-- PROF_DATA_WRITE (R288): A write of TXP.PROF_DATA is staged and applies to modulators starting after the next boundary. -/
  | profDataWrite (value : BitVec 32)
  /-- DOWNLINK_ADMISSION (R407): At step 2, a downlink frame is checked, policed and appended to its flow, or refused. -/
  | downlinkAdmission
  /-- FRAME_SELECTION (R418): A port selects its next frame by class priority and weighted fair queueing. -/
  | frameSelection (port : Fin 32)
  /-- CHANNEL_ACCESS (R312): At step 4, a frame is placed, checked for duty and occupancy, and sent to listen-before-talk. -/
  | channelAccess (id : Reads Nat)
  /-- MINUTE_BIN_ROLL (R313): At the minute boundary, the oldest duty bin is dropped and a new bin begins. -/
  | minuteBinRoll
  /-- BACKOFF_EXPIRY (R315): A listen-before-talk backoff ends and the channel is checked again. -/
  | backoffExpiry (id : Nat) (power : List (Option Int)) (grant : Bool)
  /-- LBT_NEW_ROUND (R316): After 1 tempo, or at the next usable window, a new round starts at stage 2. -/
  | lbtNewRound (id : Nat)
  /-- BEACON_DUE (R297): A beacon falls due for a port and enters step 4. -/
  | beaconDue (pan : Fin 128) (port : Fin 32)
  /-- BEACON_SKIP (R297): A beacon's ramp has not started within a quarter interval and it is dropped. -/
  | beaconSkip (id : Nat)
  /-- ASSOCIATION_RESPONSE (R295): The Association Response is sent at its fixed instant, or missed. -/
  | associationResponse (port : Fin 32) (inTime : Bool) (power : List (Option Int)) (grant : Bool)
  /-- ACK_SEND (R318): An acknowledgment reaches the ball at its fixed instant, or is missed. -/
  | ackSend (port : Fin 32) (inTime grant : Bool)
  /-- ACK_WAIT_EXPIRY (R320): ACK.WAIT_US passes without an acknowledgment; the frame is repeated or completes with NO_ACK. -/
  | ackWaitExpiry (id : Nat)
  /-- PEER_ABSENT (R302): No beacon for 3 intervals plus TOL, so the peer becomes ABSENT. -/
  | peerAbsent (peer : Fin 64)
  /-- PEER_ADOPTABLE (R302): HOLD_S in ABSENT passes, so the peer becomes ADOPTABLE. -/
  | peerAdoptable (peer : Fin 64)
  /-- PEER_ADOPT (R303): The PEER_ADOPT command ORs the peer's blocks into the matching PAN. -/
  | peerAdopt (ring : Fin 8) (hseq : Nat)
  /-- MAC_SEND (R327): The MAC_SEND command builds and queues a data frame for a node. -/
  | macSend (ring : Fin 8) (hseq : Nat)
  /-- NODE_RELEASE (R296): The NODE_RELEASE command sends a Disassociation Notification and removes the entry. -/
  | nodeRelease (ring : Fin 8) (hseq : Nat)
  /-- NODE_TIMING (R327): The NODE_TIMING command reports a node's timing state and next window. -/
  | nodeTiming (ring : Fin 8) (hseq : Nat)
  /-- NODE_SCAN (R327): The NODE_SCAN command visits directory entries and applies the adrift check. -/
  | nodeScan (ring : Fin 8) (hseq : Nat)
  /-- FLOOD_SEND (R326): The FLOOD_SEND command originates a flood on a PAN. -/
  | floodSend (ring : Fin 8) (hseq : Nat)
  /-- FLOOD_RELAY (R325): The relay delay ends, and copies are queued or cancelled. -/
  | floodRelay (id : Nat)
  /-- PAN_SEL_WRITE (R328): A write of MAC_g.PAN_SEL loads the staging words from the descriptor in force. -/
  | panSelWrite (g : Fin 4) (value : BitVec 32)
  /-- PAN_COMMIT (R328): MAC_g.PAN_CTRL.COMMIT checks the staged descriptor and commits it at the next boundary. -/
  | panCommit (g : Fin 4) (value : BitVec 32)
  /-- PAN_LOAD (R328): MAC_g.PAN_CTRL.LOAD reloads the staging words. -/
  | panLoad (g : Fin 4) (value : BitVec 32)
  /-- KEY_LOAD (R351): The KEY_LOAD command writes a wrapped key into an EMPTY slot. -/
  | keyLoad (ring : Fin 8) (hseq : Nat)
  /-- KEY_ERASE (R351): The KEY_ERASE command returns a slot to EMPTY. -/
  | keyErase (ring : Fin 8) (hseq : Nat)
  /-- KEY_BIND (R351): The KEY_BIND command points an entry's KEY at a slot. -/
  | keyBind (ring : Fin 8) (hseq : Nat)
  /-- KEY_INFO (R351): The KEY_INFO command reports a slot's attributes. -/
  | keyInfo (ring : Fin 8) (hseq : Nat)
  /-- OWNER_LOCK (R339): The OWNER_LOCK command sets or clears the owner lock. -/
  | ownerLock (ring : Fin 8) (hseq : Nat)
  /-- OWNER_REKEY (R351): The OWNER_REKEY command replaces the owner key and closes Brioz Link sessions. -/
  | ownerRekey (ring : Fin 8) (hseq : Nat)
  /-- PAN_SEC_WRITE (R354): A write of SEC.PAN_SEC_p is checked, takes effect at once and is saved. -/
  | panSecWrite (p : Fin 128) (value : BitVec 32)
  /-- DIR_LOAD (R385): The DIR_LOAD command starts loading directory records from the host-defined region. -/
  | dirLoad (ring : Fin 8) (hseq : Nat)
  /-- DIR_LOAD_BATCH (R386): Up to 2,048 load records are processed in a tempo, and the command completes after the last. -/
  | dirLoadBatch (errs : List LineError)
  /-- DIR_REMOVE (R389): The DIR_REMOVE command removes an entry. -/
  | dirRemove (ring : Fin 8) (hseq : Nat)
  /-- DIR_FIND (R396): The DIR_FIND command looks up an extended address. -/
  | dirFind (ring : Fin 8) (hseq : Nat)
  /-- FWD_FLUSH (R396): The FWD_FLUSH command removes one or every forwarding entry of a group. -/
  | fwdFlush (ring : Fin 8) (hseq : Nat)
  /-- TMEM_CLEAR_LINE (R396): The TMEM_CLEAR_LINE command rewrites a line with zero data. -/
  | tmemClearLine (ring : Fin 8) (hseq : Nat)
  /-- SCRUB_SLICE (R362): The patrol scrub reads its lines for the tempo and does directory housekeeping. -/
  | scrubSlice (lines : Nat) (errs : List LineError)
  /-- SCRUB_EN_WRITE (R364): A write of TMEM.SCRUB_CFG.EN restricts or restores the scrub's range. -/
  | scrubEnWrite (value : BitVec 32)
  /-- CELL_SCAN (R424): After a flow-record UE, a scan of cell headers returns the flow's cells to the pool. -/
  | cellScan
  /-- TIMING_CLEAR_SLICE (R378): After a long SLEEP, 16,384 entries' timing are cleared per tempo. -/
  | timingClearSlice
  /-- TELEM_SNAPSHOT (R366): The interval count reaches INTERVAL, and a telemetry snapshot is queued or skipped. -/
  | telemSnapshot
  /-- TELEM_WRITE_SLICE (R369): The telemetry job writes queued records into the ring. -/
  | telemWriteSlice (lines : Nat)
  /-- TELEM_DATAGRAM (R370): Ring records are sent to subscribed sessions in TELEM datagrams. -/
  | telemDatagram (port : Fin 2) (num : Reads (Fin 4))
  /-- SWEEP_VISIT (R394): The sweeper visits forwarding entries, clearing HIT or removing them. -/
  | sweepVisit (g : Fin 4) (n : Reads Nat)
  /-- QSCH_FLUSH (R426): The QSCH_FLUSH command removes every frame of a flow. -/
  | qschFlush (ring : Fin 8) (hseq : Nat)
  /-- EGRESS_SERVICE (R422): A backhaul MAC that can take a frame selects one from its egress queues. -/
  | egressService (port : Fin 2)
  /-- LINK_CHANGE (R434): A backhaul link goes up or down. -/
  | linkChange (port : Fin 2) (up fec : Bool)
  /-- MODULE_INSERT (R68): An SFP module is inserted and its supply soft-starts. -/
  | moduleInsert (port : Fin 2)
  /-- MODULE_REMOVE (R68): SFP_MODABS_n goes high and VSFP_n switches off. -/
  | moduleRemove (port : Fin 2)
  /-- VSFP_OVERCURRENT (R68): The module current limit holds for more than 1 ms and VSFP_n is shut off. -/
  | vsfpOvercurrent (port : Fin 2)
  /-- BHL_MODULE_READ (R435): The BHL_MODULE_READ command reads module memory over I2C. -/
  | bhlModuleRead (ring : Fin 8) (hseq : Nat) (bytes : List Byte)
  /-- NEIGHBOR_SOLICITATION (R436): A Neighbor Solicitation for an own address is answered. -/
  | neighborSolicitation (port : Fin 2) (tag : Option Nat) (target : Nat)
  /-- ECHO_REQUEST (R436): An ICMPv6 Echo Request to an own address is answered. -/
  | echoRequest (port : Fin 2) (tag : Option Nat) (target : Nat)
  /-- ROUTER_ADVERTISEMENT (R438): A Router Advertisement records the gateway's source MAC address. -/
  | routerAdvertisement (port : Fin 2) (tag : Option Nat) (mac : BitVec 48)
  /-- DOWNLINK_PACKET (R439): An IPv6 packet from the backhaul is resolved to a handle and sent to step 2. -/
  | downlinkPacket (port : Fin 2) (tag : Option Nat) (packet : IpPacket)
  /-- REASM_TIMEOUT (R442): A reassembly incomplete after REASM_S seconds is discarded. -/
  | reasmTimeout
  /-- OPEN (R447): An OPEN datagram takes a session and is answered with OPEN_ACK. -/
  | openSession (port : Fin 2) (addr udp : Nat) (tag : Option Nat) (bytes : List Byte)
  /-- CLOSE (R447): A CLOSE datagram closes its session. -/
  | closeSession (port : Fin 2) (addr udp : Nat) (tag : Option Nat) (bytes : List Byte)
  /-- KEEPALIVE (R447): A received KEEPALIVE refreshes its session. -/
  | keepalive (port : Fin 2) (addr udp : Nat) (tag : Option Nat) (bytes : List Byte)
  /-- BRZ_CMD (R449): A CMD datagram offers its entries to their rings. -/
  | brzCmd (port : Fin 2) (addr udp : Nat) (tag : Option Nat) (bytes : List Byte)
  /-- HDATA (R450): An HDATA datagram is accepted for writing into the host-defined region. -/
  | hdata (port : Fin 2) (addr udp : Nat) (tag : Option Nat) (bytes : List Byte)
  /-- HDATA_WRITE (R450): The HDATA data is written at a boundary and HDATA_ACK is sent. -/
  | hdataWrite (errs : List LineError)
  /-- SESSION_IDLE_TIMEOUT (R447): No authenticated datagram for TIMEOUT_S, or none within 2 s of OPEN_ACK, closes the session. -/
  | sessionIdleTimeout (port : Fin 2) (num : Fin 4)
  /-- KEEPALIVE_SEND (R447): A KEEPALIVE is sent after TIMEOUT_S / 3 seconds of silence. -/
  | keepaliveSend (port : Fin 2) (num : Fin 4)
  /-- DATAGRAM_SEND (R449): Gathered completions, events and records leave in datagrams within the pace. -/
  | datagramSend (port : Fin 2) (num : Fin 4) (kind : Fin 3)
  /-- PTP_EXCHANGE (R453): A completed Sync and Delay_Resp exchange steps or slews SYSTIME. -/
  | ptpExchange (exchange : PtpExchange)
  /-- PTP_ANNOUNCE (R451): An Announce message feeds the best master clock algorithm. -/
  | ptpAnnounce (heard : Announce)
  /-- PTP_SYNC_TIMEOUT (R453): Four Sync intervals pass without a Sync and lock is lost. -/
  | ptpSyncTimeout
  /-- ANNOUNCE_TIMEOUT (R453): Announce receipt times out and lock is lost. -/
  | announceTimeout
  /-- PPS_IN_EDGE (R455): A PPS_IN rising edge latches SYSTIME. -/
  | ppsInEdge
  /-- PPS_OUT_SECOND (R455): At each whole second of SYSTIME, PPS_OUT rises for 100 ms. -/
  | ppsOutSecond
  /-- PCIE_RESET (R457): A function-level reset, PERST_N fall or link down stops the PCIe rings and masks MSI-X. -/
  | pcieReset (kind : Fin 3)
  /-- COUNT_CLOCK (R463): A running timer advances or wraps at its count clock. -/
  | countClock (n : Fin 16)
  /-- TIM_START (R464): TIM.START starts the named timer units together. -/
  | timStart (value : BitVec 32)
  /-- TIM_STOP (R464): TIM.STOP stops the named timer units together. -/
  | timStop (value : BitVec 32)
  /-- COUNT_WRITE (R464): A committed COUNT replaces a unit's count and resets its prescaler phase. -/
  | countWrite (n : Fin 16) (value : BitVec 32)
  /-- RELOAD_WRITE (R464): A committed RELOAD applies from the next count clock. -/
  | reloadWrite (n : Fin 16) (value : BitVec 32)
  /-- PRESC_WRITE (R464): A PRESC write applies from the next count clock and resets the phase. -/
  | prescWrite (n : Fin 16) (value : BitVec 32)
  /-- CAPTURE (R467): A selected edge captures COUNT into a channel, or sets LOST. -/
  | capture (src : Fin 7) (rising : Bool)
  /-- SLEEP_CAPTURE (R469): A capture edge in SLEEP is timed on the slow clock and lands coarse at make-up. -/
  | sleepCapture (src : Fin 7) (rising : Bool) (tick : Nat)
  /-- CCR_READ (R467): A read of CCR_c_LO consumes a capture and clears NEW. -/
  | ccrRead (n : Fin 16) (c : Fin 4)
  /-- DEBUG_HALT (R470): The private HALT instruction stops the lanes, and timers with DBG_STOP stop. -/
  | debugHalt (halt : Bool)
  /-- SYSTIME_WRITE (R473): A committed SYSTIME write steps SYSTIME unless the servo is locked. -/
  | systimeWrite (value : BitVec 32)
  /-- EVC_SRC_WRITE (R474): A write of an event counter's ID selects its source and may clear the count. -/
  | evcSrcWrite (k : Fin 64) (value : BitVec 32)
  /-- EVC_CLEAR (R474): SRC_k.CLEAR sets the count to 0. -/
  | evcClear (k : Fin 64) (value : BitVec 32)
  /-- GPIO_EDGE (R514): An enabled GPIO edge sets its EVT bit and raises GPIO. -/
  | gpioEdge (j : Fin 16) (rising : Bool)
  /-- GPIO_SET (R513): A write of GPIO.SET sets OUT bits. -/
  | gpioSet (value : BitVec 32)
  /-- GPIO_CLR (R513): A write of GPIO.CLR clears OUT bits. -/
  | gpioClr (value : BitVec 32)
  /-- POLL (R479): A POLL transaction returns the status byte. -/
  | svcPoll
  /-- REQUEST (R482): A REQUEST transaction carries one request frame, which is accepted, repeated or discarded. -/
  | svcRequest (bytes : List Byte)
  /-- READ (R479): A READ transaction clocks out the held response frame. -/
  | svcRead (n : Nat)
  /-- INFO (R484): The INFO request reports identity and slot information. -/
  | svcInfo
  /-- STAGE_BEGIN (R489): The STAGE_BEGIN request opens a staging session on the non-running slot. -/
  | stageBegin
  /-- STAGE_DATA (R489): The STAGE_DATA request writes image bytes at OFFSET. -/
  | stageData
  /-- STAGE_COMMIT (R489): The STAGE_COMMIT request checks the staged image and marks the slot VALID or FAILED. -/
  | stageCommit
  /-- STAGE_ABORT (R489): The STAGE_ABORT request closes the session and leaves the slot WRITING. -/
  | stageAbort
  /-- STAGING_IDLE_TIMEOUT (R489): IDLE_S seconds without a request of the session close it. -/
  | stagingIdleTimeout
  /-- SVC_PROMOTE (R493): The PROMOTE request of the service port starts a PROMOTE. -/
  | svcPromote
  /-- OWNER_INIT (R343): The OWNER_INIT request stores the owner key in clear if none exists. -/
  | ownerInit
  /-- SELFTEST (R484): The SELFTEST request returns the 24-byte self-test report. -/
  | selftest
  /-- SVC_CMD (R484): The CMD request executes one command entry at once and returns its completion. -/
  | svcCmd (bytes : List Byte)
  /-- PROMOTE (R493): The PROMOTE ring command starts a PROMOTE. -/
  | promote (ring : Fin 8) (hseq : Nat)
  /-- PROMOTE_VERIFY_DONE (R493): The staged image's check completes and the pause is scheduled or the PROMOTE fails. -/
  | promoteVerifyDone
  /-- PROMOTE_ENTRY (R493): At the boundary after Verify, refusals are retested and the lanes stop for the pause. -/
  | promoteEntry
  /-- PROMOTE_RESTART (R493): At boundary P + 4, the live lanes start the new firmware at ENTRY. -/
  | promoteRestart
  /-- PROMOTE_READY (R493): After the first mark of the new firmware, the holds are released and PROMOTED is raised. -/
  | promoteReady
  /-- PROMOTE_FAIL (R495): No mark by P + 6, so the slot is marked FAILED and the device resigns and restarts. -/
  | promoteFail
  /-- UPD_POLICY (R496): The UPD_POLICY command stores REQ_OWNER and VEHICLE. -/
  | updPolicy (ring : Fin 8) (hseq : Nat)
  /-- UPD_INFO (R496): The UPD_INFO command reports update status. -/
  | updInfo (ring : Fin 8) (hseq : Nat)
  /-- MOTION_QUALIFY (R490): MOTION high for 10 ms makes the device moving in the vehicle profile. -/
  | motionQualify
  /-- MOTION_HOLD_EXPIRY (R490): HOLD_S after MOTION falls, the device stops being moving. -/
  | motionHoldExpiry
  /-- PAWN_LOAD (R505): The PAWN_LOAD command copies bytes into a node image. -/
  | pawnLoad (ring : Fin 8) (hseq : Nat)
  /-- PAWN_SEAL (R498): The PAWN_SEAL command checks the image CRC and seals it. -/
  | pawnSeal (ring : Fin 8) (hseq : Nat)
  /-- PAWN_START (R499): The PAWN_START command plans chains and starts a campaign. -/
  | pawnStart (ring : Fin 8) (hseq : Nat)
  /-- PAWN_STOP (R505): The PAWN_STOP command stops an image's chains. -/
  | pawnStop (ring : Fin 8) (hseq : Nat)
  /-- PAWN_CHAIN (R505): The PAWN_CHAIN command reports one chain and its members' HAVE values. -/
  | pawnChain (ring : Fin 8) (hseq : Nat)
  /-- PAWN_CLEAR (R498): The PAWN_CLEAR command returns an image to EMPTY. -/
  | pawnClear (ring : Fin 8) (hseq : Nat)
  /-- PAWN_SETUP (R504): A waiting chain takes a free record and sends SETUP to its head. -/
  | pawnSetup
  /-- PAWN_SEND (R503): A feeding chain sends its next BLOCK when the group's pawn bucket permits. -/
  | pawnSend (g : Fin 4)
  /-- PAWN_RETRY_TIMEOUT (R504): RETRY_TEMPOS pass without progress, and SETUP or blocks are resent. -/
  | pawnRetryTimeout (image : Fin 4) (chain : Fin 256)
  /-- PAWN_STALL_TIMEOUT (R504): STALL_S seconds without a rise of any HAVE in DRAINING fails the chain. -/
  | pawnStallTimeout (image : Fin 4) (chain : Fin 256)
  /-- BANK_CHARGED (R82): The rails are in regulation and the hold-up bank reaches 4.75 V, so BANK_READY is set and PWR_GOOD is driven high. -/
  | bankCharged
  /-- PCIE_LINK_UP (R66): With PERST_N driven high and the reference clock present, link training completes and the endpoint reaches L0, after which held MSI-X deliveries can be posted. -/
  | pcieLinkUp (host : PcieHost) (link : PcieTrained)
  deriving DecidableEq, Repr

end Sys2Proof
end

