-- ==== Sys2Proof/Machine/Regs.lean ====
section
/-! DEFINITION. The register map: one row per register of the spec's summary (R509, R510), with every
non-reserved field, its access type (R20, R21), its reset value and, for RW and LK fields, its permitted
range; and one name per register and per field, by which every meaning reads and writes it.
The file is data taken from the field tables of spec/ (the rule of each row stands in its comment). -/

namespace Sys2Proof.Machine

/-- Access types of R20. `rc` is a count or flag that a read clears; `rcMax` and `rcMin` hold a greatest or
a least value, which a read restarts (R21). -/
inductive Access where
  | rw | ro | wo | w1c | rc | rcMax | rcMin | lk
  deriving DecidableEq, Repr

/-- A field of a register: bits `[hi:lo]` of the 32-bit register at host address `addr` (R16, R17). -/
structure Fld where
  addr : Nat
  hi : Nat
  lo : Nat
  deriving DecidableEq, Repr

/-- One row of a register's field table. `min` and `max` bound the values a write may give an RW or LK
field (R141); `saved` says that an accepted write is saved to configuration (the field's reset is "load"). -/
structure FieldDesc where
  name : String
  hi : Nat
  lo : Nat
  acc : Access
  reset : Nat
  min : Nat
  max : Nat
  saved : Bool
  deriving DecidableEq, Repr

/-- One register or register array of a page: its offset and up to two array dimensions (stride, count). -/
structure RegDesc where
  name : String
  off : Nat
  stride1 : Nat := 0
  count1 : Nat := 1
  stride2 : Nat := 0
  count2 : Nat := 1
  fields : List FieldDesc
  deriving DecidableEq, Repr

namespace R

/-- SYS.TEMPO_LO (R53). -/
def SYS_TEMPO_LO : Nat := 0x40
/-- SYS.TEMPO_HI (R53). -/
def SYS_TEMPO_HI : Nat := 0x44
/-- SYS.OVERRUN (R53). -/
def SYS_OVERRUN : Nat := 0x48
/-- SYS.TEMPO_WRAP (R37). -/
def SYS_TEMPO_WRAP : Nat := 0x4c
/-- SYS.BG_STAT (R53). -/
def SYS_BG_STAT (n : Nat) : Nat := 0x50 + 0x4 * n
/-- SYS.OPENING (R132). -/
def SYS_OPENING : Nat := 0x80
/-- SYS.OPEN_STAT (R132). -/
def SYS_OPEN_STAT : Nat := 0x84
/-- SYS.STATUS_PINS (R132). -/
def SYS_STATUS_PINS : Nat := 0x88
/-- SYS.ID (R511). -/
def SYS_ID : Nat := 0x90
/-- SYS.BR_ID_LO (R511). -/
def SYS_BR_ID_LO : Nat := 0x94
/-- SYS.BR_ID_HI (R511). -/
def SYS_BR_ID_HI : Nat := 0x98
/-- PWR.MODE (R103). -/
def PWR_MODE : Nat := 0x1040
/-- PWR.WAKE_EN (R103). -/
def PWR_WAKE_EN : Nat := 0x1044
/-- PWR.WAKE_CAUSE (R103). -/
def PWR_WAKE_CAUSE : Nat := 0x1048
/-- PWR.WAKE_TIMER_LO (R103). -/
def PWR_WAKE_TIMER_LO : Nat := 0x104c
/-- PWR.WAKE_TIMER_HI (R103). -/
def PWR_WAKE_TIMER_HI : Nat := 0x1050
/-- PWR.SUPPLY (R103). -/
def PWR_SUPPLY : Nat := 0x1054
/-- PWR.FLAGS (R103). -/
def PWR_FLAGS : Nat := 0x1058
/-- PWR.BANK (R93,R103). -/
def PWR_BANK : Nat := 0x105c
/-- PWR.RESIGN (R95). -/
def PWR_RESIGN : Nat := 0x1060
/-- PWR.LAST_REC (R101). -/
def PWR_LAST_REC : Nat := 0x1064
/-- PWR.REC_SEQ (R101). -/
def PWR_REC_SEQ : Nat := 0x1068
/-- PWR.AON_CNT_LO (R103). -/
def PWR_AON_CNT_LO : Nat := 0x106c
/-- PWR.AON_CNT_HI (R103). -/
def PWR_AON_CNT_HI : Nat := 0x1070
/-- PWR.AON_AT_SAVE_LO (R103). -/
def PWR_AON_AT_SAVE_LO : Nat := 0x1074
/-- PWR.AON_AT_SAVE_HI (R103). -/
def PWR_AON_AT_SAVE_HI : Nat := 0x1078
/-- PWR.THERM (R103). -/
def PWR_THERM : Nat := 0x107c
/-- CLK.STAT (R104). -/
def CLK_STAT : Nat := 0x2040
/-- CLK.REF_DEV (R104). -/
def CLK_REF_DEV : Nat := 0x2044
/-- CLK.FAULT_CNT (R104). -/
def CLK_FAULT_CNT : Nat := 0x2048
/-- CLK.DEV_LIMIT (R104). -/
def CLK_DEV_LIMIT : Nat := 0x204c
/-- CLK.PLL_LOCK_T (R91). -/
def CLK_PLL_LOCK_T : Nat := 0x2050
/-- BIST.RESULT (R134). -/
def BIST_RESULT : Nat := 0x3040
/-- BIST.FAIL_LOC (R134). -/
def BIST_FAIL_LOC : Nat := 0x3044
/-- BIST.ITEM (R116). -/
def BIST_ITEM (n : Nat) : Nat := 0x3048 + 0x4 * n
/-- BIST.WAIVE (R117). -/
def BIST_WAIVE : Nat := 0x3068
/-- BIST.TEST (R123,R124,R125). -/
def BIST_TEST : Nat := 0x306c
/-- BIST.RUNTIME (R120). -/
def BIST_RUNTIME : Nat := 0x3070
/-- BIST.RESET_CAUSE (R111). -/
def BIST_RESET_CAUSE : Nat := 0x3074
/-- LANE.ROLES (R171,R173). -/
def LANE_ROLES : Nat := 0x4040
/-- LANE.CLAIM (R178). -/
def LANE_CLAIM (n : Nat) : Nat := 0x4044 + 0x4 * n
/-- LANE.CFG (R184,R185). -/
def LANE_CFG : Nat := 0x4054
/-- LANE.ADMIT (R185). -/
def LANE_ADMIT : Nat := 0x4058
/-- LANE.DRY_CTRL (R188). -/
def LANE_DRY_CTRL : Nat := 0x405c
/-- LANE.DRY_RESULT (R189). -/
def LANE_DRY_RESULT : Nat := 0x4060
/-- LANE.DRY_LEFT (R188). -/
def LANE_DRY_LEFT : Nat := 0x4064
/-- LANE.DISAGREE (R180). -/
def LANE_DISAGREE : Nat := 0x4068
/-- LANE.HIST (R183). -/
def LANE_HIST (n : Nat) : Nat := 0x406c + 0x4 * n
/-- LANE.EXEC (R191). -/
def LANE_EXEC : Nat := 0x407c
/-- LANE.EXEC_PEAK (R191). -/
def LANE_EXEC_PEAK : Nat := 0x4080
/-- HOST.WIN_BASE (R149). -/
def HOST_WIN_BASE : Nat := 0x5040
/-- HOST.IN_FLIGHT (R156). -/
def HOST_IN_FLIGHT : Nat := 0x5044
/-- HOST.RING_CFG (R150,R158). -/
def HOST_RING_CFG (n : Nat) : Nat := 0x5100 + 0x40 * n
/-- HOST.SQ_BASE_LO (R158). -/
def HOST_SQ_BASE_LO (n : Nat) : Nat := 0x5104 + 0x40 * n
/-- HOST.SQ_BASE_HI (R158). -/
def HOST_SQ_BASE_HI (n : Nat) : Nat := 0x5108 + 0x40 * n
/-- HOST.CQ_BASE_LO (R158). -/
def HOST_CQ_BASE_LO (n : Nat) : Nat := 0x510c + 0x40 * n
/-- HOST.CQ_BASE_HI (R158). -/
def HOST_CQ_BASE_HI (n : Nat) : Nat := 0x5110 + 0x40 * n
/-- HOST.SQ_DB (R157). -/
def HOST_SQ_DB (n : Nat) : Nat := 0x5114 + 0x40 * n
/-- HOST.CQ_DB (R157). -/
def HOST_CQ_DB (n : Nat) : Nat := 0x5118 + 0x40 * n
/-- HOST.RING_STATE (R153). -/
def HOST_RING_STATE (n : Nat) : Nat := 0x5120 + 0x40 * n
/-- HOST.CQ_STATE (R159). -/
def HOST_CQ_STATE (n : Nat) : Nat := 0x5124 + 0x40 * n
/-- HOST.RING_STAT (R158). -/
def HOST_RING_STAT (n : Nat) : Nat := 0x5128 + 0x40 * n
/-- IRQ.SRC_A (R164). -/
def IRQ_SRC_A : Nat := 0x6040
/-- IRQ.SRC_B (R164). -/
def IRQ_SRC_B : Nat := 0x6044
/-- IRQ.EN_A (R164). -/
def IRQ_EN_A : Nat := 0x6048
/-- IRQ.EN_B (R164). -/
def IRQ_EN_B : Nat := 0x604c
/-- IRQ.PEND_A (R164). -/
def IRQ_PEND_A : Nat := 0x6050
/-- IRQ.PEND_B (R164). -/
def IRQ_PEND_B : Nat := 0x6054
/-- IRQ.PIN_EN_A (R166). -/
def IRQ_PIN_EN_A : Nat := 0x6058
/-- IRQ.PIN_EN_B (R166). -/
def IRQ_PIN_EN_B : Nat := 0x605c
/-- IRQ.BRZ_EN_A (R166). -/
def IRQ_BRZ_EN_A : Nat := 0x6060
/-- IRQ.BRZ_EN_B (R166). -/
def IRQ_BRZ_EN_B : Nat := 0x6064
/-- IRQ.SOFT (R167). -/
def IRQ_SOFT : Nat := 0x6068
/-- IRQ.MSIX_GAP (R166). -/
def IRQ_MSIX_GAP : Nat := 0x606c
/-- IRQ.VEC (R169). -/
def IRQ_VEC (n : Nat) : Nat := 0x6100 + 0x4 * n
/-- EVC.OVF_A (R474). -/
def EVC_OVF_A : Nat := 0x7040
/-- EVC.OVF_B (R474). -/
def EVC_OVF_B : Nat := 0x7044
/-- EVC.SRC (R474). -/
def EVC_SRC (n : Nat) : Nat := 0x7100 + 0x10 * n
/-- EVC.COUNT_LO (R474). -/
def EVC_COUNT_LO (n : Nat) : Nat := 0x7104 + 0x10 * n
/-- EVC.COUNT_HI (R474). -/
def EVC_COUNT_HI (n : Nat) : Nat := 0x7108 + 0x10 * n
/-- TIM.SYSTIME_LO (R472,R473). -/
def TIM_SYSTIME_LO : Nat := 0x8040
/-- TIM.SYSTIME_HI (R472,R473). -/
def TIM_SYSTIME_HI : Nat := 0x8044
/-- TIM.SYSTIME_STAT (R472). -/
def TIM_SYSTIME_STAT : Nat := 0x8048
/-- TIM.START (R464). -/
def TIM_START : Nat := 0x804c
/-- TIM.STOP (R464). -/
def TIM_STOP : Nat := 0x8050
/-- TIM.RUN (R464). -/
def TIM_RUN : Nat := 0x8054
/-- TIM.CFG (R462,R470). -/
def TIM_CFG (n : Nat) : Nat := 0x8100 + 0x80 * n
/-- TIM.COUNT_LO (R464). -/
def TIM_COUNT_LO (n : Nat) : Nat := 0x8104 + 0x80 * n
/-- TIM.COUNT_HI (R464). -/
def TIM_COUNT_HI (n : Nat) : Nat := 0x8108 + 0x80 * n
/-- TIM.RELOAD_LO (R463). -/
def TIM_RELOAD_LO (n : Nat) : Nat := 0x810c + 0x80 * n
/-- TIM.RELOAD_HI (R463). -/
def TIM_RELOAD_HI (n : Nat) : Nat := 0x8110 + 0x80 * n
/-- TIM.CH_CFG (R477). -/
def TIM_CH_CFG (n : Nat) : Nat := 0x8114 + 0x80 * n
/-- TIM.FLAGS (R467,R469). -/
def TIM_FLAGS (n : Nat) : Nat := 0x8118 + 0x80 * n
/-- TIM.EVT (R471). -/
def TIM_EVT (n : Nat) : Nat := 0x811c + 0x80 * n
/-- TIM.EVT_EN (R471). -/
def TIM_EVT_EN (n : Nat) : Nat := 0x8120 + 0x80 * n
/-- TIM.MAKEUP (R468). -/
def TIM_MAKEUP (n : Nat) : Nat := 0x8124 + 0x80 * n
/-- TIM.CCR_LO (R465,R467). -/
def TIM_CCR_LO (n c : Nat) : Nat := 0x8140 + 0x80 * n + 0x8 * c
/-- TIM.CCR_HI (R465,R467). -/
def TIM_CCR_HI (n c : Nat) : Nat := 0x8144 + 0x80 * n + 0x8 * c
/-- GPIO.DIR (R513). -/
def GPIO_DIR : Nat := 0x9040
/-- GPIO.OUT (R513). -/
def GPIO_OUT : Nat := 0x9044
/-- GPIO.SET (R513). -/
def GPIO_SET : Nat := 0x9048
/-- GPIO.CLR (R513). -/
def GPIO_CLR : Nat := 0x904c
/-- GPIO.OD (R513). -/
def GPIO_OD : Nat := 0x9050
/-- GPIO.IN (R513). -/
def GPIO_IN : Nat := 0x9054
/-- GPIO.RISE (R513). -/
def GPIO_RISE : Nat := 0x9058
/-- GPIO.FALL (R513). -/
def GPIO_FALL : Nat := 0x905c
/-- GPIO.EVT (R513). -/
def GPIO_EVT : Nat := 0x9060
/-- GPIO.WAKE (R513). -/
def GPIO_WAKE : Nat := 0x9064
/-- COEX.CFG (R211,R212,R213). -/
def COEX_CFG : Nat := 0xa040
/-- COEX.BLANK_CFG (R209). -/
def COEX_BLANK_CFG : Nat := 0xa044
/-- COEX.COUNT (R212,R213). -/
def COEX_COUNT : Nat := 0xa048
/-- COEX.LEVELS (R222). -/
def COEX_LEVELS : Nat := 0xa04c
/-- VAULT.GEN (R214,R220). -/
def VAULT_GEN : Nat := 0xb040
/-- VAULT.DRAFT_SEL (R217). -/
def VAULT_DRAFT_SEL : Nat := 0xb044
/-- VAULT.DRAFT_CTRL (R217). -/
def VAULT_DRAFT_CTRL : Nat := 0xb048
/-- VAULT.RF_LIMIT (R206). -/
def VAULT_RF_LIMIT : Nat := 0xb04c
/-- VAULT.RF_LOAD (R206). -/
def VAULT_RF_LOAD : Nat := 0xb050
/-- VAULT.REFUSE (R216). -/
def VAULT_REFUSE : Nat := 0xb054
/-- VAULT.HELD (R205,R206). -/
def VAULT_HELD : Nat := 0xb058
/-- VAULT.DRAFT (R217). -/
def VAULT_DRAFT (n : Nat) : Nat := 0xb080 + 0x4 * n
/-- VAULT.FORCE (R223). -/
def VAULT_FORCE (n : Nat) : Nat := 0xb800 + 0x4 * n
/-- UPD.STAT (R488,R490). -/
def UPD_STAT : Nat := 0xc040
/-- UPD.LAST (R489,R492). -/
def UPD_LAST : Nat := 0xc044
/-- UPD.PROGRESS (R489,R492). -/
def UPD_PROGRESS : Nat := 0xc048
/-- UPD.MOTION_CFG (R490). -/
def UPD_MOTION_CFG : Nat := 0xc04c
/-- UPD.SLOT_INFO (R488). -/
def UPD_SLOT_INFO (n : Nat) : Nat := 0xc050 + 0x10 * n
/-- UPD.SLOT_VER (R488). -/
def UPD_SLOT_VER (n : Nat) : Nat := 0xc054 + 0x10 * n
/-- UPD.SLOT_SEQ (R488). -/
def UPD_SLOT_SEQ (n : Nat) : Nat := 0xc058 + 0x10 * n
/-- UPD.COUNT (R491). -/
def UPD_COUNT : Nat := 0xc070
/-- UPD.SESSION_CFG (R489). -/
def UPD_SESSION_CFG : Nat := 0xc074
/-- SVC.STAT (R480,R482). -/
def SVC_STAT : Nat := 0xd040
/-- SVC.COUNT (R482). -/
def SVC_COUNT : Nat := 0xd044
/-- SVC.CFG (R484). -/
def SVC_CFG : Nat := 0xd048
/-- PAWN.CFG (R504). -/
def PAWN_CFG : Nat := 0xe040
/-- PAWN.BUDGET (R503). -/
def PAWN_BUDGET (n : Nat) : Nat := 0xe044 + 0x4 * n
/-- PAWN.LEVEL (R503). -/
def PAWN_LEVEL (n : Nat) : Nat := 0xe054 + 0x4 * n
/-- PAWN.ACTIVE (R508). -/
def PAWN_ACTIVE : Nat := 0xe064
/-- PAWN.COUNT (R508). -/
def PAWN_COUNT : Nat := 0xe068
/-- PAWN.LAST (R508). -/
def PAWN_LAST : Nat := 0xe06c
/-- PAWN.IGNORED (R502,R508). -/
def PAWN_IGNORED : Nat := 0xe070
/-- PAWN.IMG_STAT (R498). -/
def PAWN_IMG_STAT (n : Nat) : Nat := 0xe080 + 0x10 * n
/-- PAWN.IMG_BYTES (R498). -/
def PAWN_IMG_BYTES (n : Nat) : Nat := 0xe084 + 0x10 * n
/-- PAWN.IMG_CHAINS (R498). -/
def PAWN_IMG_CHAINS (n : Nat) : Nat := 0xe088 + 0x10 * n
/-- PAWN.IMG_RESULT (R498). -/
def PAWN_IMG_RESULT (n : Nat) : Nat := 0xe08c + 0x10 * n
/-- SEC.CFG (R349). -/
def SEC_CFG : Nat := 0xf040
/-- SEC.OWNER (R335,R338). -/
def SEC_OWNER : Nat := 0xf044
/-- SEC.KEYS (R335,R338). -/
def SEC_KEYS : Nat := 0xf048
/-- SEC.AUTH_CNT (R340). -/
def SEC_AUTH_CNT : Nat := 0xf04c
/-- SEC.REPLAY_CNT (R340). -/
def SEC_REPLAY_CNT : Nat := 0xf050
/-- SEC.LAST_FAIL (R340). -/
def SEC_LAST_FAIL : Nat := 0xf054
/-- SEC.FCNT_STAT (R346,R347). -/
def SEC_FCNT_STAT : Nat := 0xf058
/-- SEC.ENGINES (R353). -/
def SEC_ENGINES : Nat := 0xf05c
/-- SEC.KEY_SEL (R355). -/
def SEC_KEY_SEL : Nat := 0xf060
/-- SEC.KEY_INFO_0 (R334). -/
def SEC_KEY_INFO_0 : Nat := 0xf064
/-- SEC.KEY_INFO_1 (R334). -/
def SEC_KEY_INFO_1 : Nat := 0xf068
/-- SEC.KEY_INFO_2 (R334). -/
def SEC_KEY_INFO_2 : Nat := 0xf06c
/-- SEC.KEY_INFO_3 (R334). -/
def SEC_KEY_INFO_3 : Nat := 0xf070
/-- SEC.PAN_SEC (R354). -/
def SEC_PAN_SEC (n : Nat) : Nat := 0xf200 + 0x4 * n
/-- RFG.PORT_EN (R197). -/
def RFG_PORT_EN (g : Nat) : Nat := 0x10040 + 0x1000 * g
/-- RFG.CHAIN_STATE (R198). -/
def RFG_CHAIN_STATE (g : Nat) : Nat := 0x10044 + 0x1000 * g
/-- RFG.CHAIN_MAP (R196,R234). -/
def RFG_CHAIN_MAP (g : Nat) : Nat := 0x10048 + 0x1000 * g
/-- RFG.NBR_BLANK (R208). -/
def RFG_NBR_BLANK (g : Nat) : Nat := 0x1004c + 0x1000 * g
/-- RFG.SLOT_STAT (R200). -/
def RFG_SLOT_STAT (g : Nat) : Nat := 0x10050 + 0x1000 * g
/-- RFG.PORT_FAULT (R202). -/
def RFG_PORT_FAULT (g : Nat) : Nat := 0x10054 + 0x1000 * g
/-- RFG.PT_SEL (R203). -/
def RFG_PT_SEL (g : Nat) : Nat := 0x10058 + 0x1000 * g
/-- RFG.PT_DATA (R203). -/
def RFG_PT_DATA (g : Nat) : Nat := 0x1005c + 0x1000 * g
/-- RFG.PT_VER (R34). -/
def RFG_PT_VER (g : Nat) : Nat := 0x10060 + 0x1000 * g
/-- RFG.LOCK (R199). -/
def RFG_LOCK (g : Nat) : Nat := 0x10064 + 0x1000 * g
/-- RFG.TX_CNT (R200,R201). -/
def RFG_TX_CNT (g : Nat) : Nat := 0x10068 + 0x1000 * g
/-- CAL.CFG (R231,R232,R236). -/
def CAL_CFG : Nat := 0x14040
/-- CAL.ROUND (R232). -/
def CAL_ROUND : Nat := 0x14044
/-- CAL.GSTAT (R234). -/
def CAL_GSTAT (n : Nat) : Nat := 0x14050 + 0x4 * n
/-- CAL.FAULT (R241). -/
def CAL_FAULT (n : Nat) : Nat := 0x14060 + 0x4 * n
/-- CAL.COUNT (R237,R238). -/
def CAL_COUNT : Nat := 0x14070
/-- CAL.GAP_MAX (R237). -/
def CAL_GAP_MAX : Nat := 0x14074
/-- CAL.CHAIN (R243). -/
def CAL_CHAIN (n : Nat) : Nat := 0x14100 + 0x4 * n
/-- RXP.CFG (R254). -/
def RXP_CFG : Nat := 0x15040
/-- RXP.POOL (R252). -/
def RXP_POOL : Nat := 0x15044
/-- RXP.POOL_CFG (R252). -/
def RXP_POOL_CFG (n : Nat) : Nat := 0x15048 + 0x4 * n
/-- RXP.POOL_USE (R252). -/
def RXP_POOL_USE (n : Nat) : Nat := 0x15058 + 0x4 * n
/-- RXP.EXHAUST (R253). -/
def RXP_EXHAUST : Nat := 0x15068
/-- RXP.LSEL (R270). -/
def RXP_LSEL : Nat := 0x1506c
/-- RXP.LCTRL (R270). -/
def RXP_LCTRL : Nat := 0x15070
/-- RXP.LUSE (R270). -/
def RXP_LUSE : Nat := 0x15074
/-- RXP.OVERLOAD (R265,R269). -/
def RXP_OVERLOAD : Nat := 0x15078
/-- RXP.LDATA (R247). -/
def RXP_LDATA (n : Nat) : Nat := 0x15080 + 0x4 * n
/-- RXP.RXR_CFG (R265). -/
def RXP_RXR_CFG (n : Nat) : Nat := 0x150a0 + 0x20 * n
/-- RXP.RXR_BASE_LO (R265). -/
def RXP_RXR_BASE_LO (n : Nat) : Nat := 0x150a4 + 0x20 * n
/-- RXP.RXR_BASE_HI (R265). -/
def RXP_RXR_BASE_HI (n : Nat) : Nat := 0x150a8 + 0x20 * n
/-- RXP.RXR_PROD (R265). -/
def RXP_RXR_PROD (n : Nat) : Nat := 0x150ac + 0x20 * n
/-- RXP.RXR_CONS (R266). -/
def RXP_RXR_CONS (n : Nat) : Nat := 0x150b0 + 0x20 * n
/-- RXP.RXR_STAT (R266). -/
def RXP_RXR_STAT (n : Nat) : Nat := 0x150b4 + 0x20 * n
/-- RXP.RXR_IRQ (R267). -/
def RXP_RXR_IRQ (n : Nat) : Nat := 0x150b8 + 0x20 * n
/-- RXP.STAT (R270). -/
def RXP_STAT (n c : Nat) : Nat := 0x15200 + 0x40 * n + 0x4 * c
/-- TXP.PROF_SEL (R288). -/
def TXP_PROF_SEL : Nat := 0x16040
/-- TXP.PROF_DATA (R288). -/
def TXP_PROF_DATA : Nat := 0x16044
/-- TXP.SET_SEL (R289). -/
def TXP_SET_SEL : Nat := 0x16048
/-- TXP.SET_DATA (R274,R279). -/
def TXP_SET_DATA : Nat := 0x1604c
/-- TXP.SET_CTRL (R288). -/
def TXP_SET_CTRL : Nat := 0x16050
/-- TXP.ABORT (R281,R287). -/
def TXP_ABORT : Nat := 0x16054
/-- TXP.COUNT (R281). -/
def TXP_COUNT : Nat := 0x16058
/-- TXP.ONAIR (R289). -/
def TXP_ONAIR (n : Nat) : Nat := 0x16060 + 0x4 * n
/-- MAC.LBT (R315,R316). -/
def MAC_LBT (g : Nat) : Nat := 0x18040 + 0x1000 * g
/-- MAC.ACK (R318,R320). -/
def MAC_ACK (g : Nat) : Nat := 0x18044 + 0x1000 * g
/-- MAC.TIMING (R307,R308). -/
def MAC_TIMING (g : Nat) : Nat := 0x18048 + 0x1000 * g
/-- MAC.ASSOC (R295). -/
def MAC_ASSOC (g : Nat) : Nat := 0x1804c + 0x1000 * g
/-- MAC.DUTY_SEL (R313). -/
def MAC_DUTY_SEL (g : Nat) : Nat := 0x18050 + 0x1000 * g
/-- MAC.DUTY_USED (R313). -/
def MAC_DUTY_USED (g : Nat) : Nat := 0x18054 + 0x1000 * g
/-- MAC.DUTY_CFG (R313). -/
def MAC_DUTY_CFG (g : Nat) : Nat := 0x18058 + 0x1000 * g
/-- MAC.COUNT_LBT (R328). -/
def MAC_COUNT_LBT (g : Nat) : Nat := 0x1805c + 0x1000 * g
/-- MAC.COUNT_ACK (R319,R328). -/
def MAC_COUNT_ACK (g : Nat) : Nat := 0x18060 + 0x1000 * g
/-- MAC.COUNT_MISC (R321,R313). -/
def MAC_COUNT_MISC (g : Nat) : Nat := 0x18064 + 0x1000 * g
/-- MAC.ASSOC_STAT (R328). -/
def MAC_ASSOC_STAT (g : Nat) : Nat := 0x18068 + 0x1000 * g
/-- MAC.ASSOC_LAST (R294). -/
def MAC_ASSOC_LAST (g : Nat) : Nat := 0x1806c + 0x1000 * g
/-- MAC.ADRIFT_LAST (R309). -/
def MAC_ADRIFT_LAST (g : Nat) : Nat := 0x18070 + 0x1000 * g
/-- MAC.BEACON_STAT (R297). -/
def MAC_BEACON_STAT (g : Nat) : Nat := 0x18074 + 0x1000 * g
/-- MAC.PEER_CFG (R302). -/
def MAC_PEER_CFG (g : Nat) : Nat := 0x18078 + 0x1000 * g
/-- MAC.TIMING_STAT (R307). -/
def MAC_TIMING_STAT (g : Nat) : Nat := 0x1807c + 0x1000 * g
/-- MAC.PAN_SEL (R328). -/
def MAC_PAN_SEL (g : Nat) : Nat := 0x18080 + 0x1000 * g
/-- MAC.PAN_DATA (R291). -/
def MAC_PAN_DATA (g n : Nat) : Nat := 0x18084 + 0x1000 * g + 0x4 * n
/-- MAC.PAN_CTRL (R328). -/
def MAC_PAN_CTRL (g : Nat) : Nat := 0x180a8 + 0x1000 * g
/-- MAC.PEER_SEL (R301). -/
def MAC_PEER_SEL (g : Nat) : Nat := 0x180ac + 0x1000 * g
/-- MAC.PEER_DATA (R328). -/
def MAC_PEER_DATA (g n : Nat) : Nat := 0x180b0 + 0x1000 * g + 0x4 * n
/-- SHEET.CFG (R323,R324,R325). -/
def SHEET_CFG : Nat := 0x1c040
/-- SHEET.RELAY_FLOW (R325). -/
def SHEET_RELAY_FLOW : Nat := 0x1c044
/-- SHEET.RELAY_JITTER (R325). -/
def SHEET_RELAY_JITTER : Nat := 0x1c048
/-- SHEET.COUNT_A (R329). -/
def SHEET_COUNT_A : Nat := 0x1c04c
/-- SHEET.COUNT_B (R329). -/
def SHEET_COUNT_B : Nat := 0x1c050
/-- SHEET.COUNT_C (R329). -/
def SHEET_COUNT_C : Nat := 0x1c054
/-- DIR.COUNT (R397). -/
def DIR_COUNT : Nat := 0x20040
/-- DIR.USE (R397). -/
def DIR_USE : Nat := 0x20044
/-- DIR.XDEL (R397). -/
def DIR_XDEL : Nat := 0x20048
/-- DIR.XPROBE (R380). -/
def DIR_XPROBE : Nat := 0x2004c
/-- DIR.FULL (R387). -/
def DIR_FULL : Nat := 0x20050
/-- DIR.STAT (R386). -/
def DIR_STAT : Nat := 0x20054
/-- DIR.LOST (R360). -/
def DIR_LOST : Nat := 0x20058
/-- DIR.BMAP_SEL (R371). -/
def DIR_BMAP_SEL : Nat := 0x2005c
/-- DIR.BMAP_DATA (R371). -/
def DIR_BMAP_DATA : Nat := 0x20060
/-- DIR.XPFX_SEL (R379). -/
def DIR_XPFX_SEL : Nat := 0x20064
/-- DIR.XPFX_DATA (R379). -/
def DIR_XPFX_DATA : Nat := 0x20068
/-- DIR.XPFX_CNT (R379). -/
def DIR_XPFX_CNT : Nat := 0x2006c
/-- DIR.TCLEAR (R378). -/
def DIR_TCLEAR : Nat := 0x20070
/-- TMEM.SCRUB_CFG (R362,R364). -/
def TMEM_SCRUB_CFG : Nat := 0x21040
/-- TMEM.SCRUB_STAT (R363). -/
def TMEM_SCRUB_STAT : Nat := 0x21044
/-- TMEM.SCRUB_PASSES (R363). -/
def TMEM_SCRUB_PASSES : Nat := 0x21048
/-- TMEM.CE_CNT (R359). -/
def TMEM_CE_CNT (n : Nat) : Nat := 0x2104c + 0x4 * n
/-- TMEM.CE_LOG (R359). -/
def TMEM_CE_LOG : Nat := 0x2105c
/-- TMEM.UE_LOG (R360). -/
def TMEM_UE_LOG : Nat := 0x21060
/-- TMEM.UE_CNT (R361). -/
def TMEM_UE_CNT : Nat := 0x21064
/-- TMEM.TELEM_CFG (R365,R366). -/
def TMEM_TELEM_CFG : Nat := 0x21068
/-- TMEM.TELEM_WR (R368). -/
def TMEM_TELEM_WR : Nat := 0x2106c
/-- TMEM.TELEM_SEQ (R368). -/
def TMEM_TELEM_SEQ : Nat := 0x21070
/-- TMEM.TELEM_STAT (R366). -/
def TMEM_TELEM_STAT : Nat := 0x21074
/-- FWD.CFG (R395). -/
def FWD_CFG (g : Nat) : Nat := 0x24040 + 0x1000 * g
/-- FWD.SWEEP (R394). -/
def FWD_SWEEP (g : Nat) : Nat := 0x24044 + 0x1000 * g
/-- FWD.COUNT (R399). -/
def FWD_COUNT (g : Nat) : Nat := 0x24048 + 0x1000 * g
/-- FWD.STAT_A (R399). -/
def FWD_STAT_A (g : Nat) : Nat := 0x2404c + 0x1000 * g
/-- FWD.STAT_B (R399). -/
def FWD_STAT_B (g : Nat) : Nat := 0x24050 + 0x1000 * g
/-- FWD.STAT_C (R399). -/
def FWD_STAT_C (g : Nat) : Nat := 0x24054 + 0x1000 * g
/-- FWD.MOVE_LAST (R399). -/
def FWD_MOVE_LAST (g : Nat) : Nat := 0x24058 + 0x1000 * g
/-- FWD.SWEEP_POS (R399). -/
def FWD_SWEEP_POS (g : Nat) : Nat := 0x2405c + 0x1000 * g
/-- QSCH.CFG (R418). -/
def QSCH_CFG : Nat := 0x28040
/-- QSCH.BUF_RES_DOWN (R405). -/
def QSCH_BUF_RES_DOWN : Nat := 0x28044
/-- QSCH.BUF_RES_UP (R405). -/
def QSCH_BUF_RES_UP : Nat := 0x28048
/-- QSCH.BUF_LOW (R406). -/
def QSCH_BUF_LOW : Nat := 0x2804c
/-- QSCH.BUF_FREE (R405). -/
def QSCH_BUF_FREE : Nat := 0x28050
/-- QSCH.BUF_MIN (R405). -/
def QSCH_BUF_MIN : Nat := 0x28054
/-- QSCH.BUF_HELD_DOWN (R405). -/
def QSCH_BUF_HELD_DOWN : Nat := 0x28058
/-- QSCH.BUF_HELD_UP (R405). -/
def QSCH_BUF_HELD_UP : Nat := 0x2805c
/-- QSCH.DROP_A (R427). -/
def QSCH_DROP_A : Nat := 0x28060
/-- QSCH.DROP_B (R427). -/
def QSCH_DROP_B : Nat := 0x28064
/-- QSCH.POLICE (R427). -/
def QSCH_POLICE : Nat := 0x28068
/-- QSCH.LAST_EVENT (R420). -/
def QSCH_LAST_EVENT : Nat := 0x2806c
/-- QSCH.PENDING (R413). -/
def QSCH_PENDING : Nat := 0x28070
/-- QSCH.PORT_STAT (R418). -/
def QSCH_PORT_STAT (n : Nat) : Nat := 0x28100 + 0x4 * n
/-- QFLOW.SEL (R429). -/
def QFLOW_SEL : Nat := 0x29040
/-- QFLOW.CFG (R401). -/
def QFLOW_CFG : Nat := 0x29044
/-- QFLOW.SHAPER (R410,R413). -/
def QFLOW_SHAPER : Nat := 0x29048
/-- QFLOW.SHAPER_P (R410,R413). -/
def QFLOW_SHAPER_P : Nat := 0x2904c
/-- QFLOW.BURST (R410). -/
def QFLOW_BURST : Nat := 0x29050
/-- QFLOW.BURST_P (R410). -/
def QFLOW_BURST_P : Nat := 0x29054
/-- QFLOW.LIMIT (R407,R420). -/
def QFLOW_LIMIT : Nat := 0x29058
/-- QFLOW.STATUS (R420). -/
def QFLOW_STATUS : Nat := 0x2905c
/-- QFLOW.C_LEVEL_LO (R410). -/
def QFLOW_C_LEVEL_LO : Nat := 0x29060
/-- QFLOW.C_LEVEL_HI (R410). -/
def QFLOW_C_LEVEL_HI : Nat := 0x29064
/-- QFLOW.P_LEVEL_LO (R410). -/
def QFLOW_P_LEVEL_LO : Nat := 0x29068
/-- QFLOW.P_LEVEL_HI (R410). -/
def QFLOW_P_LEVEL_HI : Nat := 0x2906c
/-- QFLOW.TAG_LO (R414). -/
def QFLOW_TAG_LO : Nat := 0x29070
/-- QFLOW.TAG_HI (R414). -/
def QFLOW_TAG_HI : Nat := 0x29074
/-- QFLOW.COUNT (R429). -/
def QFLOW_COUNT : Nat := 0x29078
/-- QPCLS.SEL (R430). -/
def QPCLS_SEL : Nat := 0x2a040
/-- QPCLS.CFG (R417). -/
def QPCLS_CFG : Nat := 0x2a044
/-- QPCLS.SHAPER (R417). -/
def QPCLS_SHAPER : Nat := 0x2a048
/-- QPCLS.ALARM (R420). -/
def QPCLS_ALARM : Nat := 0x2a04c
/-- QPCLS.SAMPLE (R420). -/
def QPCLS_SAMPLE : Nat := 0x2a050
/-- QPCLS.HWM (R420). -/
def QPCLS_HWM : Nat := 0x2a054
/-- QPCLS.CREDIT_LO (R417). -/
def QPCLS_CREDIT_LO : Nat := 0x2a058
/-- QPCLS.CREDIT_HI (R417). -/
def QPCLS_CREDIT_HI : Nat := 0x2a05c
/-- QPCLS.VTIME_LO (R414). -/
def QPCLS_VTIME_LO : Nat := 0x2a060
/-- QPCLS.VTIME_HI (R414). -/
def QPCLS_VTIME_HI : Nat := 0x2a064
/-- QPCLS.COUNT (R430). -/
def QPCLS_COUNT : Nat := 0x2a068
/-- QEGR.SEL (R431). -/
def QEGR_SEL : Nat := 0x2b040
/-- QEGR.CFG (R422). -/
def QEGR_CFG : Nat := 0x2b044
/-- QEGR.SHAPER (R422). -/
def QEGR_SHAPER : Nat := 0x2b048
/-- QEGR.BURST (R422). -/
def QEGR_BURST : Nat := 0x2b04c
/-- QEGR.LIMIT (R422). -/
def QEGR_LIMIT : Nat := 0x2b050
/-- QEGR.STATUS (R431). -/
def QEGR_STATUS : Nat := 0x2b054
/-- QEGR.HWM (R431). -/
def QEGR_HWM : Nat := 0x2b058
/-- QEGR.LEVEL_LO (R422). -/
def QEGR_LEVEL_LO : Nat := 0x2b05c
/-- QEGR.LEVEL_HI (R422). -/
def QEGR_LEVEL_HI : Nat := 0x2b060
/-- QEGR.TAG_LO (R422). -/
def QEGR_TAG_LO : Nat := 0x2b064
/-- QEGR.TAG_HI (R422). -/
def QEGR_TAG_HI : Nat := 0x2b068
/-- QEGR.VTIME_LO (R422). -/
def QEGR_VTIME_LO : Nat := 0x2b06c
/-- QEGR.VTIME_HI (R422). -/
def QEGR_VTIME_HI : Nat := 0x2b070
/-- QEGR.COUNT (R431). -/
def QEGR_COUNT : Nat := 0x2b074
/-- QMAP.CTRL (R402,R421). -/
def QMAP_CTRL : Nat := 0x2c040
/-- QMAP.NON_IP (R421). -/
def QMAP_NON_IP : Nat := 0x2c044
/-- QMAP.DSCP_FLOW (R402). -/
def QMAP_DSCP_FLOW (n : Nat) : Nat := 0x2c100 + 0x4 * n
/-- QMAP.UP_MAP (R421). -/
def QMAP_UP_MAP (n : Nat) : Nat := 0x2c200 + 0x4 * n
/-- BHL.CFG (R433,R437). -/
def BHL_CFG (g : Nat) : Nat := 0x30040 + 0x1000 * g
/-- BHL.LINK (R434). -/
def BHL_LINK (g : Nat) : Nat := 0x30044 + 0x1000 * g
/-- BHL.GW_MAC_LO (R438). -/
def BHL_GW_MAC_LO (g : Nat) : Nat := 0x30048 + 0x1000 * g
/-- BHL.GW_MAC_HI (R438). -/
def BHL_GW_MAC_HI (g : Nat) : Nat := 0x3004c + 0x1000 * g
/-- BHL.ADDR (R436). -/
def BHL_ADDR (g n : Nat) : Nat := 0x30050 + 0x1000 * g + 0x4 * n
/-- BHL.BRZ_CFG (R447,R449). -/
def BHL_BRZ_CFG (g : Nat) : Nat := 0x30060 + 0x1000 * g
/-- BHL.FRAMES (R458). -/
def BHL_FRAMES (g : Nat) : Nat := 0x30064 + 0x1000 * g
/-- BHL.DROP (R458). -/
def BHL_DROP (g : Nat) : Nat := 0x30068 + 0x1000 * g
/-- BHL.BRZ_LAST (R458). -/
def BHL_BRZ_LAST (g : Nat) : Nat := 0x3006c + 0x1000 * g
/-- BHL.SESS (R447). -/
def BHL_SESS (g n : Nat) : Nat := 0x30070 + 0x1000 * g + 0x8 * n
/-- BHL.SEQ (R448). -/
def BHL_SEQ (g n : Nat) : Nat := 0x30074 + 0x1000 * g + 0x8 * n
/-- PTP.CFG (R451,R455). -/
def PTP_CFG : Nat := 0x32040
/-- PTP.SERVO (R460). -/
def PTP_SERVO : Nat := 0x32044
/-- PTP.OFFSET (R460). -/
def PTP_OFFSET : Nat := 0x32048
/-- PTP.GM_LO (R460). -/
def PTP_GM_LO : Nat := 0x3204c
/-- PTP.GM_HI (R460). -/
def PTP_GM_HI : Nat := 0x32050
/-- PTP.PPS_IN_LO (R460). -/
def PTP_PPS_IN_LO : Nat := 0x32054
/-- PTP.PPS_IN_HI (R460). -/
def PTP_PPS_IN_HI : Nat := 0x32058
/-- PTP.COUNT (R453). -/
def PTP_COUNT : Nat := 0x3205c
/-- LOWPAN.CFG (R442). -/
def LOWPAN_CFG : Nat := 0x33040
/-- LOWPAN.PFX_SEL (R459). -/
def LOWPAN_PFX_SEL : Nat := 0x33044
/-- LOWPAN.PFX_LO (R439). -/
def LOWPAN_PFX_LO : Nat := 0x33048
/-- LOWPAN.PFX_HI (R439). -/
def LOWPAN_PFX_HI : Nat := 0x3304c
/-- LOWPAN.REASM (R459). -/
def LOWPAN_REASM : Nat := 0x33050
/-- LOWPAN.ERR (R459). -/
def LOWPAN_ERR : Nat := 0x33054
/-- LOWPAN.COUNT (R459). -/
def LOWPAN_COUNT : Nat := 0x33058
/-- PCIE.LINK (R461). -/
def PCIE_LINK : Nat := 0x34040
/-- PCIE.SUBSYS (R456). -/
def PCIE_SUBSYS : Nat := 0x34044
/-- PCIE.ERR (R457). -/
def PCIE_ERR : Nat := 0x34048
/-- PCIE.FLR (R457). -/
def PCIE_FLR : Nat := 0x3404c

end R

namespace F

def SYS_TEMPO_LO_COUNT_LO : Fld := ⟨R.SYS_TEMPO_LO, 31, 0⟩
def SYS_TEMPO_HI_COUNT_HI : Fld := ⟨R.SYS_TEMPO_HI, 3, 0⟩
def SYS_OVERRUN_COUNT : Fld := ⟨R.SYS_OVERRUN, 31, 16⟩
def SYS_OVERRUN_LAST_DEFERRED : Fld := ⟨R.SYS_OVERRUN, 11, 8⟩
def SYS_OVERRUN_HW_LATE : Fld := ⟨R.SYS_OVERRUN, 1, 1⟩
def SYS_OVERRUN_LANE_LATE : Fld := ⟨R.SYS_OVERRUN, 0, 0⟩
def SYS_TEMPO_WRAP_WRAPS : Fld := ⟨R.SYS_TEMPO_WRAP, 11, 0⟩
def SYS_BG_STAT_DEFER_TOTAL (n : Nat) : Fld := ⟨R.SYS_BG_STAT n, 31, 16⟩
def SYS_BG_STAT_GUARANTEED (n : Nat) : Fld := ⟨R.SYS_BG_STAT n, 8, 8⟩
def SYS_BG_STAT_RUN (n : Nat) : Fld := ⟨R.SYS_BG_STAT n, 4, 0⟩
def SYS_OPENING_ACTIVE : Fld := ⟨R.SYS_OPENING, 31, 31⟩
def SYS_OPENING_REMAIN : Fld := ⟨R.SYS_OPENING, 27, 16⟩
def SYS_OPENING_HOLD_ASSOC : Fld := ⟨R.SYS_OPENING, 8, 8⟩
def SYS_OPENING_ADMIT : Fld := ⟨R.SYS_OPENING, 7, 0⟩
def SYS_OPEN_STAT_REFUSED : Fld := ⟨R.SYS_OPEN_STAT, 31, 16⟩
def SYS_OPEN_STAT_ADMITTED : Fld := ⟨R.SYS_OPEN_STAT, 15, 0⟩
def SYS_STATUS_PINS_VALUE : Fld := ⟨R.SYS_STATUS_PINS, 7, 4⟩
def SYS_STATUS_PINS_MODE : Fld := ⟨R.SYS_STATUS_PINS, 0, 0⟩
def SYS_ID_PART : Fld := ⟨R.SYS_ID, 31, 16⟩
def SYS_ID_REVISION : Fld := ⟨R.SYS_ID, 15, 8⟩
def SYS_ID_GRADE : Fld := ⟨R.SYS_ID, 1, 0⟩
def SYS_BR_ID_LO_ID : Fld := ⟨R.SYS_BR_ID_LO, 31, 0⟩
def SYS_BR_ID_HI_ID : Fld := ⟨R.SYS_BR_ID_HI, 31, 0⟩
def PWR_MODE_WAKE_TO : Fld := ⟨R.PWR_MODE, 9, 8⟩
def PWR_MODE_CURRENT : Fld := ⟨R.PWR_MODE, 5, 4⟩
def PWR_MODE_TARGET : Fld := ⟨R.PWR_MODE, 1, 0⟩
def PWR_WAKE_EN_SVC : Fld := ⟨R.PWR_WAKE_EN, 4, 4⟩
def PWR_WAKE_EN_MOTION : Fld := ⟨R.PWR_WAKE_EN, 3, 3⟩
def PWR_WAKE_EN_CAPT : Fld := ⟨R.PWR_WAKE_EN, 2, 2⟩
def PWR_WAKE_EN_GPIO : Fld := ⟨R.PWR_WAKE_EN, 1, 1⟩
def PWR_WAKE_EN_TIMER : Fld := ⟨R.PWR_WAKE_EN, 0, 0⟩
def PWR_WAKE_CAUSE_SVC : Fld := ⟨R.PWR_WAKE_CAUSE, 4, 4⟩
def PWR_WAKE_CAUSE_MOTION : Fld := ⟨R.PWR_WAKE_CAUSE, 3, 3⟩
def PWR_WAKE_CAUSE_CAPT : Fld := ⟨R.PWR_WAKE_CAUSE, 2, 2⟩
def PWR_WAKE_CAUSE_GPIO : Fld := ⟨R.PWR_WAKE_CAUSE, 1, 1⟩
def PWR_WAKE_CAUSE_TIMER : Fld := ⟨R.PWR_WAKE_CAUSE, 0, 0⟩
def PWR_WAKE_TIMER_LO_TICKS : Fld := ⟨R.PWR_WAKE_TIMER_LO, 31, 0⟩
def PWR_WAKE_TIMER_HI_TICKS : Fld := ⟨R.PWR_WAKE_TIMER_HI, 3, 0⟩
def PWR_SUPPLY_VIN : Fld := ⟨R.PWR_SUPPLY, 31, 16⟩
def PWR_SUPPLY_VBAK : Fld := ⟨R.PWR_SUPPLY, 9, 0⟩
def PWR_FLAGS_THERM_WARN : Fld := ⟨R.PWR_FLAGS, 7, 7⟩
def PWR_FLAGS_VIN_HIGH : Fld := ⟨R.PWR_FLAGS, 6, 6⟩
def PWR_FLAGS_BANK_WEAK : Fld := ⟨R.PWR_FLAGS, 5, 5⟩
def PWR_FLAGS_BANK_READY : Fld := ⟨R.PWR_FLAGS, 4, 4⟩
def PWR_FLAGS_AON_LOST : Fld := ⟨R.PWR_FLAGS, 3, 3⟩
def PWR_FLAGS_VBAK_ABSENT : Fld := ⟨R.PWR_FLAGS, 2, 2⟩
def PWR_FLAGS_VBAK_LOW : Fld := ⟨R.PWR_FLAGS, 1, 1⟩
def PWR_FLAGS_VIN_LOW : Fld := ⟨R.PWR_FLAGS, 0, 0⟩
def PWR_BANK_USABLE : Fld := ⟨R.PWR_BANK, 31, 16⟩
def PWR_BANK_VOLT : Fld := ⟨R.PWR_BANK, 9, 0⟩
def PWR_RESIGN_GO : Fld := ⟨R.PWR_RESIGN, 0, 0⟩
def PWR_LAST_REC_VALID : Fld := ⟨R.PWR_LAST_REC, 9, 9⟩
def PWR_LAST_REC_SLOT : Fld := ⟨R.PWR_LAST_REC, 8, 8⟩
def PWR_LAST_REC_REASON : Fld := ⟨R.PWR_LAST_REC, 7, 0⟩
def PWR_REC_SEQ_SEQ : Fld := ⟨R.PWR_REC_SEQ, 31, 0⟩
def PWR_AON_CNT_LO_COUNT : Fld := ⟨R.PWR_AON_CNT_LO, 31, 0⟩
def PWR_AON_CNT_HI_COUNT : Fld := ⟨R.PWR_AON_CNT_HI, 15, 0⟩
def PWR_AON_AT_SAVE_LO_COUNT : Fld := ⟨R.PWR_AON_AT_SAVE_LO, 31, 0⟩
def PWR_AON_AT_SAVE_HI_COUNT : Fld := ⟨R.PWR_AON_AT_SAVE_HI, 15, 0⟩
def PWR_THERM_WARN : Fld := ⟨R.PWR_THERM, 15, 8⟩
def PWR_THERM_TJ : Fld := ⟨R.PWR_THERM, 7, 0⟩
def CLK_STAT_CMP_PTP : Fld := ⟨R.CLK_STAT, 5, 5⟩
def CLK_STAT_TX_HELD : Fld := ⟨R.CLK_STAT, 4, 4⟩
def CLK_STAT_SLOW_FAULT : Fld := ⟨R.CLK_STAT, 3, 3⟩
def CLK_STAT_REF_DEV : Fld := ⟨R.CLK_STAT, 2, 2⟩
def CLK_STAT_PLL_LOCK : Fld := ⟨R.CLK_STAT, 1, 1⟩
def CLK_STAT_REF_OK : Fld := ⟨R.CLK_STAT, 0, 0⟩
def CLK_REF_DEV_PPB : Fld := ⟨R.CLK_REF_DEV, 31, 0⟩
def CLK_FAULT_CNT_DEV : Fld := ⟨R.CLK_FAULT_CNT, 31, 16⟩
def CLK_FAULT_CNT_SLOW : Fld := ⟨R.CLK_FAULT_CNT, 15, 0⟩
def CLK_DEV_LIMIT_PPM : Fld := ⟨R.CLK_DEV_LIMIT, 7, 0⟩
def CLK_PLL_LOCK_T_CYCLES : Fld := ⟨R.CLK_PLL_LOCK_T, 16, 0⟩
def BIST_RESULT_SLICES : Fld := ⟨R.BIST_RESULT, 31, 22⟩
def BIST_RESULT_FAILED : Fld := ⟨R.BIST_RESULT, 15, 8⟩
def BIST_RESULT_FIRST_ITEM : Fld := ⟨R.BIST_RESULT, 7, 4⟩
def BIST_RESULT_OUTCOME : Fld := ⟨R.BIST_RESULT, 3, 0⟩
def BIST_FAIL_LOC_CODE : Fld := ⟨R.BIST_FAIL_LOC, 31, 24⟩
def BIST_FAIL_LOC_LOC : Fld := ⟨R.BIST_FAIL_LOC, 13, 0⟩
def BIST_ITEM_SLICES (n : Nat) : Fld := ⟨R.BIST_ITEM n, 25, 16⟩
def BIST_ITEM_RETRIED (n : Nat) : Fld := ⟨R.BIST_ITEM n, 8, 8⟩
def BIST_ITEM_CODE (n : Nat) : Fld := ⟨R.BIST_ITEM n, 7, 0⟩
def BIST_WAIVE_PCIE : Fld := ⟨R.BIST_WAIVE, 2, 2⟩
def BIST_WAIVE_SFI : Fld := ⟨R.BIST_WAIVE, 1, 1⟩
def BIST_WAIVE_LOGIC : Fld := ⟨R.BIST_WAIVE, 0, 0⟩
def BIST_TEST_ACCESS : Fld := ⟨R.BIST_TEST, 7, 7⟩
def BIST_TEST_ZEROISED : Fld := ⟨R.BIST_TEST, 6, 6⟩
def BIST_TEST_TEST_EN_SEEN : Fld := ⟨R.BIST_TEST, 5, 5⟩
def BIST_TEST_CONFIRM : Fld := ⟨R.BIST_TEST, 1, 1⟩
def BIST_TEST_ARM : Fld := ⟨R.BIST_TEST, 0, 0⟩
def BIST_RUNTIME_PASSES : Fld := ⟨R.BIST_RUNTIME, 31, 16⟩
def BIST_RUNTIME_LAST_CODE : Fld := ⟨R.BIST_RUNTIME, 15, 8⟩
def BIST_RUNTIME_LAST_ITEM : Fld := ⟨R.BIST_RUNTIME, 7, 4⟩
def BIST_RUNTIME_EN : Fld := ⟨R.BIST_RUNTIME, 0, 0⟩
def BIST_RESET_CAUSE_PWRUP_T : Fld := ⟨R.BIST_RESET_CAUSE, 31, 16⟩
def BIST_RESET_CAUSE_CAUSE : Fld := ⟨R.BIST_RESET_CAUSE, 2, 0⟩
def LANE_ROLES_MODE : Fld := ⟨R.LANE_ROLES, 17, 16⟩
def LANE_ROLES_D : Fld := ⟨R.LANE_ROLES, 15, 12⟩
def LANE_ROLES_C : Fld := ⟨R.LANE_ROLES, 11, 8⟩
def LANE_ROLES_B : Fld := ⟨R.LANE_ROLES, 7, 4⟩
def LANE_ROLES_A : Fld := ⟨R.LANE_ROLES, 3, 0⟩
def LANE_CLAIM_TRUST (n : Nat) : Fld := ⟨R.LANE_CLAIM n, 31, 28⟩
def LANE_CLAIM_AGE (n : Nat) : Fld := ⟨R.LANE_CLAIM n, 27, 4⟩
def LANE_CLAIM_RANK (n : Nat) : Fld := ⟨R.LANE_CLAIM n, 1, 0⟩
def LANE_CFG_STRIKE_LIMIT : Fld := ⟨R.LANE_CFG, 7, 4⟩
def LANE_CFG_SIMPLEX_IDLE : Fld := ⟨R.LANE_CFG, 1, 1⟩
def LANE_CFG_AUTO_ADMIT : Fld := ⟨R.LANE_CFG, 0, 0⟩
def LANE_ADMIT_REQ : Fld := ⟨R.LANE_ADMIT, 0, 0⟩
def LANE_DRY_CTRL_START : Fld := ⟨R.LANE_DRY_CTRL, 31, 31⟩
def LANE_DRY_CTRL_ABORT : Fld := ⟨R.LANE_DRY_CTRL, 30, 30⟩
def LANE_DRY_CTRL_LANE : Fld := ⟨R.LANE_DRY_CTRL, 25, 24⟩
def LANE_DRY_CTRL_TEMPOS : Fld := ⟨R.LANE_DRY_CTRL, 23, 0⟩
def LANE_DRY_RESULT_MISMATCH : Fld := ⟨R.LANE_DRY_RESULT, 31, 16⟩
def LANE_DRY_RESULT_FIRST_STAGE : Fld := ⟨R.LANE_DRY_RESULT, 15, 12⟩
def LANE_DRY_RESULT_LANE : Fld := ⟨R.LANE_DRY_RESULT, 9, 8⟩
def LANE_DRY_RESULT_STATE : Fld := ⟨R.LANE_DRY_RESULT, 1, 0⟩
def LANE_DRY_LEFT_TEMPOS : Fld := ⟨R.LANE_DRY_LEFT, 23, 0⟩
def LANE_DISAGREE_COUNT : Fld := ⟨R.LANE_DISAGREE, 31, 16⟩
def LANE_DISAGREE_LAST_STAGE : Fld := ⟨R.LANE_DISAGREE, 15, 12⟩
def LANE_DISAGREE_LAST_KIND : Fld := ⟨R.LANE_DISAGREE, 11, 8⟩
def LANE_DISAGREE_LAST_LANES : Fld := ⟨R.LANE_DISAGREE, 3, 0⟩
def LANE_HIST_CE (n : Nat) : Fld := ⟨R.LANE_HIST n, 31, 16⟩
def LANE_HIST_LAST_CAUSE (n : Nat) : Fld := ⟨R.LANE_HIST n, 11, 8⟩
def LANE_HIST_STRIKES (n : Nat) : Fld := ⟨R.LANE_HIST n, 3, 0⟩
def LANE_EXEC_MARK : Fld := ⟨R.LANE_EXEC, 16, 0⟩
def LANE_EXEC_PEAK_PEAK : Fld := ⟨R.LANE_EXEC_PEAK, 16, 0⟩
def HOST_WIN_BASE_BASE : Fld := ⟨R.HOST_WIN_BASE, 5, 0⟩
def HOST_IN_FLIGHT_PEAK : Fld := ⟨R.HOST_IN_FLIGHT, 25, 16⟩
def HOST_IN_FLIGHT_COUNT : Fld := ⟨R.HOST_IN_FLIGHT, 9, 0⟩
def HOST_RING_CFG_IRQ_EVERY (n : Nat) : Fld := ⟨R.HOST_RING_CFG n, 2, 2⟩
def HOST_RING_CFG_TRANSPORT (n : Nat) : Fld := ⟨R.HOST_RING_CFG n, 1, 1⟩
def HOST_RING_CFG_EN (n : Nat) : Fld := ⟨R.HOST_RING_CFG n, 0, 0⟩
def HOST_SQ_BASE_LO_ADDR (n : Nat) : Fld := ⟨R.HOST_SQ_BASE_LO n, 31, 0⟩
def HOST_SQ_BASE_HI_ADDR (n : Nat) : Fld := ⟨R.HOST_SQ_BASE_HI n, 31, 0⟩
def HOST_CQ_BASE_LO_ADDR (n : Nat) : Fld := ⟨R.HOST_CQ_BASE_LO n, 31, 0⟩
def HOST_CQ_BASE_HI_ADDR (n : Nat) : Fld := ⟨R.HOST_CQ_BASE_HI n, 31, 0⟩
def HOST_SQ_DB_VALUE (n : Nat) : Fld := ⟨R.HOST_SQ_DB n, 15, 0⟩
def HOST_CQ_DB_VALUE (n : Nat) : Fld := ⟨R.HOST_CQ_DB n, 15, 0⟩
def HOST_RING_STATE_LAST_HSEQ (n : Nat) : Fld := ⟨R.HOST_RING_STATE n, 31, 16⟩
def HOST_RING_STATE_LAST_DSEQ (n : Nat) : Fld := ⟨R.HOST_RING_STATE n, 15, 0⟩
def HOST_CQ_STATE_HELD_OLDEST (n : Nat) : Fld := ⟨R.HOST_CQ_STATE n, 31, 16⟩
def HOST_CQ_STATE_CQ_WRITTEN (n : Nat) : Fld := ⟨R.HOST_CQ_STATE n, 15, 0⟩
def HOST_RING_STAT_FAULT (n : Nat) : Fld := ⟨R.HOST_RING_STAT n, 19, 19⟩
def HOST_RING_STAT_FETCH_WAIT (n : Nat) : Fld := ⟨R.HOST_RING_STAT n, 18, 18⟩
def HOST_RING_STAT_CQ_FULL (n : Nat) : Fld := ⟨R.HOST_RING_STAT n, 17, 17⟩
def HOST_RING_STAT_IDLE (n : Nat) : Fld := ⟨R.HOST_RING_STAT n, 16, 16⟩
def HOST_RING_STAT_IN_FLIGHT (n : Nat) : Fld := ⟨R.HOST_RING_STAT n, 9, 0⟩
def IRQ_SRC_A_S : Fld := ⟨R.IRQ_SRC_A, 31, 0⟩
def IRQ_SRC_B_S : Fld := ⟨R.IRQ_SRC_B, 31, 0⟩
def IRQ_EN_A_S : Fld := ⟨R.IRQ_EN_A, 31, 0⟩
def IRQ_EN_B_S : Fld := ⟨R.IRQ_EN_B, 31, 0⟩
def IRQ_PEND_A_S : Fld := ⟨R.IRQ_PEND_A, 31, 0⟩
def IRQ_PEND_B_S : Fld := ⟨R.IRQ_PEND_B, 31, 0⟩
def IRQ_PIN_EN_A_S : Fld := ⟨R.IRQ_PIN_EN_A, 31, 0⟩
def IRQ_PIN_EN_B_S : Fld := ⟨R.IRQ_PIN_EN_B, 31, 0⟩
def IRQ_BRZ_EN_A_S : Fld := ⟨R.IRQ_BRZ_EN_A, 31, 0⟩
def IRQ_BRZ_EN_B_S : Fld := ⟨R.IRQ_BRZ_EN_B, 31, 0⟩
def IRQ_SOFT_SET : Fld := ⟨R.IRQ_SOFT, 0, 0⟩
def IRQ_MSIX_GAP_US : Fld := ⟨R.IRQ_MSIX_GAP, 7, 0⟩
def IRQ_VEC_VECTOR (n : Nat) : Fld := ⟨R.IRQ_VEC n, 5, 0⟩
def EVC_OVF_A_OVF : Fld := ⟨R.EVC_OVF_A, 31, 0⟩
def EVC_OVF_B_OVF : Fld := ⟨R.EVC_OVF_B, 31, 0⟩
def EVC_SRC_CLEAR (n : Nat) : Fld := ⟨R.EVC_SRC n, 31, 31⟩
def EVC_SRC_ID (n : Nat) : Fld := ⟨R.EVC_SRC n, 9, 0⟩
def EVC_COUNT_LO_COUNT (n : Nat) : Fld := ⟨R.EVC_COUNT_LO n, 31, 0⟩
def EVC_COUNT_HI_COUNT (n : Nat) : Fld := ⟨R.EVC_COUNT_HI n, 15, 0⟩
def TIM_SYSTIME_LO_NS : Fld := ⟨R.TIM_SYSTIME_LO, 31, 0⟩
def TIM_SYSTIME_HI_NS : Fld := ⟨R.TIM_SYSTIME_HI, 31, 0⟩
def TIM_SYSTIME_STAT_SYNC : Fld := ⟨R.TIM_SYSTIME_STAT, 0, 0⟩
def TIM_START_UNITS : Fld := ⟨R.TIM_START, 15, 0⟩
def TIM_STOP_UNITS : Fld := ⟨R.TIM_STOP, 15, 0⟩
def TIM_RUN_UNITS : Fld := ⟨R.TIM_RUN, 15, 0⟩
def TIM_CFG_DBG_STOP (n : Nat) : Fld := ⟨R.TIM_CFG n, 16, 16⟩
def TIM_CFG_PRESC (n : Nat) : Fld := ⟨R.TIM_CFG n, 15, 0⟩
def TIM_COUNT_LO_COUNT (n : Nat) : Fld := ⟨R.TIM_COUNT_LO n, 31, 0⟩
def TIM_COUNT_HI_COUNT (n : Nat) : Fld := ⟨R.TIM_COUNT_HI n, 3, 0⟩
def TIM_RELOAD_LO_RELOAD (n : Nat) : Fld := ⟨R.TIM_RELOAD_LO n, 31, 0⟩
def TIM_RELOAD_HI_RELOAD (n : Nat) : Fld := ⟨R.TIM_RELOAD_HI n, 3, 0⟩
def TIM_CH_CFG_CH3_EDGE (n : Nat) : Fld := ⟨R.TIM_CH_CFG n, 30, 29⟩
def TIM_CH_CFG_CH3_SRC (n : Nat) : Fld := ⟨R.TIM_CH_CFG n, 28, 26⟩
def TIM_CH_CFG_CH3_MODE (n : Nat) : Fld := ⟨R.TIM_CH_CFG n, 25, 24⟩
def TIM_CH_CFG_CH2_EDGE (n : Nat) : Fld := ⟨R.TIM_CH_CFG n, 22, 21⟩
def TIM_CH_CFG_CH2_SRC (n : Nat) : Fld := ⟨R.TIM_CH_CFG n, 20, 18⟩
def TIM_CH_CFG_CH2_MODE (n : Nat) : Fld := ⟨R.TIM_CH_CFG n, 17, 16⟩
def TIM_CH_CFG_CH1_EDGE (n : Nat) : Fld := ⟨R.TIM_CH_CFG n, 14, 13⟩
def TIM_CH_CFG_CH1_SRC (n : Nat) : Fld := ⟨R.TIM_CH_CFG n, 12, 10⟩
def TIM_CH_CFG_CH1_MODE (n : Nat) : Fld := ⟨R.TIM_CH_CFG n, 9, 8⟩
def TIM_CH_CFG_CH0_EDGE (n : Nat) : Fld := ⟨R.TIM_CH_CFG n, 6, 5⟩
def TIM_CH_CFG_CH0_SRC (n : Nat) : Fld := ⟨R.TIM_CH_CFG n, 4, 2⟩
def TIM_CH_CFG_CH0_MODE (n : Nat) : Fld := ⟨R.TIM_CH_CFG n, 1, 0⟩
def TIM_FLAGS_COARSE (n : Nat) : Fld := ⟨R.TIM_FLAGS n, 11, 8⟩
def TIM_FLAGS_LOST (n : Nat) : Fld := ⟨R.TIM_FLAGS n, 7, 4⟩
def TIM_FLAGS_NEW (n : Nat) : Fld := ⟨R.TIM_FLAGS n, 3, 0⟩
def TIM_EVT_CAPT (n : Nat) : Fld := ⟨R.TIM_EVT n, 8, 5⟩
def TIM_EVT_MATCH (n : Nat) : Fld := ⟨R.TIM_EVT n, 4, 1⟩
def TIM_EVT_WRAP (n : Nat) : Fld := ⟨R.TIM_EVT n, 0, 0⟩
def TIM_EVT_EN_EN (n : Nat) : Fld := ⟨R.TIM_EVT_EN n, 8, 0⟩
def TIM_MAKEUP_WRAPS (n : Nat) : Fld := ⟨R.TIM_MAKEUP n, 31, 16⟩
def TIM_CCR_LO_VALUE (n c : Nat) : Fld := ⟨R.TIM_CCR_LO n c, 31, 0⟩
def TIM_CCR_HI_VALUE (n c : Nat) : Fld := ⟨R.TIM_CCR_HI n c, 3, 0⟩
def GPIO_DIR_OUT_EN : Fld := ⟨R.GPIO_DIR, 15, 0⟩
def GPIO_OUT_VALUE : Fld := ⟨R.GPIO_OUT, 15, 0⟩
def GPIO_SET_BITS : Fld := ⟨R.GPIO_SET, 15, 0⟩
def GPIO_CLR_BITS : Fld := ⟨R.GPIO_CLR, 15, 0⟩
def GPIO_OD_OPEN_DRAIN : Fld := ⟨R.GPIO_OD, 15, 0⟩
def GPIO_IN_LEVEL : Fld := ⟨R.GPIO_IN, 15, 0⟩
def GPIO_RISE_EN : Fld := ⟨R.GPIO_RISE, 15, 0⟩
def GPIO_FALL_EN : Fld := ⟨R.GPIO_FALL, 15, 0⟩
def GPIO_EVT_EDGE : Fld := ⟨R.GPIO_EVT, 15, 0⟩
def GPIO_WAKE_EN : Fld := ⟨R.GPIO_WAKE, 15, 0⟩
def COEX_CFG_PRI_CTRL : Fld := ⟨R.COEX_CFG, 20, 20⟩
def COEX_CFG_PRI_CLASS : Fld := ⟨R.COEX_CFG, 18, 16⟩
def COEX_CFG_ABORT_ON_LOSS : Fld := ⟨R.COEX_CFG, 9, 9⟩
def COEX_CFG_GROUPS : Fld := ⟨R.COEX_CFG, 3, 0⟩
def COEX_BLANK_CFG_EXT_US : Fld := ⟨R.COEX_BLANK_CFG, 15, 8⟩
def COEX_BLANK_CFG_EN : Fld := ⟨R.COEX_BLANK_CFG, 3, 0⟩
def COEX_COUNT_DENIED : Fld := ⟨R.COEX_COUNT, 31, 16⟩
def COEX_COUNT_LOST : Fld := ⟨R.COEX_COUNT, 15, 0⟩
def COEX_LEVELS_BLANK : Fld := ⟨R.COEX_LEVELS, 6, 3⟩
def COEX_LEVELS_GRANT : Fld := ⟨R.COEX_LEVELS, 2, 2⟩
def COEX_LEVELS_PRI : Fld := ⟨R.COEX_LEVELS, 1, 1⟩
def COEX_LEVELS_REQ : Fld := ⟨R.COEX_LEVELS, 0, 0⟩
def VAULT_GEN_USED : Fld := ⟨R.VAULT_GEN, 19, 16⟩
def VAULT_GEN_IN_FORCE : Fld := ⟨R.VAULT_GEN, 11, 8⟩
def VAULT_GEN_BAD : Fld := ⟨R.VAULT_GEN, 7, 0⟩
def VAULT_DRAFT_SEL_SLOT : Fld := ⟨R.VAULT_DRAFT_SEL, 4, 0⟩
def VAULT_DRAFT_CTRL_RELOAD : Fld := ⟨R.VAULT_DRAFT_CTRL, 0, 0⟩
def VAULT_RF_LIMIT_LIMIT_MW : Fld := ⟨R.VAULT_RF_LIMIT, 12, 0⟩
def VAULT_RF_LOAD_PEAK_MW : Fld := ⟨R.VAULT_RF_LOAD, 28, 16⟩
def VAULT_RF_LOAD_NOW_MW : Fld := ⟨R.VAULT_RF_LOAD, 12, 0⟩
def VAULT_REFUSE_COUNT : Fld := ⟨R.VAULT_REFUSE, 31, 16⟩
def VAULT_REFUSE_LAST_SLOT : Fld := ⟨R.VAULT_REFUSE, 15, 8⟩
def VAULT_REFUSE_LAST_CAUSE : Fld := ⟨R.VAULT_REFUSE, 3, 0⟩
def VAULT_HELD_BUDGET : Fld := ⟨R.VAULT_HELD, 31, 16⟩
def VAULT_HELD_CLAMPED : Fld := ⟨R.VAULT_HELD, 15, 0⟩
def VAULT_DRAFT_BYTES (n : Nat) : Fld := ⟨R.VAULT_DRAFT n, 31, 0⟩
def VAULT_FORCE_BYTES (n : Nat) : Fld := ⟨R.VAULT_FORCE n, 31, 0⟩
def UPD_STAT_EPOCH : Fld := ⟨R.UPD_STAT, 15, 8⟩
def UPD_STAT_PAUSE : Fld := ⟨R.UPD_STAT, 6, 6⟩
def UPD_STAT_SESSION : Fld := ⟨R.UPD_STAT, 5, 5⟩
def UPD_STAT_MOVING : Fld := ⟨R.UPD_STAT, 4, 4⟩
def UPD_STAT_VEHICLE : Fld := ⟨R.UPD_STAT, 3, 3⟩
def UPD_STAT_REQ_OWNER : Fld := ⟨R.UPD_STAT, 2, 2⟩
def UPD_STAT_RUN_SLOT : Fld := ⟨R.UPD_STAT, 0, 0⟩
def UPD_LAST_ACTION : Fld := ⟨R.UPD_LAST, 31, 28⟩
def UPD_LAST_CODE : Fld := ⟨R.UPD_LAST, 15, 8⟩
def UPD_LAST_SLOT : Fld := ⟨R.UPD_LAST, 0, 0⟩
def UPD_PROGRESS_RECEIVED : Fld := ⟨R.UPD_PROGRESS, 21, 0⟩
def UPD_MOTION_CFG_HOLD_S : Fld := ⟨R.UPD_MOTION_CFG, 7, 0⟩
def UPD_SLOT_INFO_STATE (n : Nat) : Fld := ⟨R.UPD_SLOT_INFO n, 31, 28⟩
def UPD_SLOT_INFO_EPOCH (n : Nat) : Fld := ⟨R.UPD_SLOT_INFO n, 23, 16⟩
def UPD_SLOT_INFO_HANDOVER (n : Nat) : Fld := ⟨R.UPD_SLOT_INFO n, 15, 8⟩
def UPD_SLOT_VER_VERSION (n : Nat) : Fld := ⟨R.UPD_SLOT_VER n, 31, 0⟩
def UPD_SLOT_SEQ_STAGE_SEQ (n : Nat) : Fld := ⟨R.UPD_SLOT_SEQ n, 31, 0⟩
def UPD_COUNT_STAGED : Fld := ⟨R.UPD_COUNT, 31, 16⟩
def UPD_COUNT_REFUSED : Fld := ⟨R.UPD_COUNT, 15, 0⟩
def UPD_SESSION_CFG_IDLE_S : Fld := ⟨R.UPD_SESSION_CFG, 7, 0⟩
def SVC_STAT_LAST_TYPE : Fld := ⟨R.SVC_STAT, 31, 24⟩
def SVC_STAT_LAST_STATUS : Fld := ⟨R.SVC_STAT, 23, 16⟩
def SVC_STAT_LAST_FSEQ : Fld := ⟨R.SVC_STAT, 15, 8⟩
def SVC_STAT_OVERRUN : Fld := ⟨R.SVC_STAT, 3, 3⟩
def SVC_STAT_FRAME_ERR : Fld := ⟨R.SVC_STAT, 2, 2⟩
def SVC_STAT_BUSY : Fld := ⟨R.SVC_STAT, 1, 1⟩
def SVC_STAT_RESP_READY : Fld := ⟨R.SVC_STAT, 0, 0⟩
def SVC_COUNT_REQUESTS : Fld := ⟨R.SVC_COUNT, 31, 16⟩
def SVC_COUNT_ERRORS : Fld := ⟨R.SVC_COUNT, 15, 0⟩
def SVC_CFG_CMD_EN : Fld := ⟨R.SVC_CFG, 0, 0⟩
def PAWN_CFG_MAX_RETRIES : Fld := ⟨R.PAWN_CFG, 31, 28⟩
def PAWN_CFG_WINDOW : Fld := ⟨R.PAWN_CFG, 27, 24⟩
def PAWN_CFG_STALL_S : Fld := ⟨R.PAWN_CFG, 23, 16⟩
def PAWN_CFG_RETRY_TEMPOS : Fld := ⟨R.PAWN_CFG, 15, 0⟩
def PAWN_BUDGET_BURST (n : Nat) : Fld := ⟨R.PAWN_BUDGET n, 31, 8⟩
def PAWN_BUDGET_RATE (n : Nat) : Fld := ⟨R.PAWN_BUDGET n, 7, 0⟩
def PAWN_LEVEL_LEVEL (n : Nat) : Fld := ⟨R.PAWN_LEVEL n, 31, 0⟩
def PAWN_ACTIVE_CHAINS : Fld := ⟨R.PAWN_ACTIVE, 6, 0⟩
def PAWN_COUNT_BLOCKS : Fld := ⟨R.PAWN_COUNT, 31, 16⟩
def PAWN_COUNT_RETRIES : Fld := ⟨R.PAWN_COUNT, 15, 0⟩
def PAWN_LAST_EVENT : Fld := ⟨R.PAWN_LAST, 31, 28⟩
def PAWN_LAST_IMAGE : Fld := ⟨R.PAWN_LAST, 27, 26⟩
def PAWN_LAST_CHAIN : Fld := ⟨R.PAWN_LAST, 23, 16⟩
def PAWN_LAST_CAUSE : Fld := ⟨R.PAWN_LAST, 15, 8⟩
def PAWN_IGNORED_COUNT : Fld := ⟨R.PAWN_IGNORED, 15, 0⟩
def PAWN_IMG_STAT_STATE (n : Nat) : Fld := ⟨R.PAWN_IMG_STAT n, 31, 28⟩
def PAWN_IMG_STAT_CAMPAIGN (n : Nat) : Fld := ⟨R.PAWN_IMG_STAT n, 15, 0⟩
def PAWN_IMG_BYTES_BYTES (n : Nat) : Fld := ⟨R.PAWN_IMG_BYTES n, 22, 0⟩
def PAWN_IMG_CHAINS_PLANNED (n : Nat) : Fld := ⟨R.PAWN_IMG_CHAINS n, 31, 16⟩
def PAWN_IMG_CHAINS_DONE (n : Nat) : Fld := ⟨R.PAWN_IMG_CHAINS n, 15, 0⟩
def PAWN_IMG_RESULT_FAILED (n : Nat) : Fld := ⟨R.PAWN_IMG_RESULT n, 31, 16⟩
def PAWN_IMG_RESULT_NODES_DONE (n : Nat) : Fld := ⟨R.PAWN_IMG_RESULT n, 15, 0⟩
def SEC_CFG_WARN_BLOCK : Fld := ⟨R.SEC_CFG, 31, 16⟩
def SEC_OWNER_OSEQ : Fld := ⟨R.SEC_OWNER, 31, 16⟩
def SEC_OWNER_LOCK : Fld := ⟨R.SEC_OWNER, 2, 2⟩
def SEC_OWNER_OWNER_KEY : Fld := ⟨R.SEC_OWNER, 1, 1⟩
def SEC_OWNER_DEVICE_KEY : Fld := ⟨R.SEC_OWNER, 0, 0⟩
def SEC_KEYS_LOADED : Fld := ⟨R.SEC_KEYS, 28, 16⟩
def SEC_KEYS_DAMAGED : Fld := ⟨R.SEC_KEYS, 12, 0⟩
def SEC_AUTH_CNT_MIC : Fld := ⟨R.SEC_AUTH_CNT, 31, 16⟩
def SEC_AUTH_CNT_POLICY : Fld := ⟨R.SEC_AUTH_CNT, 15, 0⟩
def SEC_REPLAY_CNT_REPLAY : Fld := ⟨R.SEC_REPLAY_CNT, 31, 16⟩
def SEC_REPLAY_CNT_DUPLICATE : Fld := ⟨R.SEC_REPLAY_CNT, 15, 0⟩
def SEC_LAST_FAIL_CAUSE : Fld := ⟨R.SEC_LAST_FAIL, 31, 28⟩
def SEC_LAST_FAIL_HANDLE : Fld := ⟨R.SEC_LAST_FAIL, 22, 0⟩
def SEC_FCNT_STAT_RESERVED : Fld := ⟨R.SEC_FCNT_STAT, 31, 16⟩
def SEC_FCNT_STAT_STALLS : Fld := ⟨R.SEC_FCNT_STAT, 15, 0⟩
def SEC_ENGINES_QUEUE_PEAK : Fld := ⟨R.SEC_ENGINES, 31, 16⟩
def SEC_ENGINES_BUSY : Fld := ⟨R.SEC_ENGINES, 3, 0⟩
def SEC_KEY_SEL_SLOT : Fld := ⟨R.SEC_KEY_SEL, 11, 0⟩
def SEC_KEY_INFO_0_STATE : Fld := ⟨R.SEC_KEY_INFO_0, 31, 28⟩
def SEC_KEY_INFO_0_TYPE : Fld := ⟨R.SEC_KEY_INFO_0, 27, 24⟩
def SEC_KEY_INFO_0_LEVELS : Fld := ⟨R.SEC_KEY_INFO_0, 23, 16⟩
def SEC_KEY_INFO_0_KEY_INDEX : Fld := ⟨R.SEC_KEY_INFO_0, 15, 8⟩
def SEC_KEY_INFO_0_PAN : Fld := ⟨R.SEC_KEY_INFO_0, 6, 0⟩
def SEC_KEY_INFO_1_NEXT_FCNT : Fld := ⟨R.SEC_KEY_INFO_1, 31, 0⟩
def SEC_KEY_INFO_2_BLOCK : Fld := ⟨R.SEC_KEY_INFO_2, 31, 16⟩
def SEC_KEY_INFO_2_PENDING : Fld := ⟨R.SEC_KEY_INFO_2, 0, 0⟩
def SEC_KEY_INFO_3_REFS : Fld := ⟨R.SEC_KEY_INFO_3, 22, 0⟩
def SEC_PAN_SEC_GROUP_EN (n : Nat) : Fld := ⟨R.SEC_PAN_SEC n, 31, 31⟩
def SEC_PAN_SEC_GROUP_KEY (n : Nat) : Fld := ⟨R.SEC_PAN_SEC n, 27, 16⟩
def SEC_PAN_SEC_BCAST_LEVEL (n : Nat) : Fld := ⟨R.SEC_PAN_SEC n, 14, 12⟩
def SEC_PAN_SEC_DATA_LEVEL (n : Nat) : Fld := ⟨R.SEC_PAN_SEC n, 10, 8⟩
def SEC_PAN_SEC_MIN_LEVEL (n : Nat) : Fld := ⟨R.SEC_PAN_SEC n, 6, 4⟩
def SEC_PAN_SEC_JOIN_SECURED (n : Nat) : Fld := ⟨R.SEC_PAN_SEC n, 0, 0⟩
def RFG_PORT_EN_RANGE_2H (g : Nat) : Fld := ⟨R.RFG_PORT_EN g, 17, 17⟩
def RFG_PORT_EN_RANGE_2L (g : Nat) : Fld := ⟨R.RFG_PORT_EN g, 16, 16⟩
def RFG_PORT_EN_EN (g : Nat) : Fld := ⟨R.RFG_PORT_EN g, 7, 0⟩
def RFG_CHAIN_STATE_STATE (g : Nat) : Fld := ⟨R.RFG_CHAIN_STATE g, 26, 0⟩
def RFG_CHAIN_MAP_CASTLING (g : Nat) : Fld := ⟨R.RFG_CHAIN_MAP g, 8, 8⟩
def RFG_CHAIN_MAP_SECTOR (g : Nat) : Fld := ⟨R.RFG_CHAIN_MAP g, 3, 0⟩
def RFG_NBR_BLANK_POST_US (g : Nat) : Fld := ⟨R.RFG_NBR_BLANK g, 31, 24⟩
def RFG_NBR_BLANK_PRE_US (g : Nat) : Fld := ⟨R.RFG_NBR_BLANK g, 23, 16⟩
def RFG_NBR_BLANK_OFFSETS (g : Nat) : Fld := ⟨R.RFG_NBR_BLANK g, 7, 1⟩
def RFG_SLOT_STAT_ON_AIR (g : Nat) : Fld := ⟨R.RFG_SLOT_STAT g, 23, 16⟩
def RFG_SLOT_STAT_WAIT_LOCK (g : Nat) : Fld := ⟨R.RFG_SLOT_STAT g, 15, 8⟩
def RFG_SLOT_STAT_OCCUPIED (g : Nat) : Fld := ⟨R.RFG_SLOT_STAT g, 7, 0⟩
def RFG_PORT_FAULT_PA (g : Nat) : Fld := ⟨R.RFG_PORT_FAULT g, 7, 0⟩
def RFG_PT_SEL_SECTOR (g : Nat) : Fld := ⟨R.RFG_PT_SEL g, 10, 8⟩
def RFG_PT_SEL_INDEX (g : Nat) : Fld := ⟨R.RFG_PT_SEL g, 5, 0⟩
def RFG_PT_DATA_BIAS (g : Nat) : Fld := ⟨R.RFG_PT_DATA g, 31, 24⟩
def RFG_PT_DATA_GAIN (g : Nat) : Fld := ⟨R.RFG_PT_DATA g, 23, 16⟩
def RFG_PT_DATA_VALID (g : Nat) : Fld := ⟨R.RFG_PT_DATA g, 15, 15⟩
def RFG_PT_DATA_OUT (g : Nat) : Fld := ⟨R.RFG_PT_DATA g, 9, 0⟩
def RFG_PT_VER_VERSION (g : Nat) : Fld := ⟨R.RFG_PT_VER g, 15, 0⟩
def RFG_LOCK_RX_LOCK (g : Nat) : Fld := ⟨R.RFG_LOCK g, 24, 16⟩
def RFG_LOCK_TX_LOCK (g : Nat) : Fld := ⟨R.RFG_LOCK g, 8, 0⟩
def RFG_TX_CNT_LOCK_WAITS (g : Nat) : Fld := ⟨R.RFG_TX_CNT g, 31, 16⟩
def RFG_TX_CNT_ABORTS (g : Nat) : Fld := ⟨R.RFG_TX_CNT g, 15, 0⟩
def CAL_CFG_TEMP_DELTA : Fld := ⟨R.CAL_CFG, 31, 24⟩
def CAL_CFG_GROUPS : Fld := ⟨R.CAL_CFG, 19, 16⟩
def CAL_CFG_SWAP_WAIT : Fld := ⟨R.CAL_CFG, 11, 0⟩
def CAL_ROUND_TEMPOS : Fld := ⟨R.CAL_ROUND, 23, 0⟩
def CAL_GSTAT_STATE (n : Nat) : Fld := ⟨R.CAL_GSTAT n, 31, 28⟩
def CAL_GSTAT_CHAIN (n : Nat) : Fld := ⟨R.CAL_GSTAT n, 27, 24⟩
def CAL_GSTAT_ITEM (n : Nat) : Fld := ⟨R.CAL_GSTAT n, 23, 20⟩
def CAL_GSTAT_STEPS_LEFT (n : Nat) : Fld := ⟨R.CAL_GSTAT n, 15, 8⟩
def CAL_FAULT_CHAIN (n : Nat) : Fld := ⟨R.CAL_FAULT n, 8, 0⟩
def CAL_COUNT_SWAPS : Fld := ⟨R.CAL_COUNT, 31, 16⟩
def CAL_COUNT_STRADDLE : Fld := ⟨R.CAL_COUNT, 15, 0⟩
def CAL_GAP_MAX_GAP3 : Fld := ⟨R.CAL_GAP_MAX, 31, 24⟩
def CAL_GAP_MAX_GAP2 : Fld := ⟨R.CAL_GAP_MAX, 23, 16⟩
def CAL_GAP_MAX_GAP1 : Fld := ⟨R.CAL_GAP_MAX, 15, 8⟩
def CAL_GAP_MAX_GAP0 : Fld := ⟨R.CAL_GAP_MAX, 7, 0⟩
def CAL_CHAIN_SINCE (n : Nat) : Fld := ⟨R.CAL_CHAIN n, 31, 16⟩
def CAL_CHAIN_TEMP (n : Nat) : Fld := ⟨R.CAL_CHAIN n, 15, 8⟩
def CAL_CHAIN_FAIL_ITEM (n : Nat) : Fld := ⟨R.CAL_CHAIN n, 7, 4⟩
def CAL_CHAIN_LAST_CODE (n : Nat) : Fld := ⟨R.CAL_CHAIN n, 3, 0⟩
def RXP_CFG_BLANK_ABANDON : Fld := ⟨R.RXP_CFG, 15, 8⟩
def RXP_CFG_KEEP_BAD_METER : Fld := ⟨R.RXP_CFG, 0, 0⟩
def RXP_POOL_PEAK : Fld := ⟨R.RXP_POOL, 27, 16⟩
def RXP_POOL_IN_USE : Fld := ⟨R.RXP_POOL, 11, 0⟩
def RXP_POOL_CFG_CAP (n : Nat) : Fld := ⟨R.RXP_POOL_CFG n, 27, 16⟩
def RXP_POOL_CFG_RESERVE (n : Nat) : Fld := ⟨R.RXP_POOL_CFG n, 9, 0⟩
def RXP_POOL_USE_PEAK (n : Nat) : Fld := ⟨R.RXP_POOL_USE n, 27, 16⟩
def RXP_POOL_USE_IN_USE (n : Nat) : Fld := ⟨R.RXP_POOL_USE n, 11, 0⟩
def RXP_EXHAUST_COUNT : Fld := ⟨R.RXP_EXHAUST, 31, 16⟩
def RXP_EXHAUST_LAST_PORT : Fld := ⟨R.RXP_EXHAUST, 4, 0⟩
def RXP_LSEL_GROUP : Fld := ⟨R.RXP_LSEL, 5, 4⟩
def RXP_LSEL_ENTRY : Fld := ⟨R.RXP_LSEL, 3, 0⟩
def RXP_LCTRL_PENDING : Fld := ⟨R.RXP_LCTRL, 16, 16⟩
def RXP_LCTRL_LOAD : Fld := ⟨R.RXP_LCTRL, 1, 1⟩
def RXP_LCTRL_COMMIT : Fld := ⟨R.RXP_LCTRL, 0, 0⟩
def RXP_LUSE_TOTAL : Fld := ⟨R.RXP_LUSE, 27, 16⟩
def RXP_LUSE_MAX_PORT : Fld := ⟨R.RXP_LUSE, 8, 0⟩
def RXP_OVERLOAD_COUNT : Fld := ⟨R.RXP_OVERLOAD, 31, 16⟩
def RXP_OVERLOAD_NO_RING : Fld := ⟨R.RXP_OVERLOAD, 15, 0⟩
def RXP_LDATA_WORD (n : Nat) : Fld := ⟨R.RXP_LDATA n, 31, 0⟩
def RXP_RXR_CFG_KINDS (n : Nat) : Fld := ⟨R.RXP_RXR_CFG n, 10, 8⟩
def RXP_RXR_CFG_SIZE (n : Nat) : Fld := ⟨R.RXP_RXR_CFG n, 6, 4⟩
def RXP_RXR_CFG_TRANSPORT (n : Nat) : Fld := ⟨R.RXP_RXR_CFG n, 1, 1⟩
def RXP_RXR_CFG_EN (n : Nat) : Fld := ⟨R.RXP_RXR_CFG n, 0, 0⟩
def RXP_RXR_BASE_LO_ADDR (n : Nat) : Fld := ⟨R.RXP_RXR_BASE_LO n, 31, 0⟩
def RXP_RXR_BASE_HI_ADDR (n : Nat) : Fld := ⟨R.RXP_RXR_BASE_HI n, 31, 0⟩
def RXP_RXR_PROD_COUNT (n : Nat) : Fld := ⟨R.RXP_RXR_PROD n, 15, 0⟩
def RXP_RXR_CONS_COUNT (n : Nat) : Fld := ⟨R.RXP_RXR_CONS n, 15, 0⟩
def RXP_RXR_STAT_DROPPED (n : Nat) : Fld := ⟨R.RXP_RXR_STAT n, 31, 16⟩
def RXP_RXR_STAT_FAULT (n : Nat) : Fld := ⟨R.RXP_RXR_STAT n, 15, 15⟩
def RXP_RXR_STAT_BACKLOG (n : Nat) : Fld := ⟨R.RXP_RXR_STAT n, 14, 0⟩
def RXP_RXR_IRQ_TIMEOUT_US (n : Nat) : Fld := ⟨R.RXP_RXR_IRQ n, 23, 8⟩
def RXP_RXR_IRQ_COUNT (n : Nat) : Fld := ⟨R.RXP_RXR_IRQ n, 7, 0⟩
def RXP_STAT_COUNT (n c : Nat) : Fld := ⟨R.RXP_STAT n c, 31, 0⟩
def TXP_PROF_SEL_GROUP : Fld := ⟨R.TXP_PROF_SEL, 9, 8⟩
def TXP_PROF_SEL_PHY : Fld := ⟨R.TXP_PROF_SEL, 7, 0⟩
def TXP_PROF_DATA_OBSERVE : Fld := ⟨R.TXP_PROF_DATA, 20, 20⟩
def TXP_PROF_DATA_CONSEC : Fld := ⟨R.TXP_PROF_DATA, 19, 16⟩
def TXP_PROF_DATA_RAMP_US : Fld := ⟨R.TXP_PROF_DATA, 12, 8⟩
def TXP_PROF_DATA_MASK : Fld := ⟨R.TXP_PROF_DATA, 7, 4⟩
def TXP_PROF_DATA_FILTER : Fld := ⟨R.TXP_PROF_DATA, 3, 0⟩
def TXP_SET_SEL_AUTO_INC : Fld := ⟨R.TXP_SET_SEL, 30, 30⟩
def TXP_SET_SEL_KIND : Fld := ⟨R.TXP_SET_SEL, 28, 28⟩
def TXP_SET_SEL_GROUP : Fld := ⟨R.TXP_SET_SEL, 25, 24⟩
def TXP_SET_SEL_SET : Fld := ⟨R.TXP_SET_SEL, 18, 16⟩
def TXP_SET_SEL_INDEX : Fld := ⟨R.TXP_SET_SEL, 5, 0⟩
def TXP_SET_DATA_WORD : Fld := ⟨R.TXP_SET_DATA, 31, 0⟩
def TXP_SET_CTRL_PENDING : Fld := ⟨R.TXP_SET_CTRL, 16, 16⟩
def TXP_SET_CTRL_LOAD : Fld := ⟨R.TXP_SET_CTRL, 1, 1⟩
def TXP_SET_CTRL_COMMIT : Fld := ⟨R.TXP_SET_CTRL, 0, 0⟩
def TXP_ABORT_EXCESS : Fld := ⟨R.TXP_ABORT, 31, 24⟩
def TXP_ABORT_SEGMENT : Fld := ⟨R.TXP_ABORT, 19, 16⟩
def TXP_ABORT_PORT : Fld := ⟨R.TXP_ABORT, 12, 8⟩
def TXP_ABORT_CAUSE : Fld := ⟨R.TXP_ABORT, 3, 0⟩
def TXP_COUNT_MASK_ABORTS : Fld := ⟨R.TXP_COUNT, 31, 16⟩
def TXP_COUNT_MASK_OBSERVED : Fld := ⟨R.TXP_COUNT, 15, 0⟩
def TXP_ONAIR_COUNT (n : Nat) : Fld := ⟨R.TXP_ONAIR n, 31, 0⟩
def MAC_LBT_UNIT_US (g : Nat) : Fld := ⟨R.MAC_LBT g, 31, 20⟩
def MAC_LBT_MIN_BE (g : Nat) : Fld := ⟨R.MAC_LBT g, 19, 16⟩
def MAC_LBT_MAX_BE (g : Nat) : Fld := ⟨R.MAC_LBT g, 15, 12⟩
def MAC_LBT_MAX_BACKOFFS (g : Nat) : Fld := ⟨R.MAC_LBT g, 11, 8⟩
def MAC_LBT_MAX_ROUNDS (g : Nat) : Fld := ⟨R.MAC_LBT g, 7, 4⟩
def MAC_LBT_SENSE_ALL (g : Nat) : Fld := ⟨R.MAC_LBT g, 0, 0⟩
def MAC_ACK_DELAY_US (g : Nat) : Fld := ⟨R.MAC_ACK g, 31, 20⟩
def MAC_ACK_WAIT_US (g : Nat) : Fld := ⟨R.MAC_ACK g, 19, 8⟩
def MAC_ACK_MAX_RETRIES (g : Nat) : Fld := ⟨R.MAC_ACK g, 2, 0⟩
def MAC_TIMING_U_MIN (g : Nat) : Fld := ⟨R.MAC_TIMING g, 31, 16⟩
def MAC_TIMING_SPAN_MAX (g : Nat) : Fld := ⟨R.MAC_TIMING g, 15, 0⟩
def MAC_ASSOC_RESP_US (g : Nat) : Fld := ⟨R.MAC_ASSOC g, 31, 16⟩
def MAC_DUTY_SEL_SLOT (g : Nat) : Fld := ⟨R.MAC_DUTY_SEL g, 4, 0⟩
def MAC_DUTY_USED_USED (g : Nat) : Fld := ⟨R.MAC_DUTY_USED g, 31, 0⟩
def MAC_DUTY_CFG_ACK_RESERVE (g : Nat) : Fld := ⟨R.MAC_DUTY_CFG g, 13, 0⟩
def MAC_COUNT_LBT_BUSY (g : Nat) : Fld := ⟨R.MAC_COUNT_LBT g, 31, 16⟩
def MAC_COUNT_LBT_FAIL (g : Nat) : Fld := ⟨R.MAC_COUNT_LBT g, 15, 0⟩
def MAC_COUNT_ACK_SENT (g : Nat) : Fld := ⟨R.MAC_COUNT_ACK g, 31, 16⟩
def MAC_COUNT_ACK_MISSED (g : Nat) : Fld := ⟨R.MAC_COUNT_ACK g, 15, 0⟩
def MAC_COUNT_MISC_DUP_ACKS (g : Nat) : Fld := ⟨R.MAC_COUNT_MISC g, 31, 16⟩
def MAC_COUNT_MISC_DUTY_HELD (g : Nat) : Fld := ⟨R.MAC_COUNT_MISC g, 15, 0⟩
def MAC_ASSOC_STAT_GRANTED (g : Nat) : Fld := ⟨R.MAC_ASSOC_STAT g, 31, 16⟩
def MAC_ASSOC_STAT_DENIED (g : Nat) : Fld := ⟨R.MAC_ASSOC_STAT g, 15, 0⟩
def MAC_ASSOC_LAST_HANDLE (g : Nat) : Fld := ⟨R.MAC_ASSOC_LAST g, 22, 0⟩
def MAC_ADRIFT_LAST_COUNT (g : Nat) : Fld := ⟨R.MAC_ADRIFT_LAST g, 31, 24⟩
def MAC_ADRIFT_LAST_HANDLE (g : Nat) : Fld := ⟨R.MAC_ADRIFT_LAST g, 22, 0⟩
def MAC_BEACON_STAT_SENT (g : Nat) : Fld := ⟨R.MAC_BEACON_STAT g, 31, 16⟩
def MAC_BEACON_STAT_SKIPPED (g : Nat) : Fld := ⟨R.MAC_BEACON_STAT g, 15, 0⟩
def MAC_PEER_CFG_HOLD_S (g : Nat) : Fld := ⟨R.MAC_PEER_CFG g, 31, 16⟩
def MAC_PEER_CFG_TOL (g : Nat) : Fld := ⟨R.MAC_PEER_CFG g, 15, 8⟩
def MAC_PEER_CFG_AUTO_ADOPT (g : Nat) : Fld := ⟨R.MAC_PEER_CFG g, 0, 0⟩
def MAC_TIMING_STAT_RESETS (g : Nat) : Fld := ⟨R.MAC_TIMING_STAT g, 31, 16⟩
def MAC_TIMING_STAT_PERIOD_MISMATCH (g : Nat) : Fld := ⟨R.MAC_TIMING_STAT g, 15, 0⟩
def MAC_PAN_SEL_PAN (g : Nat) : Fld := ⟨R.MAC_PAN_SEL g, 6, 0⟩
def MAC_PAN_DATA_WORD (g n : Nat) : Fld := ⟨R.MAC_PAN_DATA g n, 31, 0⟩
def MAC_PAN_CTRL_PENDING (g : Nat) : Fld := ⟨R.MAC_PAN_CTRL g, 16, 16⟩
def MAC_PAN_CTRL_LOAD (g : Nat) : Fld := ⟨R.MAC_PAN_CTRL g, 1, 1⟩
def MAC_PAN_CTRL_COMMIT (g : Nat) : Fld := ⟨R.MAC_PAN_CTRL g, 0, 0⟩
def MAC_PEER_SEL_FULL (g : Nat) : Fld := ⟨R.MAC_PEER_SEL g, 31, 16⟩
def MAC_PEER_SEL_PEER (g : Nat) : Fld := ⟨R.MAC_PEER_SEL g, 5, 0⟩
def MAC_PEER_DATA_WORD (g n : Nat) : Fld := ⟨R.MAC_PEER_DATA g n, 31, 0⟩
def SHEET_CFG_HOLD_S : Fld := ⟨R.SHEET_CFG, 26, 16⟩
def SHEET_CFG_SUPPRESS_K : Fld := ⟨R.SHEET_CFG, 11, 8⟩
def SHEET_CFG_RELAY_GROUPS : Fld := ⟨R.SHEET_CFG, 7, 4⟩
def SHEET_RELAY_FLOW_FLOW : Fld := ⟨R.SHEET_RELAY_FLOW, 13, 0⟩
def SHEET_RELAY_JITTER_MAX_US : Fld := ⟨R.SHEET_RELAY_JITTER, 15, 0⟩
def SHEET_COUNT_A_NEW : Fld := ⟨R.SHEET_COUNT_A, 31, 16⟩
def SHEET_COUNT_A_SEEN : Fld := ⟨R.SHEET_COUNT_A, 15, 0⟩
def SHEET_COUNT_B_RELAYED : Fld := ⟨R.SHEET_COUNT_B, 31, 16⟩
def SHEET_COUNT_B_CANCELLED : Fld := ⟨R.SHEET_COUNT_B, 15, 0⟩
def SHEET_COUNT_C_EVICT : Fld := ⟨R.SHEET_COUNT_C, 31, 16⟩
def SHEET_COUNT_C_BAD_HDR : Fld := ⟨R.SHEET_COUNT_C, 15, 0⟩
def DIR_COUNT_ENTRIES : Fld := ⟨R.DIR_COUNT, 22, 0⟩
def DIR_USE_PAGES : Fld := ⟨R.DIR_USE, 28, 16⟩
def DIR_USE_PREFIXES : Fld := ⟨R.DIR_USE, 8, 0⟩
def DIR_XDEL_DELETED : Fld := ⟨R.DIR_XDEL, 22, 0⟩
def DIR_XPROBE_PEAK : Fld := ⟨R.DIR_XPROBE, 7, 0⟩
def DIR_FULL_CAUSE : Fld := ⟨R.DIR_FULL, 31, 28⟩
def DIR_FULL_HANDLE : Fld := ⟨R.DIR_FULL, 22, 0⟩
def DIR_STAT_LOADED : Fld := ⟨R.DIR_STAT, 31, 16⟩
def DIR_STAT_FAILED : Fld := ⟨R.DIR_STAT, 15, 0⟩
def DIR_LOST_COUNT : Fld := ⟨R.DIR_LOST, 31, 24⟩
def DIR_LOST_HANDLE : Fld := ⟨R.DIR_LOST, 22, 0⟩
def DIR_BMAP_SEL_PAN : Fld := ⟨R.DIR_BMAP_SEL, 12, 6⟩
def DIR_BMAP_SEL_BLOCK : Fld := ⟨R.DIR_BMAP_SEL, 5, 0⟩
def DIR_BMAP_DATA_MAPPED : Fld := ⟨R.DIR_BMAP_DATA, 31, 31⟩
def DIR_BMAP_DATA_PAGE : Fld := ⟨R.DIR_BMAP_DATA, 23, 11⟩
def DIR_BMAP_DATA_USED : Fld := ⟨R.DIR_BMAP_DATA, 10, 0⟩
def DIR_XPFX_SEL_INDEX : Fld := ⟨R.DIR_XPFX_SEL, 7, 0⟩
def DIR_XPFX_DATA_PREFIX : Fld := ⟨R.DIR_XPFX_DATA, 31, 0⟩
def DIR_XPFX_CNT_IN_USE : Fld := ⟨R.DIR_XPFX_CNT, 31, 31⟩
def DIR_XPFX_CNT_COUNT : Fld := ⟨R.DIR_XPFX_CNT, 22, 0⟩
def DIR_TCLEAR_ACTIVE : Fld := ⟨R.DIR_TCLEAR, 31, 31⟩
def DIR_TCLEAR_NEXT : Fld := ⟨R.DIR_TCLEAR, 22, 0⟩
def TMEM_SCRUB_CFG_EN : Fld := ⟨R.TMEM_SCRUB_CFG, 31, 31⟩
def TMEM_SCRUB_CFG_PERIOD : Fld := ⟨R.TMEM_SCRUB_CFG, 24, 0⟩
def TMEM_SCRUB_STAT_STATUS : Fld := ⟨R.TMEM_SCRUB_STAT, 31, 30⟩
def TMEM_SCRUB_STAT_POS : Fld := ⟨R.TMEM_SCRUB_STAT, 23, 0⟩
def TMEM_SCRUB_PASSES_PASSES : Fld := ⟨R.TMEM_SCRUB_PASSES, 31, 16⟩
def TMEM_SCRUB_PASSES_UE_LAST : Fld := ⟨R.TMEM_SCRUB_PASSES, 15, 0⟩
def TMEM_CE_CNT_COUNT (n : Nat) : Fld := ⟨R.TMEM_CE_CNT n, 31, 0⟩
def TMEM_CE_LOG_READER : Fld := ⟨R.TMEM_CE_LOG, 31, 30⟩
def TMEM_CE_LOG_SYMBOLS : Fld := ⟨R.TMEM_CE_LOG, 29, 28⟩
def TMEM_CE_LOG_LINE : Fld := ⟨R.TMEM_CE_LOG, 23, 0⟩
def TMEM_UE_LOG_READER : Fld := ⟨R.TMEM_UE_LOG, 31, 30⟩
def TMEM_UE_LOG_REGION : Fld := ⟨R.TMEM_UE_LOG, 29, 27⟩
def TMEM_UE_LOG_LINE : Fld := ⟨R.TMEM_UE_LOG, 23, 0⟩
def TMEM_UE_CNT_COUNT : Fld := ⟨R.TMEM_UE_CNT, 31, 16⟩
def TMEM_UE_CNT_OPEN : Fld := ⟨R.TMEM_UE_CNT, 15, 0⟩
def TMEM_TELEM_CFG_EN : Fld := ⟨R.TMEM_TELEM_CFG, 31, 31⟩
def TMEM_TELEM_CFG_KINDS : Fld := ⟨R.TMEM_TELEM_CFG, 20, 16⟩
def TMEM_TELEM_CFG_INTERVAL : Fld := ⟨R.TMEM_TELEM_CFG, 15, 0⟩
def TMEM_TELEM_WR_LINE : Fld := ⟨R.TMEM_TELEM_WR, 19, 0⟩
def TMEM_TELEM_SEQ_SEQ : Fld := ⟨R.TMEM_TELEM_SEQ, 31, 0⟩
def TMEM_TELEM_STAT_SKIPPED : Fld := ⟨R.TMEM_TELEM_STAT, 31, 16⟩
def TMEM_TELEM_STAT_QUEUED : Fld := ⟨R.TMEM_TELEM_STAT, 8, 0⟩
def FWD_CFG_SWEEP_EN (g : Nat) : Fld := ⟨R.FWD_CFG g, 1, 1⟩
def FWD_CFG_LEARN_EN (g : Nat) : Fld := ⟨R.FWD_CFG g, 0, 0⟩
def FWD_SWEEP_TEMPOS (g : Nat) : Fld := ⟨R.FWD_SWEEP g, 23, 0⟩
def FWD_COUNT_ENTRIES (g : Nat) : Fld := ⟨R.FWD_COUNT g, 18, 0⟩
def FWD_STAT_A_LEARNED (g : Nat) : Fld := ⟨R.FWD_STAT_A g, 31, 16⟩
def FWD_STAT_A_AGED (g : Nat) : Fld := ⟨R.FWD_STAT_A g, 15, 0⟩
def FWD_STAT_B_MOVES (g : Nat) : Fld := ⟨R.FWD_STAT_B g, 31, 16⟩
def FWD_STAT_B_RELEARNED (g : Nat) : Fld := ⟨R.FWD_STAT_B g, 15, 0⟩
def FWD_STAT_C_FULL (g : Nat) : Fld := ⟨R.FWD_STAT_C g, 31, 16⟩
def FWD_STAT_C_NO_ORIGIN (g : Nat) : Fld := ⟨R.FWD_STAT_C g, 15, 0⟩
def FWD_MOVE_LAST_KEPT (g : Nat) : Fld := ⟨R.FWD_MOVE_LAST g, 31, 29⟩
def FWD_MOVE_LAST_OTHER (g : Nat) : Fld := ⟨R.FWD_MOVE_LAST g, 28, 26⟩
def FWD_MOVE_LAST_HANDLE (g : Nat) : Fld := ⟨R.FWD_MOVE_LAST g, 22, 0⟩
def FWD_SWEEP_POS_POS (g : Nat) : Fld := ⟨R.FWD_SWEEP_POS g, 17, 0⟩
def QSCH_CFG_WINDOW_LIMIT : Fld := ⟨R.QSCH_CFG, 27, 16⟩
def QSCH_CFG_STAGE_LIMIT : Fld := ⟨R.QSCH_CFG, 4, 0⟩
def QSCH_BUF_RES_DOWN_CELLS : Fld := ⟨R.QSCH_BUF_RES_DOWN, 17, 0⟩
def QSCH_BUF_RES_UP_CELLS : Fld := ⟨R.QSCH_BUF_RES_UP, 17, 0⟩
def QSCH_BUF_LOW_LEVEL : Fld := ⟨R.QSCH_BUF_LOW, 17, 0⟩
def QSCH_BUF_FREE_FREE : Fld := ⟨R.QSCH_BUF_FREE, 17, 0⟩
def QSCH_BUF_MIN_FREE : Fld := ⟨R.QSCH_BUF_MIN, 17, 0⟩
def QSCH_BUF_HELD_DOWN_CELLS : Fld := ⟨R.QSCH_BUF_HELD_DOWN, 17, 0⟩
def QSCH_BUF_HELD_UP_CELLS : Fld := ⟨R.QSCH_BUF_HELD_UP, 17, 0⟩
def QSCH_DROP_A_FLOW_FULL : Fld := ⟨R.QSCH_DROP_A, 31, 16⟩
def QSCH_DROP_A_BUF_FULL : Fld := ⟨R.QSCH_DROP_A, 15, 0⟩
def QSCH_DROP_B_EGRESS_FULL : Fld := ⟨R.QSCH_DROP_B, 31, 16⟩
def QSCH_DROP_B_HOST : Fld := ⟨R.QSCH_DROP_B, 15, 8⟩
def QSCH_DROP_B_DISCARD : Fld := ⟨R.QSCH_DROP_B, 7, 0⟩
def QSCH_POLICE_RED : Fld := ⟨R.QSCH_POLICE, 31, 16⟩
def QSCH_POLICE_YELLOW : Fld := ⟨R.QSCH_POLICE, 15, 0⟩
def QSCH_LAST_EVENT_KIND : Fld := ⟨R.QSCH_LAST_EVENT, 31, 28⟩
def QSCH_LAST_EVENT_INDEX : Fld := ⟨R.QSCH_LAST_EVENT, 13, 0⟩
def QSCH_PENDING_ENTRIES : Fld := ⟨R.QSCH_PENDING, 10, 0⟩
def QSCH_PORT_STAT_WAITING (n : Nat) : Fld := ⟨R.QSCH_PORT_STAT n, 27, 16⟩
def QSCH_PORT_STAT_SELECTED (n : Nat) : Fld := ⟨R.QSCH_PORT_STAT n, 15, 8⟩
def QSCH_PORT_STAT_STAGED (n : Nat) : Fld := ⟨R.QSCH_PORT_STAT n, 5, 0⟩
def QFLOW_SEL_FLOW : Fld := ⟨R.QFLOW_SEL, 13, 0⟩
def QFLOW_CFG_SPREAD : Fld := ⟨R.QFLOW_CFG, 31, 31⟩
def QFLOW_CFG_MODE : Fld := ⟨R.QFLOW_CFG, 30, 29⟩
def QFLOW_CFG_CLASS : Fld := ⟨R.QFLOW_CFG, 26, 24⟩
def QFLOW_CFG_PORT : Fld := ⟨R.QFLOW_CFG, 20, 16⟩
def QFLOW_CFG_WEIGHT : Fld := ⟨R.QFLOW_CFG, 15, 0⟩
def QFLOW_SHAPER_DEBT_FORGIVE : Fld := ⟨R.QFLOW_SHAPER, 31, 31⟩
def QFLOW_SHAPER_CIR : Fld := ⟨R.QFLOW_SHAPER, 19, 0⟩
def QFLOW_SHAPER_P_DEBT_FORGIVE : Fld := ⟨R.QFLOW_SHAPER_P, 31, 31⟩
def QFLOW_SHAPER_P_PIR : Fld := ⟨R.QFLOW_SHAPER_P, 19, 0⟩
def QFLOW_BURST_CBS : Fld := ⟨R.QFLOW_BURST, 22, 0⟩
def QFLOW_BURST_P_PBS : Fld := ⟨R.QFLOW_BURST_P, 22, 0⟩
def QFLOW_LIMIT_ALARM : Fld := ⟨R.QFLOW_LIMIT, 31, 16⟩
def QFLOW_LIMIT_LIMIT : Fld := ⟨R.QFLOW_LIMIT, 15, 0⟩
def QFLOW_STATUS_DEPTH : Fld := ⟨R.QFLOW_STATUS, 31, 16⟩
def QFLOW_STATUS_HWM : Fld := ⟨R.QFLOW_STATUS, 15, 0⟩
def QFLOW_C_LEVEL_LO_LEVEL : Fld := ⟨R.QFLOW_C_LEVEL_LO, 31, 0⟩
def QFLOW_C_LEVEL_HI_LEVEL : Fld := ⟨R.QFLOW_C_LEVEL_HI, 3, 0⟩
def QFLOW_P_LEVEL_LO_LEVEL : Fld := ⟨R.QFLOW_P_LEVEL_LO, 31, 0⟩
def QFLOW_P_LEVEL_HI_LEVEL : Fld := ⟨R.QFLOW_P_LEVEL_HI, 3, 0⟩
def QFLOW_TAG_LO_TAG : Fld := ⟨R.QFLOW_TAG_LO, 31, 0⟩
def QFLOW_TAG_HI_TAG : Fld := ⟨R.QFLOW_TAG_HI, 3, 0⟩
def QFLOW_COUNT_SENT : Fld := ⟨R.QFLOW_COUNT, 31, 16⟩
def QFLOW_COUNT_DROPPED : Fld := ⟨R.QFLOW_COUNT, 15, 0⟩
def QPCLS_SEL_PCLASS : Fld := ⟨R.QPCLS_SEL, 7, 0⟩
def QPCLS_CFG_SHAPE_EN : Fld := ⟨R.QPCLS_CFG, 31, 31⟩
def QPCLS_CFG_HI : Fld := ⟨R.QPCLS_CFG, 22, 0⟩
def QPCLS_SHAPER_DEBT_FORGIVE : Fld := ⟨R.QPCLS_SHAPER, 31, 31⟩
def QPCLS_SHAPER_IDLE : Fld := ⟨R.QPCLS_SHAPER, 19, 0⟩
def QPCLS_ALARM_DELAY : Fld := ⟨R.QPCLS_ALARM, 31, 16⟩
def QPCLS_ALARM_DEPTH : Fld := ⟨R.QPCLS_ALARM, 15, 0⟩
def QPCLS_SAMPLE_DELAY : Fld := ⟨R.QPCLS_SAMPLE, 31, 16⟩
def QPCLS_SAMPLE_DEPTH : Fld := ⟨R.QPCLS_SAMPLE, 15, 0⟩
def QPCLS_HWM_DELAY : Fld := ⟨R.QPCLS_HWM, 31, 16⟩
def QPCLS_HWM_DEPTH : Fld := ⟨R.QPCLS_HWM, 15, 0⟩
def QPCLS_CREDIT_LO_CREDIT : Fld := ⟨R.QPCLS_CREDIT_LO, 31, 0⟩
def QPCLS_CREDIT_HI_CREDIT : Fld := ⟨R.QPCLS_CREDIT_HI, 3, 0⟩
def QPCLS_VTIME_LO_V : Fld := ⟨R.QPCLS_VTIME_LO, 31, 0⟩
def QPCLS_VTIME_HI_V : Fld := ⟨R.QPCLS_VTIME_HI, 3, 0⟩
def QPCLS_COUNT_SELECTED : Fld := ⟨R.QPCLS_COUNT, 31, 0⟩
def QEGR_SEL_PORT : Fld := ⟨R.QEGR_SEL, 6, 6⟩
def QEGR_SEL_QUEUE : Fld := ⟨R.QEGR_SEL, 5, 0⟩
def QEGR_CFG_PRIO : Fld := ⟨R.QEGR_CFG, 31, 31⟩
def QEGR_CFG_WEIGHT : Fld := ⟨R.QEGR_CFG, 15, 0⟩
def QEGR_SHAPER_DEBT_FORGIVE : Fld := ⟨R.QEGR_SHAPER, 31, 31⟩
def QEGR_SHAPER_RATE : Fld := ⟨R.QEGR_SHAPER, 23, 0⟩
def QEGR_BURST_BYTES : Fld := ⟨R.QEGR_BURST, 23, 0⟩
def QEGR_LIMIT_CELLS : Fld := ⟨R.QEGR_LIMIT, 17, 0⟩
def QEGR_STATUS_CELLS : Fld := ⟨R.QEGR_STATUS, 17, 0⟩
def QEGR_HWM_PEAK : Fld := ⟨R.QEGR_HWM, 17, 0⟩
def QEGR_LEVEL_LO_LEVEL : Fld := ⟨R.QEGR_LEVEL_LO, 31, 0⟩
def QEGR_LEVEL_HI_LEVEL : Fld := ⟨R.QEGR_LEVEL_HI, 3, 0⟩
def QEGR_TAG_LO_TAG : Fld := ⟨R.QEGR_TAG_LO, 31, 0⟩
def QEGR_TAG_HI_TAG : Fld := ⟨R.QEGR_TAG_HI, 3, 0⟩
def QEGR_VTIME_LO_V : Fld := ⟨R.QEGR_VTIME_LO, 31, 0⟩
def QEGR_VTIME_HI_V : Fld := ⟨R.QEGR_VTIME_HI, 3, 0⟩
def QEGR_COUNT_SENT : Fld := ⟨R.QEGR_COUNT, 31, 16⟩
def QEGR_COUNT_DROPPED : Fld := ⟨R.QEGR_COUNT, 15, 0⟩
def QMAP_CTRL_BRZ_QUEUE : Fld := ⟨R.QMAP_CTRL, 29, 24⟩
def QMAP_CTRL_CTRL_FLOW : Fld := ⟨R.QMAP_CTRL, 13, 0⟩
def QMAP_NON_IP_TARGET : Fld := ⟨R.QMAP_NON_IP, 9, 8⟩
def QMAP_NON_IP_QUEUE : Fld := ⟨R.QMAP_NON_IP, 5, 0⟩
def QMAP_DSCP_FLOW_FLOW (n : Nat) : Fld := ⟨R.QMAP_DSCP_FLOW n, 13, 0⟩
def QMAP_UP_MAP_TARGET (n : Nat) : Fld := ⟨R.QMAP_UP_MAP n, 9, 8⟩
def QMAP_UP_MAP_QUEUE (n : Nat) : Fld := ⟨R.QMAP_UP_MAP n, 5, 0⟩
def BHL_CFG_SPEED (g : Nat) : Fld := ⟨R.BHL_CFG g, 29, 28⟩
def BHL_CFG_TAG (g : Nat) : Fld := ⟨R.BHL_CFG g, 12, 12⟩
def BHL_CFG_VID (g : Nat) : Fld := ⟨R.BHL_CFG g, 11, 0⟩
def BHL_LINK_MODULE (g : Nat) : Fld := ⟨R.BHL_LINK g, 3, 3⟩
def BHL_LINK_VSFP (g : Nat) : Fld := ⟨R.BHL_LINK g, 2, 2⟩
def BHL_LINK_FEC_LOCK (g : Nat) : Fld := ⟨R.BHL_LINK g, 1, 1⟩
def BHL_LINK_UP (g : Nat) : Fld := ⟨R.BHL_LINK g, 0, 0⟩
def BHL_GW_MAC_LO_MAC (g : Nat) : Fld := ⟨R.BHL_GW_MAC_LO g, 31, 0⟩
def BHL_GW_MAC_HI_MAC (g : Nat) : Fld := ⟨R.BHL_GW_MAC_HI g, 15, 0⟩
def BHL_ADDR_BITS (g n : Nat) : Fld := ⟨R.BHL_ADDR g n, 31, 0⟩
def BHL_BRZ_CFG_TIMEOUT_S (g : Nat) : Fld := ⟨R.BHL_BRZ_CFG g, 31, 24⟩
def BHL_BRZ_CFG_PACE (g : Nat) : Fld := ⟨R.BHL_BRZ_CFG g, 7, 0⟩
def BHL_FRAMES_RX (g : Nat) : Fld := ⟨R.BHL_FRAMES g, 31, 16⟩
def BHL_FRAMES_TX (g : Nat) : Fld := ⟨R.BHL_FRAMES g, 15, 0⟩
def BHL_DROP_BAD (g : Nat) : Fld := ⟨R.BHL_DROP g, 31, 16⟩
def BHL_DROP_BRZ (g : Nat) : Fld := ⟨R.BHL_DROP g, 15, 0⟩
def BHL_BRZ_LAST_CAUSE (g : Nat) : Fld := ⟨R.BHL_BRZ_LAST g, 3, 0⟩
def BHL_SESS_OPEN (g n : Nat) : Fld := ⟨R.BHL_SESS g n, 31, 31⟩
def BHL_SESS_RX_SUB (g n : Nat) : Fld := ⟨R.BHL_SESS g n, 19, 16⟩
def BHL_SESS_TM_SUB (g n : Nat) : Fld := ⟨R.BHL_SESS g n, 9, 9⟩
def BHL_SESS_EV_SUB (g n : Nat) : Fld := ⟨R.BHL_SESS g n, 8, 8⟩
def BHL_SESS_IDLE_S (g n : Nat) : Fld := ⟨R.BHL_SESS g n, 7, 0⟩
def BHL_SEQ_DGSEQ (g n : Nat) : Fld := ⟨R.BHL_SEQ g n, 31, 0⟩
def PTP_CFG_DOMAIN : Fld := ⟨R.PTP_CFG, 31, 24⟩
def PTP_CFG_PORT : Fld := ⟨R.PTP_CFG, 12, 12⟩
def PTP_CFG_TRANSPORT : Fld := ⟨R.PTP_CFG, 9, 8⟩
def PTP_CFG_PPS_FREE : Fld := ⟨R.PTP_CFG, 1, 1⟩
def PTP_CFG_PPS_OUT_EN : Fld := ⟨R.PTP_CFG, 0, 0⟩
def PTP_SERVO_LOCKED : Fld := ⟨R.PTP_SERVO, 1, 1⟩
def PTP_SERVO_SYNC_SEEN : Fld := ⟨R.PTP_SERVO, 0, 0⟩
def PTP_OFFSET_NS : Fld := ⟨R.PTP_OFFSET, 31, 0⟩
def PTP_GM_LO_ID : Fld := ⟨R.PTP_GM_LO, 31, 0⟩
def PTP_GM_HI_ID : Fld := ⟨R.PTP_GM_HI, 31, 0⟩
def PTP_PPS_IN_LO_SYSTIME : Fld := ⟨R.PTP_PPS_IN_LO, 31, 0⟩
def PTP_PPS_IN_HI_SYSTIME : Fld := ⟨R.PTP_PPS_IN_HI, 31, 0⟩
def PTP_COUNT_SYNC : Fld := ⟨R.PTP_COUNT, 31, 16⟩
def PTP_COUNT_STEPS : Fld := ⟨R.PTP_COUNT, 15, 0⟩
def LOWPAN_CFG_REASM_S : Fld := ⟨R.LOWPAN_CFG, 31, 24⟩
def LOWPAN_CFG_REASM_MAX : Fld := ⟨R.LOWPAN_CFG, 10, 0⟩
def LOWPAN_PFX_SEL_PAN : Fld := ⟨R.LOWPAN_PFX_SEL, 6, 0⟩
def LOWPAN_PFX_LO_PREFIX : Fld := ⟨R.LOWPAN_PFX_LO, 31, 0⟩
def LOWPAN_PFX_HI_PREFIX : Fld := ⟨R.LOWPAN_PFX_HI, 31, 0⟩
def LOWPAN_REASM_PEAK : Fld := ⟨R.LOWPAN_REASM, 26, 16⟩
def LOWPAN_REASM_ACTIVE : Fld := ⟨R.LOWPAN_REASM, 10, 0⟩
def LOWPAN_ERR_COUNT : Fld := ⟨R.LOWPAN_ERR, 31, 16⟩
def LOWPAN_ERR_LAST_CAUSE : Fld := ⟨R.LOWPAN_ERR, 3, 0⟩
def LOWPAN_COUNT_DOWN : Fld := ⟨R.LOWPAN_COUNT, 31, 16⟩
def LOWPAN_COUNT_UP : Fld := ⟨R.LOWPAN_COUNT, 15, 0⟩
def PCIE_LINK_UP : Fld := ⟨R.PCIE_LINK, 8, 8⟩
def PCIE_LINK_WIDTH : Fld := ⟨R.PCIE_LINK, 7, 4⟩
def PCIE_LINK_SPEED : Fld := ⟨R.PCIE_LINK, 3, 0⟩
def PCIE_SUBSYS_SID : Fld := ⟨R.PCIE_SUBSYS, 31, 16⟩
def PCIE_SUBSYS_SVID : Fld := ⟨R.PCIE_SUBSYS, 15, 0⟩
def PCIE_ERR_CORR : Fld := ⟨R.PCIE_ERR, 31, 16⟩
def PCIE_ERR_UNCORR : Fld := ⟨R.PCIE_ERR, 15, 0⟩
def PCIE_FLR_COUNT : Fld := ⟨R.PCIE_FLR, 15, 0⟩

end F

/-- Registers of the SYS page (or of each of its pages), after the common header. -/
def sysRegs : List RegDesc := [
  { name := "TEMPO_LO", off := 0x40, fields := [⟨"COUNT_LO", 31, 0, .ro, 0, 0, 4294967295, false⟩] },
  { name := "TEMPO_HI", off := 0x44, fields := [⟨"COUNT_HI", 3, 0, .ro, 0, 0, 15, false⟩] },
  { name := "OVERRUN", off := 0x48, fields := [⟨"COUNT", 31, 16, .rc, 0, 0, 65535, false⟩, ⟨"LAST_DEFERRED", 11, 8, .ro, 0xf, 0, 15, false⟩, ⟨"HW_LATE", 1, 1, .ro, 0, 0, 1, false⟩, ⟨"LANE_LATE", 0, 0, .ro, 0, 0, 1, false⟩] },
  { name := "TEMPO_WRAP", off := 0x4c, fields := [⟨"WRAPS", 11, 0, .ro, 0, 0, 4095, false⟩] },
  { name := "BG_STAT", off := 0x50, stride1 := 0x4, count1 := 6, fields := [⟨"DEFER_TOTAL", 31, 16, .rc, 0, 0, 65535, false⟩, ⟨"GUARANTEED", 8, 8, .ro, 0, 0, 1, false⟩, ⟨"RUN", 4, 0, .ro, 0, 0, 31, false⟩] },
  { name := "OPENING", off := 0x80, fields := [⟨"ACTIVE", 31, 31, .ro, 0, 0, 1, false⟩, ⟨"REMAIN", 27, 16, .ro, 0, 0, 4095, false⟩, ⟨"HOLD_ASSOC", 8, 8, .rw, 0, 0, 1, true⟩, ⟨"ADMIT", 7, 0, .rw, 8, 0, 255, true⟩] },
  { name := "OPEN_STAT", off := 0x84, fields := [⟨"REFUSED", 31, 16, .rc, 0, 0, 65535, false⟩, ⟨"ADMITTED", 15, 0, .rc, 0, 0, 65535, false⟩] },
  { name := "STATUS_PINS", off := 0x88, fields := [⟨"VALUE", 7, 4, .rw, 0, 0, 15, false⟩, ⟨"MODE", 0, 0, .rw, 0, 0, 1, false⟩] },
  { name := "ID", off := 0x90, fields := [⟨"PART", 31, 16, .ro, 0x6032, 0, 65535, false⟩, ⟨"REVISION", 15, 8, .ro, 0xb0, 0, 255, false⟩, ⟨"GRADE", 1, 0, .ro, 0, 0, 3, false⟩] },
  { name := "BR_ID_LO", off := 0x94, fields := [⟨"ID", 31, 0, .ro, 0, 0, 4294967295, false⟩] },
  { name := "BR_ID_HI", off := 0x98, fields := [⟨"ID", 31, 0, .ro, 0, 0, 4294967295, false⟩] } ]

/-- Registers of the PWR page (or of each of its pages), after the common header. -/
def pwrRegs : List RegDesc := [
  { name := "MODE", off := 0x40, fields := [⟨"WAKE_TO", 9, 8, .rw, 0, 0, 1, false⟩, ⟨"CURRENT", 5, 4, .ro, 0, 0, 3, false⟩, ⟨"TARGET", 1, 0, .rw, 0, 0, 2, false⟩] },
  { name := "WAKE_EN", off := 0x44, fields := [⟨"SVC", 4, 4, .rw, 1, 0, 1, false⟩, ⟨"MOTION", 3, 3, .rw, 0, 0, 1, false⟩, ⟨"CAPT", 2, 2, .rw, 0, 0, 1, false⟩, ⟨"GPIO", 1, 1, .rw, 0, 0, 1, false⟩, ⟨"TIMER", 0, 0, .rw, 1, 0, 1, false⟩] },
  { name := "WAKE_CAUSE", off := 0x48, fields := [⟨"SVC", 4, 4, .rc, 0, 0, 1, false⟩, ⟨"MOTION", 3, 3, .rc, 0, 0, 1, false⟩, ⟨"CAPT", 2, 2, .rc, 0, 0, 1, false⟩, ⟨"GPIO", 1, 1, .rc, 0, 0, 1, false⟩, ⟨"TIMER", 0, 0, .rc, 0, 0, 1, false⟩] },
  { name := "WAKE_TIMER_LO", off := 0x4c, fields := [⟨"TICKS", 31, 0, .rw, 0, 0, 4294967295, false⟩] },
  { name := "WAKE_TIMER_HI", off := 0x50, fields := [⟨"TICKS", 3, 0, .rw, 0, 0, 15, false⟩] },
  { name := "SUPPLY", off := 0x54, fields := [⟨"VIN", 31, 16, .ro, 0, 0, 65535, false⟩, ⟨"VBAK", 9, 0, .ro, 0, 0, 1023, false⟩] },
  { name := "FLAGS", off := 0x58, fields := [⟨"THERM_WARN", 7, 7, .ro, 0, 0, 1, false⟩, ⟨"VIN_HIGH", 6, 6, .ro, 0, 0, 1, false⟩, ⟨"BANK_WEAK", 5, 5, .ro, 0, 0, 1, false⟩, ⟨"BANK_READY", 4, 4, .ro, 0, 0, 1, false⟩, ⟨"AON_LOST", 3, 3, .ro, 0, 0, 1, false⟩, ⟨"VBAK_ABSENT", 2, 2, .ro, 0, 0, 1, false⟩, ⟨"VBAK_LOW", 1, 1, .ro, 0, 0, 1, false⟩, ⟨"VIN_LOW", 0, 0, .ro, 0, 0, 1, false⟩] },
  { name := "BANK", off := 0x5c, fields := [⟨"USABLE", 31, 16, .ro, 0, 0, 65535, false⟩, ⟨"VOLT", 9, 0, .ro, 0, 0, 1023, false⟩] },
  { name := "RESIGN", off := 0x60, fields := [⟨"GO", 0, 0, .wo, 0, 0, 1, false⟩] },
  { name := "LAST_REC", off := 0x64, fields := [⟨"VALID", 9, 9, .ro, 0, 0, 1, false⟩, ⟨"SLOT", 8, 8, .ro, 0, 0, 1, false⟩, ⟨"REASON", 7, 0, .ro, 0, 0, 255, false⟩] },
  { name := "REC_SEQ", off := 0x68, fields := [⟨"SEQ", 31, 0, .ro, 0, 0, 4294967295, false⟩] },
  { name := "AON_CNT_LO", off := 0x6c, fields := [⟨"COUNT", 31, 0, .ro, 0, 0, 4294967295, false⟩] },
  { name := "AON_CNT_HI", off := 0x70, fields := [⟨"COUNT", 15, 0, .ro, 0, 0, 65535, false⟩] },
  { name := "AON_AT_SAVE_LO", off := 0x74, fields := [⟨"COUNT", 31, 0, .ro, 0, 0, 4294967295, false⟩] },
  { name := "AON_AT_SAVE_HI", off := 0x78, fields := [⟨"COUNT", 15, 0, .ro, 0, 0, 65535, false⟩] },
  { name := "THERM", off := 0x7c, fields := [⟨"WARN", 15, 8, .rw, 0x6e, 60, 120, false⟩, ⟨"TJ", 7, 0, .ro, 0, 0, 255, false⟩] } ]

/-- Registers of the CLK page (or of each of its pages), after the common header. -/
def clkRegs : List RegDesc := [
  { name := "STAT", off := 0x40, fields := [⟨"CMP_PTP", 5, 5, .ro, 0, 0, 1, false⟩, ⟨"TX_HELD", 4, 4, .ro, 0, 0, 1, false⟩, ⟨"SLOW_FAULT", 3, 3, .ro, 0, 0, 1, false⟩, ⟨"REF_DEV", 2, 2, .ro, 0, 0, 1, false⟩, ⟨"PLL_LOCK", 1, 1, .ro, 0, 0, 1, false⟩, ⟨"REF_OK", 0, 0, .ro, 0, 0, 1, false⟩] },
  { name := "REF_DEV", off := 0x44, fields := [⟨"PPB", 31, 0, .ro, 0, 0, 4294967295, false⟩] },
  { name := "FAULT_CNT", off := 0x48, fields := [⟨"DEV", 31, 16, .rc, 0, 0, 65535, false⟩, ⟨"SLOW", 15, 0, .rc, 0, 0, 65535, false⟩] },
  { name := "DEV_LIMIT", off := 0x4c, fields := [⟨"PPM", 7, 0, .rw, 0x32, 5, 200, false⟩] },
  { name := "PLL_LOCK_T", off := 0x50, fields := [⟨"CYCLES", 16, 0, .ro, 0, 0, 131071, false⟩] } ]

/-- Registers of the BIST page (or of each of its pages), after the common header. -/
def bistRegs : List RegDesc := [
  { name := "RESULT", off := 0x40, fields := [⟨"SLICES", 31, 22, .ro, 0, 0, 1023, false⟩, ⟨"FAILED", 15, 8, .ro, 0, 0, 255, false⟩, ⟨"FIRST_ITEM", 7, 4, .ro, 0xf, 0, 15, false⟩, ⟨"OUTCOME", 3, 0, .ro, 0, 0, 15, false⟩] },
  { name := "FAIL_LOC", off := 0x44, fields := [⟨"CODE", 31, 24, .ro, 0, 0, 255, false⟩, ⟨"LOC", 13, 0, .ro, 0, 0, 16383, false⟩] },
  { name := "ITEM", off := 0x48, stride1 := 0x4, count1 := 8, fields := [⟨"SLICES", 25, 16, .ro, 0, 0, 1023, false⟩, ⟨"RETRIED", 8, 8, .ro, 0, 0, 1, false⟩, ⟨"CODE", 7, 0, .ro, 0xff, 0, 255, false⟩] },
  { name := "WAIVE", off := 0x68, fields := [⟨"PCIE", 2, 2, .lk, 0, 0, 1, true⟩, ⟨"SFI", 1, 1, .lk, 0, 0, 1, true⟩, ⟨"LOGIC", 0, 0, .lk, 0, 0, 1, true⟩] },
  { name := "TEST", off := 0x6c, fields := [⟨"ACCESS", 7, 7, .ro, 0, 0, 1, false⟩, ⟨"ZEROISED", 6, 6, .ro, 0, 0, 1, false⟩, ⟨"TEST_EN_SEEN", 5, 5, .ro, 0, 0, 1, false⟩, ⟨"CONFIRM", 1, 1, .wo, 0, 0, 1, false⟩, ⟨"ARM", 0, 0, .wo, 0, 0, 1, false⟩] },
  { name := "RUNTIME", off := 0x70, fields := [⟨"PASSES", 31, 16, .rc, 0, 0, 65535, false⟩, ⟨"LAST_CODE", 15, 8, .ro, 0, 0, 255, false⟩, ⟨"LAST_ITEM", 7, 4, .ro, 0xf, 0, 15, false⟩, ⟨"EN", 0, 0, .rw, 1, 0, 1, false⟩] },
  { name := "RESET_CAUSE", off := 0x74, fields := [⟨"PWRUP_T", 31, 16, .ro, 0, 0, 65535, false⟩, ⟨"CAUSE", 2, 0, .ro, 0, 0, 7, false⟩] } ]

/-- Registers of the LANE page (or of each of its pages), after the common header. -/
def laneRegs : List RegDesc := [
  { name := "ROLES", off := 0x40, fields := [⟨"MODE", 17, 16, .ro, 0, 0, 3, false⟩, ⟨"D", 15, 12, .ro, 1, 0, 15, false⟩, ⟨"C", 11, 8, .ro, 0, 0, 15, false⟩, ⟨"B", 7, 4, .ro, 0, 0, 15, false⟩, ⟨"A", 3, 0, .ro, 0, 0, 15, false⟩] },
  { name := "CLAIM", off := 0x44, stride1 := 0x4, count1 := 4, fields := [⟨"TRUST", 31, 28, .ro, 0xf, 0, 15, false⟩, ⟨"AGE", 27, 4, .ro, 0, 0, 16777215, false⟩, ⟨"RANK", 1, 0, .ro, 3, 0, 3, false⟩] },
  { name := "CFG", off := 0x54, fields := [⟨"STRIKE_LIMIT", 7, 4, .rw, 3, 1, 15, false⟩, ⟨"SIMPLEX_IDLE", 1, 1, .rw, 0, 0, 1, false⟩, ⟨"AUTO_ADMIT", 0, 0, .rw, 1, 0, 1, false⟩] },
  { name := "ADMIT", off := 0x58, fields := [⟨"REQ", 0, 0, .wo, 0, 0, 1, false⟩] },
  { name := "DRY_CTRL", off := 0x5c, fields := [⟨"START", 31, 31, .wo, 0, 0, 1, false⟩, ⟨"ABORT", 30, 30, .wo, 0, 0, 1, false⟩, ⟨"LANE", 25, 24, .rw, 3, 0, 3, false⟩, ⟨"TEMPOS", 23, 0, .rw, 0x3a980, 1, 16777215, false⟩] },
  { name := "DRY_RESULT", off := 0x60, fields := [⟨"MISMATCH", 31, 16, .ro, 0, 0, 65535, false⟩, ⟨"FIRST_STAGE", 15, 12, .ro, 0xf, 0, 15, false⟩, ⟨"LANE", 9, 8, .ro, 0, 0, 3, false⟩, ⟨"STATE", 1, 0, .ro, 0, 0, 3, false⟩] },
  { name := "DRY_LEFT", off := 0x64, fields := [⟨"TEMPOS", 23, 0, .ro, 0, 0, 16777215, false⟩] },
  { name := "DISAGREE", off := 0x68, fields := [⟨"COUNT", 31, 16, .rc, 0, 0, 65535, false⟩, ⟨"LAST_STAGE", 15, 12, .ro, 0xf, 0, 15, false⟩, ⟨"LAST_KIND", 11, 8, .ro, 0xf, 0, 15, false⟩, ⟨"LAST_LANES", 3, 0, .ro, 0, 0, 15, false⟩] },
  { name := "HIST", off := 0x6c, stride1 := 0x4, count1 := 4, fields := [⟨"CE", 31, 16, .rc, 0, 0, 65535, false⟩, ⟨"LAST_CAUSE", 11, 8, .ro, 0xf, 0, 15, false⟩, ⟨"STRIKES", 3, 0, .ro, 0, 0, 15, false⟩] },
  { name := "EXEC", off := 0x7c, fields := [⟨"MARK", 16, 0, .ro, 0, 0, 131071, false⟩] },
  { name := "EXEC_PEAK", off := 0x80, fields := [⟨"PEAK", 16, 0, .rcMax, 0, 0, 131071, false⟩] } ]

/-- Registers of the HOST page (or of each of its pages), after the common header. -/
def hostRegs : List RegDesc := [
  { name := "WIN_BASE", off := 0x40, fields := [⟨"BASE", 5, 0, .rw, 0, 0, 56, false⟩] },
  { name := "IN_FLIGHT", off := 0x44, fields := [⟨"PEAK", 25, 16, .rcMax, 0, 0, 1023, false⟩, ⟨"COUNT", 9, 0, .ro, 0, 0, 1023, false⟩] },
  { name := "RING_CFG", off := 0x100, stride1 := 0x40, count1 := 8, fields := [⟨"IRQ_EVERY", 2, 2, .rw, 0, 0, 1, false⟩, ⟨"TRANSPORT", 1, 1, .rw, 0, 0, 1, false⟩, ⟨"EN", 0, 0, .rw, 0, 0, 1, false⟩] },
  { name := "SQ_BASE_LO", off := 0x104, stride1 := 0x40, count1 := 8, fields := [⟨"ADDR", 31, 0, .rw, 0, 0, 4294967295, false⟩] },
  { name := "SQ_BASE_HI", off := 0x108, stride1 := 0x40, count1 := 8, fields := [⟨"ADDR", 31, 0, .rw, 0, 0, 4294967295, false⟩] },
  { name := "CQ_BASE_LO", off := 0x10c, stride1 := 0x40, count1 := 8, fields := [⟨"ADDR", 31, 0, .rw, 0, 0, 4294967295, false⟩] },
  { name := "CQ_BASE_HI", off := 0x110, stride1 := 0x40, count1 := 8, fields := [⟨"ADDR", 31, 0, .rw, 0, 0, 4294967295, false⟩] },
  { name := "SQ_DB", off := 0x114, stride1 := 0x40, count1 := 8, fields := [⟨"VALUE", 15, 0, .rw, 0, 0, 65535, false⟩] },
  { name := "CQ_DB", off := 0x118, stride1 := 0x40, count1 := 8, fields := [⟨"VALUE", 15, 0, .rw, 0, 0, 65535, false⟩] },
  { name := "RING_STATE", off := 0x120, stride1 := 0x40, count1 := 8, fields := [⟨"LAST_HSEQ", 31, 16, .ro, 0, 0, 65535, false⟩, ⟨"LAST_DSEQ", 15, 0, .ro, 0, 0, 65535, false⟩] },
  { name := "CQ_STATE", off := 0x124, stride1 := 0x40, count1 := 8, fields := [⟨"HELD_OLDEST", 31, 16, .ro, 1, 0, 65535, false⟩, ⟨"CQ_WRITTEN", 15, 0, .ro, 0, 0, 65535, false⟩] },
  { name := "RING_STAT", off := 0x128, stride1 := 0x40, count1 := 8, fields := [⟨"FAULT", 19, 19, .ro, 0, 0, 1, false⟩, ⟨"FETCH_WAIT", 18, 18, .ro, 0, 0, 1, false⟩, ⟨"CQ_FULL", 17, 17, .ro, 0, 0, 1, false⟩, ⟨"IDLE", 16, 16, .ro, 1, 0, 1, false⟩, ⟨"IN_FLIGHT", 9, 0, .ro, 0, 0, 1023, false⟩] } ]

/-- Registers of the IRQ page (or of each of its pages), after the common header. -/
def irqRegs : List RegDesc := [
  { name := "SRC_A", off := 0x40, fields := [⟨"S", 31, 0, .ro, 0, 0, 4294967295, false⟩] },
  { name := "SRC_B", off := 0x44, fields := [⟨"S", 31, 0, .ro, 0, 0, 4294967295, false⟩] },
  { name := "EN_A", off := 0x48, fields := [⟨"S", 31, 0, .rw, 0, 0, 4294967295, false⟩] },
  { name := "EN_B", off := 0x4c, fields := [⟨"S", 31, 0, .rw, 0, 0, 4294967295, false⟩] },
  { name := "PEND_A", off := 0x50, fields := [⟨"S", 31, 0, .ro, 0, 0, 4294967295, false⟩] },
  { name := "PEND_B", off := 0x54, fields := [⟨"S", 31, 0, .ro, 0, 0, 4294967295, false⟩] },
  { name := "PIN_EN_A", off := 0x58, fields := [⟨"S", 31, 0, .rw, 0, 0, 4294967295, false⟩] },
  { name := "PIN_EN_B", off := 0x5c, fields := [⟨"S", 31, 0, .rw, 0, 0, 4294967295, false⟩] },
  { name := "BRZ_EN_A", off := 0x60, fields := [⟨"S", 31, 0, .rw, 0, 0, 4294967295, false⟩] },
  { name := "BRZ_EN_B", off := 0x64, fields := [⟨"S", 31, 0, .rw, 0, 0, 4294967295, false⟩] },
  { name := "SOFT", off := 0x68, fields := [⟨"SET", 0, 0, .wo, 0, 0, 1, false⟩] },
  { name := "MSIX_GAP", off := 0x6c, fields := [⟨"US", 7, 0, .rw, 0, 0, 255, false⟩] },
  { name := "VEC", off := 0x100, stride1 := 0x4, count1 := 64, fields := [⟨"VECTOR", 5, 0, .rw, 0, 0, 63, false⟩] } ]

/-- Registers of the EVC page (or of each of its pages), after the common header. -/
def evcRegs : List RegDesc := [
  { name := "OVF_A", off := 0x40, fields := [⟨"OVF", 31, 0, .w1c, 0, 0, 4294967295, false⟩] },
  { name := "OVF_B", off := 0x44, fields := [⟨"OVF", 31, 0, .w1c, 0, 0, 4294967295, false⟩] },
  { name := "SRC", off := 0x100, stride1 := 0x10, count1 := 64, fields := [⟨"CLEAR", 31, 31, .wo, 0, 0, 1, false⟩, ⟨"ID", 9, 0, .rw, 0x3bf, 0, 1023, false⟩] },
  { name := "COUNT_LO", off := 0x104, stride1 := 0x10, count1 := 64, fields := [⟨"COUNT", 31, 0, .ro, 0, 0, 4294967295, false⟩] },
  { name := "COUNT_HI", off := 0x108, stride1 := 0x10, count1 := 64, fields := [⟨"COUNT", 15, 0, .ro, 0, 0, 65535, false⟩] } ]

/-- Registers of the TIM page (or of each of its pages), after the common header. -/
def timRegs : List RegDesc := [
  { name := "SYSTIME_LO", off := 0x40, fields := [⟨"NS", 31, 0, .rw, 0, 0, 4294967295, false⟩] },
  { name := "SYSTIME_HI", off := 0x44, fields := [⟨"NS", 31, 0, .rw, 0, 0, 4294967295, false⟩] },
  { name := "SYSTIME_STAT", off := 0x48, fields := [⟨"SYNC", 0, 0, .ro, 0, 0, 1, false⟩] },
  { name := "START", off := 0x4c, fields := [⟨"UNITS", 15, 0, .wo, 0, 0, 65535, false⟩] },
  { name := "STOP", off := 0x50, fields := [⟨"UNITS", 15, 0, .wo, 0, 0, 65535, false⟩] },
  { name := "RUN", off := 0x54, fields := [⟨"UNITS", 15, 0, .ro, 0, 0, 65535, false⟩] },
  { name := "CFG", off := 0x100, stride1 := 0x80, count1 := 16, fields := [⟨"DBG_STOP", 16, 16, .rw, 0, 0, 1, false⟩, ⟨"PRESC", 15, 0, .rw, 0, 0, 65535, false⟩] },
  { name := "COUNT_LO", off := 0x104, stride1 := 0x80, count1 := 16, fields := [⟨"COUNT", 31, 0, .rw, 0, 0, 4294967295, false⟩] },
  { name := "COUNT_HI", off := 0x108, stride1 := 0x80, count1 := 16, fields := [⟨"COUNT", 3, 0, .rw, 0, 0, 15, false⟩] },
  { name := "RELOAD_LO", off := 0x10c, stride1 := 0x80, count1 := 16, fields := [⟨"RELOAD", 31, 0, .rw, 0xffffffff, 0, 4294967295, false⟩] },
  { name := "RELOAD_HI", off := 0x110, stride1 := 0x80, count1 := 16, fields := [⟨"RELOAD", 3, 0, .rw, 0xf, 0, 15, false⟩] },
  { name := "CH_CFG", off := 0x114, stride1 := 0x80, count1 := 16, fields := [⟨"CH3_EDGE", 30, 29, .rw, 0, 0, 3, false⟩, ⟨"CH3_SRC", 28, 26, .rw, 0, 0, 6, false⟩, ⟨"CH3_MODE", 25, 24, .rw, 0, 0, 2, false⟩, ⟨"CH2_EDGE", 22, 21, .rw, 0, 0, 3, false⟩, ⟨"CH2_SRC", 20, 18, .rw, 0, 0, 6, false⟩, ⟨"CH2_MODE", 17, 16, .rw, 0, 0, 2, false⟩, ⟨"CH1_EDGE", 14, 13, .rw, 0, 0, 3, false⟩, ⟨"CH1_SRC", 12, 10, .rw, 0, 0, 6, false⟩, ⟨"CH1_MODE", 9, 8, .rw, 0, 0, 2, false⟩, ⟨"CH0_EDGE", 6, 5, .rw, 0, 0, 3, false⟩, ⟨"CH0_SRC", 4, 2, .rw, 0, 0, 6, false⟩, ⟨"CH0_MODE", 1, 0, .rw, 0, 0, 2, false⟩] },
  { name := "FLAGS", off := 0x118, stride1 := 0x80, count1 := 16, fields := [⟨"COARSE", 11, 8, .ro, 0, 0, 15, false⟩, ⟨"LOST", 7, 4, .w1c, 0, 0, 15, false⟩, ⟨"NEW", 3, 0, .ro, 0, 0, 15, false⟩] },
  { name := "EVT", off := 0x11c, stride1 := 0x80, count1 := 16, fields := [⟨"CAPT", 8, 5, .w1c, 0, 0, 15, false⟩, ⟨"MATCH", 4, 1, .w1c, 0, 0, 15, false⟩, ⟨"WRAP", 0, 0, .w1c, 0, 0, 1, false⟩] },
  { name := "EVT_EN", off := 0x120, stride1 := 0x80, count1 := 16, fields := [⟨"EN", 8, 0, .rw, 0, 0, 511, false⟩] },
  { name := "MAKEUP", off := 0x124, stride1 := 0x80, count1 := 16, fields := [⟨"WRAPS", 31, 16, .rc, 0, 0, 65535, false⟩] },
  { name := "CCR_LO", off := 0x140, stride1 := 0x80, count1 := 16, stride2 := 0x8, count2 := 4, fields := [⟨"VALUE", 31, 0, .rw, 0, 0, 4294967295, false⟩] },
  { name := "CCR_HI", off := 0x144, stride1 := 0x80, count1 := 16, stride2 := 0x8, count2 := 4, fields := [⟨"VALUE", 3, 0, .rw, 0, 0, 15, false⟩] } ]

/-- Registers of the GPIO page (or of each of its pages), after the common header. -/
def gpioRegs : List RegDesc := [
  { name := "DIR", off := 0x40, fields := [⟨"OUT_EN", 15, 0, .rw, 0, 0, 65535, true⟩] },
  { name := "OUT", off := 0x44, fields := [⟨"VALUE", 15, 0, .rw, 0, 0, 65535, true⟩] },
  { name := "SET", off := 0x48, fields := [⟨"BITS", 15, 0, .wo, 0, 0, 65535, false⟩] },
  { name := "CLR", off := 0x4c, fields := [⟨"BITS", 15, 0, .wo, 0, 0, 65535, false⟩] },
  { name := "OD", off := 0x50, fields := [⟨"OPEN_DRAIN", 15, 0, .rw, 0, 0, 65535, true⟩] },
  { name := "IN", off := 0x54, fields := [⟨"LEVEL", 15, 0, .ro, 0, 0, 65535, false⟩] },
  { name := "RISE", off := 0x58, fields := [⟨"EN", 15, 0, .rw, 0, 0, 65535, true⟩] },
  { name := "FALL", off := 0x5c, fields := [⟨"EN", 15, 0, .rw, 0, 0, 65535, true⟩] },
  { name := "EVT", off := 0x60, fields := [⟨"EDGE", 15, 0, .w1c, 0, 0, 65535, false⟩] },
  { name := "WAKE", off := 0x64, fields := [⟨"EN", 15, 0, .rw, 0, 0, 65535, true⟩] } ]

/-- Registers of the COEX page (or of each of its pages), after the common header. -/
def coexRegs : List RegDesc := [
  { name := "CFG", off := 0x40, fields := [⟨"PRI_CTRL", 20, 20, .rw, 1, 0, 1, false⟩, ⟨"PRI_CLASS", 18, 16, .rw, 6, 0, 7, false⟩, ⟨"ABORT_ON_LOSS", 9, 9, .rw, 0, 0, 1, false⟩, ⟨"GROUPS", 3, 0, .rw, 0xf, 0, 15, false⟩] },
  { name := "BLANK_CFG", off := 0x44, fields := [⟨"EXT_US", 15, 8, .rw, 0, 0, 255, false⟩, ⟨"EN", 3, 0, .rw, 0xf, 0, 15, false⟩] },
  { name := "COUNT", off := 0x48, fields := [⟨"DENIED", 31, 16, .rc, 0, 0, 65535, false⟩, ⟨"LOST", 15, 0, .rc, 0, 0, 65535, false⟩] },
  { name := "LEVELS", off := 0x4c, fields := [⟨"BLANK", 6, 3, .ro, 0, 0, 15, false⟩, ⟨"GRANT", 2, 2, .ro, 1, 0, 1, false⟩, ⟨"PRI", 1, 1, .ro, 0, 0, 1, false⟩, ⟨"REQ", 0, 0, .ro, 0, 0, 1, false⟩] } ]

/-- Registers of the VAULT page (or of each of its pages), after the common header. -/
def vaultRegs : List RegDesc := [
  { name := "GEN", off := 0x40, fields := [⟨"USED", 19, 16, .ro, 0, 0, 15, false⟩, ⟨"IN_FORCE", 11, 8, .ro, 0xf, 0, 15, false⟩, ⟨"BAD", 7, 0, .ro, 0, 0, 255, false⟩] },
  { name := "DRAFT_SEL", off := 0x44, fields := [⟨"SLOT", 4, 0, .rw, 0, 0, 31, false⟩] },
  { name := "DRAFT_CTRL", off := 0x48, fields := [⟨"RELOAD", 0, 0, .wo, 0, 0, 1, false⟩] },
  { name := "RF_LIMIT", off := 0x4c, fields := [⟨"LIMIT_MW", 12, 0, .rw, 0x1770, 0, 6000, false⟩] },
  { name := "RF_LOAD", off := 0x50, fields := [⟨"PEAK_MW", 28, 16, .rcMax, 0, 0, 8191, false⟩, ⟨"NOW_MW", 12, 0, .ro, 0, 0, 8191, false⟩] },
  { name := "REFUSE", off := 0x54, fields := [⟨"COUNT", 31, 16, .rc, 0, 0, 65535, false⟩, ⟨"LAST_SLOT", 15, 8, .ro, 0xff, 0, 255, false⟩, ⟨"LAST_CAUSE", 3, 0, .ro, 0, 0, 15, false⟩] },
  { name := "HELD", off := 0x58, fields := [⟨"BUDGET", 31, 16, .rc, 0, 0, 65535, false⟩, ⟨"CLAMPED", 15, 0, .rc, 0, 0, 65535, false⟩] },
  { name := "DRAFT", off := 0x80, stride1 := 0x4, count1 := 16, fields := [⟨"BYTES", 31, 0, .rw, 0, 0, 4294967295, false⟩] },
  { name := "FORCE", off := 0x800, stride1 := 0x4, count1 := 512, fields := [⟨"BYTES", 31, 0, .ro, 0, 0, 4294967295, false⟩] } ]

/-- Registers of the UPD page (or of each of its pages), after the common header. -/
def updRegs : List RegDesc := [
  { name := "STAT", off := 0x40, fields := [⟨"EPOCH", 15, 8, .ro, 0, 0, 255, false⟩, ⟨"PAUSE", 6, 6, .ro, 0, 0, 1, false⟩, ⟨"SESSION", 5, 5, .ro, 0, 0, 1, false⟩, ⟨"MOVING", 4, 4, .ro, 0, 0, 1, false⟩, ⟨"VEHICLE", 3, 3, .ro, 0, 0, 1, false⟩, ⟨"REQ_OWNER", 2, 2, .ro, 0, 0, 1, false⟩, ⟨"RUN_SLOT", 0, 0, .ro, 0, 0, 1, false⟩] },
  { name := "LAST", off := 0x44, fields := [⟨"ACTION", 31, 28, .ro, 0, 0, 15, false⟩, ⟨"CODE", 15, 8, .ro, 0, 0, 255, false⟩, ⟨"SLOT", 0, 0, .ro, 0, 0, 1, false⟩] },
  { name := "PROGRESS", off := 0x48, fields := [⟨"RECEIVED", 21, 0, .ro, 0, 0, 4194303, false⟩] },
  { name := "MOTION_CFG", off := 0x4c, fields := [⟨"HOLD_S", 7, 0, .lk, 0x1e, 0, 255, true⟩] },
  { name := "SLOT_INFO", off := 0x50, stride1 := 0x10, count1 := 2, fields := [⟨"STATE", 31, 28, .ro, 0, 0, 15, false⟩, ⟨"EPOCH", 23, 16, .ro, 0, 0, 255, false⟩, ⟨"HANDOVER", 15, 8, .ro, 0, 0, 255, false⟩] },
  { name := "SLOT_VER", off := 0x54, stride1 := 0x10, count1 := 2, fields := [⟨"VERSION", 31, 0, .ro, 0, 0, 4294967295, false⟩] },
  { name := "SLOT_SEQ", off := 0x58, stride1 := 0x10, count1 := 2, fields := [⟨"STAGE_SEQ", 31, 0, .ro, 0, 0, 4294967295, false⟩] },
  { name := "COUNT", off := 0x70, fields := [⟨"STAGED", 31, 16, .rc, 0, 0, 65535, false⟩, ⟨"REFUSED", 15, 0, .rc, 0, 0, 65535, false⟩] },
  { name := "SESSION_CFG", off := 0x74, fields := [⟨"IDLE_S", 7, 0, .rw, 0x3c, 10, 255, true⟩] } ]

/-- Registers of the SVC page (or of each of its pages), after the common header. -/
def svcRegs : List RegDesc := [
  { name := "STAT", off := 0x40, fields := [⟨"LAST_TYPE", 31, 24, .ro, 0, 0, 255, false⟩, ⟨"LAST_STATUS", 23, 16, .ro, 0, 0, 255, false⟩, ⟨"LAST_FSEQ", 15, 8, .ro, 0, 0, 255, false⟩, ⟨"OVERRUN", 3, 3, .ro, 0, 0, 1, false⟩, ⟨"FRAME_ERR", 2, 2, .ro, 0, 0, 1, false⟩, ⟨"BUSY", 1, 1, .ro, 0, 0, 1, false⟩, ⟨"RESP_READY", 0, 0, .ro, 0, 0, 1, false⟩] },
  { name := "COUNT", off := 0x44, fields := [⟨"REQUESTS", 31, 16, .rc, 0, 0, 65535, false⟩, ⟨"ERRORS", 15, 0, .rc, 0, 0, 65535, false⟩] },
  { name := "CFG", off := 0x48, fields := [⟨"CMD_EN", 0, 0, .lk, 1, 0, 1, true⟩] } ]

/-- Registers of the PAWN page (or of each of its pages), after the common header. -/
def pawnRegs : List RegDesc := [
  { name := "CFG", off := 0x40, fields := [⟨"MAX_RETRIES", 31, 28, .rw, 8, 1, 15, true⟩, ⟨"WINDOW", 27, 24, .rw, 8, 1, 15, true⟩, ⟨"STALL_S", 23, 16, .rw, 0x78, 1, 255, true⟩, ⟨"RETRY_TEMPOS", 15, 0, .rw, 0x190, 1, 65535, true⟩] },
  { name := "BUDGET", off := 0x44, stride1 := 0x4, count1 := 4, fields := [⟨"BURST", 31, 8, .rw, 0x4e20, 0, 16777215, true⟩, ⟨"RATE", 7, 0, .rw, 0x32, 0, 250, true⟩] },
  { name := "LEVEL", off := 0x54, stride1 := 0x4, count1 := 4, fields := [⟨"LEVEL", 31, 0, .ro, 0x4e20, 0, 4294967295, false⟩] },
  { name := "ACTIVE", off := 0x64, fields := [⟨"CHAINS", 6, 0, .ro, 0, 0, 127, false⟩] },
  { name := "COUNT", off := 0x68, fields := [⟨"BLOCKS", 31, 16, .rc, 0, 0, 65535, false⟩, ⟨"RETRIES", 15, 0, .rc, 0, 0, 65535, false⟩] },
  { name := "LAST", off := 0x6c, fields := [⟨"EVENT", 31, 28, .ro, 0, 0, 15, false⟩, ⟨"IMAGE", 27, 26, .ro, 0, 0, 3, false⟩, ⟨"CHAIN", 23, 16, .ro, 0, 0, 255, false⟩, ⟨"CAUSE", 15, 8, .ro, 0, 0, 255, false⟩] },
  { name := "IGNORED", off := 0x70, fields := [⟨"COUNT", 15, 0, .rc, 0, 0, 65535, false⟩] },
  { name := "IMG_STAT", off := 0x80, stride1 := 0x10, count1 := 4, fields := [⟨"STATE", 31, 28, .ro, 0, 0, 15, false⟩, ⟨"CAMPAIGN", 15, 0, .ro, 0, 0, 65535, false⟩] },
  { name := "IMG_BYTES", off := 0x84, stride1 := 0x10, count1 := 4, fields := [⟨"BYTES", 22, 0, .ro, 0, 0, 8388607, false⟩] },
  { name := "IMG_CHAINS", off := 0x88, stride1 := 0x10, count1 := 4, fields := [⟨"PLANNED", 31, 16, .ro, 0, 0, 65535, false⟩, ⟨"DONE", 15, 0, .ro, 0, 0, 65535, false⟩] },
  { name := "IMG_RESULT", off := 0x8c, stride1 := 0x10, count1 := 4, fields := [⟨"FAILED", 31, 16, .ro, 0, 0, 65535, false⟩, ⟨"NODES_DONE", 15, 0, .ro, 0, 0, 65535, false⟩] } ]

/-- Registers of the SEC page (or of each of its pages), after the common header. -/
def secRegs : List RegDesc := [
  { name := "CFG", off := 0x40, fields := [⟨"WARN_BLOCK", 31, 16, .rw, 0xff00, 1, 65535, false⟩] },
  { name := "OWNER", off := 0x44, fields := [⟨"OSEQ", 31, 16, .ro, 0, 0, 65535, false⟩, ⟨"LOCK", 2, 2, .ro, 0, 0, 1, false⟩, ⟨"OWNER_KEY", 1, 1, .ro, 0, 0, 1, false⟩, ⟨"DEVICE_KEY", 0, 0, .ro, 0, 0, 1, false⟩] },
  { name := "KEYS", off := 0x48, fields := [⟨"LOADED", 28, 16, .ro, 0, 0, 8191, false⟩, ⟨"DAMAGED", 12, 0, .ro, 0, 0, 8191, false⟩] },
  { name := "AUTH_CNT", off := 0x4c, fields := [⟨"MIC", 31, 16, .rc, 0, 0, 65535, false⟩, ⟨"POLICY", 15, 0, .rc, 0, 0, 65535, false⟩] },
  { name := "REPLAY_CNT", off := 0x50, fields := [⟨"REPLAY", 31, 16, .rc, 0, 0, 65535, false⟩, ⟨"DUPLICATE", 15, 0, .rc, 0, 0, 65535, false⟩] },
  { name := "LAST_FAIL", off := 0x54, fields := [⟨"CAUSE", 31, 28, .ro, 0, 0, 15, false⟩, ⟨"HANDLE", 22, 0, .ro, 0, 0, 8388607, false⟩] },
  { name := "FCNT_STAT", off := 0x58, fields := [⟨"RESERVED", 31, 16, .rc, 0, 0, 65535, false⟩, ⟨"STALLS", 15, 0, .rc, 0, 0, 65535, false⟩] },
  { name := "ENGINES", off := 0x5c, fields := [⟨"QUEUE_PEAK", 31, 16, .rcMax, 0, 0, 65535, false⟩, ⟨"BUSY", 3, 0, .ro, 0, 0, 15, false⟩] },
  { name := "KEY_SEL", off := 0x60, fields := [⟨"SLOT", 11, 0, .rw, 0, 0, 4095, false⟩] },
  { name := "KEY_INFO_0", off := 0x64, fields := [⟨"STATE", 31, 28, .ro, 0, 0, 15, false⟩, ⟨"TYPE", 27, 24, .ro, 0, 0, 15, false⟩, ⟨"LEVELS", 23, 16, .ro, 0, 0, 255, false⟩, ⟨"KEY_INDEX", 15, 8, .ro, 0, 0, 255, false⟩, ⟨"PAN", 6, 0, .ro, 0, 0, 127, false⟩] },
  { name := "KEY_INFO_1", off := 0x68, fields := [⟨"NEXT_FCNT", 31, 0, .ro, 0, 0, 4294967295, false⟩] },
  { name := "KEY_INFO_2", off := 0x6c, fields := [⟨"BLOCK", 31, 16, .ro, 0, 0, 65535, false⟩, ⟨"PENDING", 0, 0, .ro, 0, 0, 1, false⟩] },
  { name := "KEY_INFO_3", off := 0x70, fields := [⟨"REFS", 22, 0, .ro, 0, 0, 8388607, false⟩] },
  { name := "PAN_SEC", off := 0x200, stride1 := 0x4, count1 := 128, fields := [⟨"GROUP_EN", 31, 31, .rw, 0, 0, 1, true⟩, ⟨"GROUP_KEY", 27, 16, .rw, 0, 0, 4095, true⟩, ⟨"BCAST_LEVEL", 14, 12, .rw, 0, 0, 7, true⟩, ⟨"DATA_LEVEL", 10, 8, .rw, 0, 0, 7, true⟩, ⟨"MIN_LEVEL", 6, 4, .rw, 0, 0, 7, true⟩, ⟨"JOIN_SECURED", 0, 0, .rw, 0, 0, 1, true⟩] } ]

/-- Registers of the RFG page (or of each of its pages), after the common header. -/
def rfgRegs : List RegDesc := [
  { name := "PORT_EN", off := 0x40, fields := [⟨"RANGE_2H", 17, 17, .rw, 0, 0, 1, false⟩, ⟨"RANGE_2L", 16, 16, .rw, 0, 0, 1, false⟩, ⟨"EN", 7, 0, .rw, 0, 0, 255, true⟩] },
  { name := "CHAIN_STATE", off := 0x44, fields := [⟨"STATE", 26, 0, .ro, 0, 0, 134217727, false⟩] },
  { name := "CHAIN_MAP", off := 0x48, fields := [⟨"CASTLING", 8, 8, .ro, 0, 0, 1, false⟩, ⟨"SECTOR", 3, 0, .ro, 0xf, 0, 15, false⟩] },
  { name := "NBR_BLANK", off := 0x4c, fields := [⟨"POST_US", 31, 24, .rw, 0xa, 0, 255, false⟩, ⟨"PRE_US", 23, 16, .rw, 5, 0, 255, false⟩, ⟨"OFFSETS", 7, 1, .rw, 0x41, 0, 127, false⟩] },
  { name := "SLOT_STAT", off := 0x50, fields := [⟨"ON_AIR", 23, 16, .ro, 0, 0, 255, false⟩, ⟨"WAIT_LOCK", 15, 8, .ro, 0, 0, 255, false⟩, ⟨"OCCUPIED", 7, 0, .ro, 0, 0, 255, false⟩] },
  { name := "PORT_FAULT", off := 0x54, fields := [⟨"PA", 7, 0, .w1c, 0, 0, 255, false⟩] },
  { name := "PT_SEL", off := 0x58, fields := [⟨"SECTOR", 10, 8, .rw, 0, 0, 7, false⟩, ⟨"INDEX", 5, 0, .rw, 0, 0, 63, false⟩] },
  { name := "PT_DATA", off := 0x5c, fields := [⟨"BIAS", 31, 24, .ro, 0, 0, 255, false⟩, ⟨"GAIN", 23, 16, .ro, 0, 0, 255, false⟩, ⟨"VALID", 15, 15, .ro, 0, 0, 1, false⟩, ⟨"OUT", 9, 0, .ro, 0, 0, 1023, false⟩] },
  { name := "PT_VER", off := 0x60, fields := [⟨"VERSION", 15, 0, .ro, 0, 0, 65535, false⟩] },
  { name := "LOCK", off := 0x64, fields := [⟨"RX_LOCK", 24, 16, .ro, 0, 0, 511, false⟩, ⟨"TX_LOCK", 8, 0, .ro, 0, 0, 511, false⟩] },
  { name := "TX_CNT", off := 0x68, fields := [⟨"LOCK_WAITS", 31, 16, .rc, 0, 0, 65535, false⟩, ⟨"ABORTS", 15, 0, .rc, 0, 0, 65535, false⟩] } ]

/-- Registers of the CAL page (or of each of its pages), after the common header. -/
def calRegs : List RegDesc := [
  { name := "CFG", off := 0x40, fields := [⟨"TEMP_DELTA", 31, 24, .rw, 8, 0, 60, false⟩, ⟨"GROUPS", 19, 16, .rw, 0xf, 0, 15, false⟩, ⟨"SWAP_WAIT", 11, 0, .rw, 0x7d0, 0, 4000, false⟩] },
  { name := "ROUND", off := 0x44, fields := [⟨"TEMPOS", 23, 0, .rw, 0x249f00, 900, 16777215, false⟩] },
  { name := "GSTAT", off := 0x50, stride1 := 0x4, count1 := 4, fields := [⟨"STATE", 31, 28, .ro, 0, 0, 15, false⟩, ⟨"CHAIN", 27, 24, .ro, 0xf, 0, 15, false⟩, ⟨"ITEM", 23, 20, .ro, 0xf, 0, 15, false⟩, ⟨"STEPS_LEFT", 15, 8, .ro, 0, 0, 255, false⟩] },
  { name := "FAULT", off := 0x60, stride1 := 0x4, count1 := 4, fields := [⟨"CHAIN", 8, 0, .w1c, 0, 0, 511, false⟩] },
  { name := "COUNT", off := 0x70, fields := [⟨"SWAPS", 31, 16, .rc, 0, 0, 65535, false⟩, ⟨"STRADDLE", 15, 0, .rc, 0, 0, 65535, false⟩] },
  { name := "GAP_MAX", off := 0x74, fields := [⟨"GAP3", 31, 24, .rcMax, 0, 0, 255, false⟩, ⟨"GAP2", 23, 16, .rcMax, 0, 0, 255, false⟩, ⟨"GAP1", 15, 8, .rcMax, 0, 0, 255, false⟩, ⟨"GAP0", 7, 0, .rcMax, 0, 0, 255, false⟩] },
  { name := "CHAIN", off := 0x100, stride1 := 0x4, count1 := 36, fields := [⟨"SINCE", 31, 16, .ro, 0xffff, 0, 65535, false⟩, ⟨"TEMP", 15, 8, .ro, 0, 0, 255, false⟩, ⟨"FAIL_ITEM", 7, 4, .ro, 0xf, 0, 15, false⟩, ⟨"LAST_CODE", 3, 0, .ro, 0xf, 0, 15, false⟩] } ]

/-- Registers of the RXP page (or of each of its pages), after the common header. -/
def rxpRegs : List RegDesc := [
  { name := "CFG", off := 0x40, fields := [⟨"BLANK_ABANDON", 15, 8, .rw, 0x10, 1, 255, false⟩, ⟨"KEEP_BAD_METER", 0, 0, .rw, 0, 0, 1, false⟩] },
  { name := "POOL", off := 0x44, fields := [⟨"PEAK", 27, 16, .rcMax, 0, 0, 4095, false⟩, ⟨"IN_USE", 11, 0, .ro, 0, 0, 4095, false⟩] },
  { name := "POOL_CFG", off := 0x48, stride1 := 0x4, count1 := 4, fields := [⟨"CAP", 27, 16, .rw, 0x800, 1, 2048, false⟩, ⟨"RESERVE", 9, 0, .rw, 0x80, 0, 512, false⟩] },
  { name := "POOL_USE", off := 0x58, stride1 := 0x4, count1 := 4, fields := [⟨"PEAK", 27, 16, .rcMax, 0, 0, 4095, false⟩, ⟨"IN_USE", 11, 0, .ro, 0, 0, 4095, false⟩] },
  { name := "EXHAUST", off := 0x68, fields := [⟨"COUNT", 31, 16, .rc, 0, 0, 65535, false⟩, ⟨"LAST_PORT", 4, 0, .ro, 0, 0, 31, false⟩] },
  { name := "LSEL", off := 0x6c, fields := [⟨"GROUP", 5, 4, .rw, 0, 0, 3, false⟩, ⟨"ENTRY", 3, 0, .rw, 0, 0, 15, false⟩] },
  { name := "LCTRL", off := 0x70, fields := [⟨"PENDING", 16, 16, .ro, 0, 0, 1, false⟩, ⟨"LOAD", 1, 1, .wo, 0, 0, 1, false⟩, ⟨"COMMIT", 0, 0, .wo, 0, 0, 1, false⟩] },
  { name := "LUSE", off := 0x74, fields := [⟨"TOTAL", 27, 16, .ro, 0, 0, 4095, false⟩, ⟨"MAX_PORT", 8, 0, .ro, 0, 0, 511, false⟩] },
  { name := "OVERLOAD", off := 0x78, fields := [⟨"COUNT", 31, 16, .rc, 0, 0, 65535, false⟩, ⟨"NO_RING", 15, 0, .rc, 0, 0, 65535, false⟩] },
  { name := "LDATA", off := 0x80, stride1 := 0x4, count1 := 7, fields := [⟨"WORD", 31, 0, .rw, 0, 0, 4294967295, false⟩] },
  { name := "RXR_CFG", off := 0xa0, stride1 := 0x20, count1 := 4, fields := [⟨"KINDS", 10, 8, .rw, 0, 0, 7, false⟩, ⟨"SIZE", 6, 4, .rw, 0, 0, 4, false⟩, ⟨"TRANSPORT", 1, 1, .rw, 0, 0, 1, false⟩, ⟨"EN", 0, 0, .rw, 0, 0, 1, false⟩] },
  { name := "RXR_BASE_LO", off := 0xa4, stride1 := 0x20, count1 := 4, fields := [⟨"ADDR", 31, 0, .rw, 0, 0, 4294967295, false⟩] },
  { name := "RXR_BASE_HI", off := 0xa8, stride1 := 0x20, count1 := 4, fields := [⟨"ADDR", 31, 0, .rw, 0, 0, 4294967295, false⟩] },
  { name := "RXR_PROD", off := 0xac, stride1 := 0x20, count1 := 4, fields := [⟨"COUNT", 15, 0, .ro, 0, 0, 65535, false⟩] },
  { name := "RXR_CONS", off := 0xb0, stride1 := 0x20, count1 := 4, fields := [⟨"COUNT", 15, 0, .rw, 0, 0, 65535, false⟩] },
  { name := "RXR_STAT", off := 0xb4, stride1 := 0x20, count1 := 4, fields := [⟨"DROPPED", 31, 16, .rc, 0, 0, 65535, false⟩, ⟨"FAULT", 15, 15, .ro, 0, 0, 1, false⟩, ⟨"BACKLOG", 14, 0, .ro, 0, 0, 32767, false⟩] },
  { name := "RXR_IRQ", off := 0xb8, stride1 := 0x20, count1 := 4, fields := [⟨"TIMEOUT_US", 23, 8, .rw, 0, 0, 65535, false⟩, ⟨"COUNT", 7, 0, .rw, 1, 1, 255, false⟩] },
  { name := "STAT", off := 0x200, stride1 := 0x40, count1 := 4, stride2 := 0x4, count2 := 8, fields := [⟨"COUNT", 31, 0, .rc, 0, 0, 4294967295, false⟩] } ]

/-- Registers of the TXP page (or of each of its pages), after the common header. -/
def txpRegs : List RegDesc := [
  { name := "PROF_SEL", off := 0x40, fields := [⟨"GROUP", 9, 8, .rw, 0, 0, 3, false⟩, ⟨"PHY", 7, 0, .rw, 0x20, 0, 255, false⟩] },
  { name := "PROF_DATA", off := 0x44, fields := [⟨"OBSERVE", 20, 20, .rw, 0, 0, 1, false⟩, ⟨"CONSEC", 19, 16, .rw, 1, 1, 8, false⟩, ⟨"RAMP_US", 12, 8, .rw, 8, 2, 16, false⟩, ⟨"MASK", 7, 4, .rw, 0xf, 0, 15, false⟩, ⟨"FILTER", 3, 0, .rw, 0xf, 0, 15, false⟩] },
  { name := "SET_SEL", off := 0x48, fields := [⟨"AUTO_INC", 30, 30, .rw, 0, 0, 1, false⟩, ⟨"KIND", 28, 28, .rw, 0, 0, 1, false⟩, ⟨"GROUP", 25, 24, .rw, 0, 0, 3, false⟩, ⟨"SET", 18, 16, .rw, 0, 0, 7, false⟩, ⟨"INDEX", 5, 0, .rw, 0, 0, 63, false⟩] },
  { name := "SET_DATA", off := 0x4c, fields := [⟨"WORD", 31, 0, .rw, 0, 0, 4294967295, false⟩] },
  { name := "SET_CTRL", off := 0x50, fields := [⟨"PENDING", 16, 16, .ro, 0, 0, 1, false⟩, ⟨"LOAD", 1, 1, .wo, 0, 0, 1, false⟩, ⟨"COMMIT", 0, 0, .wo, 0, 0, 1, false⟩] },
  { name := "ABORT", off := 0x54, fields := [⟨"EXCESS", 31, 24, .ro, 0, 0, 255, false⟩, ⟨"SEGMENT", 19, 16, .ro, 0, 0, 15, false⟩, ⟨"PORT", 12, 8, .ro, 0, 0, 31, false⟩, ⟨"CAUSE", 3, 0, .ro, 0, 0, 15, false⟩] },
  { name := "COUNT", off := 0x58, fields := [⟨"MASK_ABORTS", 31, 16, .rc, 0, 0, 65535, false⟩, ⟨"MASK_OBSERVED", 15, 0, .rc, 0, 0, 65535, false⟩] },
  { name := "ONAIR", off := 0x60, stride1 := 0x4, count1 := 4, fields := [⟨"COUNT", 31, 0, .rc, 0, 0, 4294967295, false⟩] } ]

/-- Registers of the MAC page (or of each of its pages), after the common header. -/
def macRegs : List RegDesc := [
  { name := "LBT", off := 0x40, fields := [⟨"UNIT_US", 31, 20, .rw, 0x140, 20, 4095, false⟩, ⟨"MIN_BE", 19, 16, .rw, 3, 0, 8, false⟩, ⟨"MAX_BE", 15, 12, .rw, 5, 0, 8, false⟩, ⟨"MAX_BACKOFFS", 11, 8, .rw, 4, 0, 8, false⟩, ⟨"MAX_ROUNDS", 7, 4, .rw, 3, 1, 15, false⟩, ⟨"SENSE_ALL", 0, 0, .rw, 0, 0, 1, false⟩] },
  { name := "ACK", off := 0x44, fields := [⟨"DELAY_US", 31, 20, .rw, 0x3e8, 0, 4095, false⟩, ⟨"WAIT_US", 19, 8, .rw, 0x9c4, 0, 4095, false⟩, ⟨"MAX_RETRIES", 2, 0, .rw, 3, 0, 7, false⟩] },
  { name := "TIMING", off := 0x48, fields := [⟨"U_MIN", 31, 16, .rw, 0x32, 1, 4000, false⟩, ⟨"SPAN_MAX", 15, 0, .rw, 0x3840, 1, 65535, false⟩] },
  { name := "ASSOC", off := 0x4c, fields := [⟨"RESP_US", 31, 16, .rw, 0x7d0, 200, 65535, false⟩] },
  { name := "DUTY_SEL", off := 0x50, fields := [⟨"SLOT", 4, 0, .rw, 0, 0, 31, false⟩] },
  { name := "DUTY_USED", off := 0x54, fields := [⟨"USED", 31, 0, .ro, 0, 0, 4294967295, false⟩] },
  { name := "DUTY_CFG", off := 0x58, fields := [⟨"ACK_RESERVE", 13, 0, .rw, 0xa, 0, 10000, false⟩] },
  { name := "COUNT_LBT", off := 0x5c, fields := [⟨"BUSY", 31, 16, .rc, 0, 0, 65535, false⟩, ⟨"FAIL", 15, 0, .rc, 0, 0, 65535, false⟩] },
  { name := "COUNT_ACK", off := 0x60, fields := [⟨"SENT", 31, 16, .rc, 0, 0, 65535, false⟩, ⟨"MISSED", 15, 0, .rc, 0, 0, 65535, false⟩] },
  { name := "COUNT_MISC", off := 0x64, fields := [⟨"DUP_ACKS", 31, 16, .rc, 0, 0, 65535, false⟩, ⟨"DUTY_HELD", 15, 0, .rc, 0, 0, 65535, false⟩] },
  { name := "ASSOC_STAT", off := 0x68, fields := [⟨"GRANTED", 31, 16, .rc, 0, 0, 65535, false⟩, ⟨"DENIED", 15, 0, .rc, 0, 0, 65535, false⟩] },
  { name := "ASSOC_LAST", off := 0x6c, fields := [⟨"HANDLE", 22, 0, .ro, 0, 0, 8388607, false⟩] },
  { name := "ADRIFT_LAST", off := 0x70, fields := [⟨"COUNT", 31, 24, .rc, 0, 0, 255, false⟩, ⟨"HANDLE", 22, 0, .ro, 0, 0, 8388607, false⟩] },
  { name := "BEACON_STAT", off := 0x74, fields := [⟨"SENT", 31, 16, .rc, 0, 0, 65535, false⟩, ⟨"SKIPPED", 15, 0, .rc, 0, 0, 65535, false⟩] },
  { name := "PEER_CFG", off := 0x78, fields := [⟨"HOLD_S", 31, 16, .rw, 0x258, 1, 65535, false⟩, ⟨"TOL", 15, 8, .rw, 0x28, 0, 255, false⟩, ⟨"AUTO_ADOPT", 0, 0, .rw, 0, 0, 1, false⟩] },
  { name := "TIMING_STAT", off := 0x7c, fields := [⟨"RESETS", 31, 16, .rc, 0, 0, 65535, false⟩, ⟨"PERIOD_MISMATCH", 15, 0, .rc, 0, 0, 65535, false⟩] },
  { name := "PAN_SEL", off := 0x80, fields := [⟨"PAN", 6, 0, .rw, 0, 0, 127, false⟩] },
  { name := "PAN_DATA", off := 0x84, stride1 := 0x4, count1 := 9, fields := [⟨"WORD", 31, 0, .rw, 0, 0, 4294967295, false⟩] },
  { name := "PAN_CTRL", off := 0xa8, fields := [⟨"PENDING", 16, 16, .ro, 0, 0, 1, false⟩, ⟨"LOAD", 1, 1, .wo, 0, 0, 1, false⟩, ⟨"COMMIT", 0, 0, .wo, 0, 0, 1, false⟩] },
  { name := "PEER_SEL", off := 0xac, fields := [⟨"FULL", 31, 16, .rc, 0, 0, 65535, false⟩, ⟨"PEER", 5, 0, .rw, 0, 0, 63, false⟩] },
  { name := "PEER_DATA", off := 0xb0, stride1 := 0x4, count1 := 7, fields := [⟨"WORD", 31, 0, .ro, 0, 0, 4294967295, false⟩] } ]

/-- Registers of the SHEET page (or of each of its pages), after the common header. -/
def sheetRegs : List RegDesc := [
  { name := "CFG", off := 0x40, fields := [⟨"HOLD_S", 26, 16, .rw, 0x3c, 1, 2047, false⟩, ⟨"SUPPRESS_K", 11, 8, .rw, 3, 0, 7, false⟩, ⟨"RELAY_GROUPS", 7, 4, .rw, 0xf, 0, 15, false⟩] },
  { name := "RELAY_FLOW", off := 0x44, fields := [⟨"FLOW", 13, 0, .rw, 0, 0, 16383, false⟩] },
  { name := "RELAY_JITTER", off := 0x48, fields := [⟨"MAX_US", 15, 0, .rw, 0x2710, 1, 65535, false⟩] },
  { name := "COUNT_A", off := 0x4c, fields := [⟨"NEW", 31, 16, .rc, 0, 0, 65535, false⟩, ⟨"SEEN", 15, 0, .rc, 0, 0, 65535, false⟩] },
  { name := "COUNT_B", off := 0x50, fields := [⟨"RELAYED", 31, 16, .rc, 0, 0, 65535, false⟩, ⟨"CANCELLED", 15, 0, .rc, 0, 0, 65535, false⟩] },
  { name := "COUNT_C", off := 0x54, fields := [⟨"EVICT", 31, 16, .rc, 0, 0, 65535, false⟩, ⟨"BAD_HDR", 15, 0, .rc, 0, 0, 65535, false⟩] } ]

/-- Registers of the DIR page (or of each of its pages), after the common header. -/
def dirRegs : List RegDesc := [
  { name := "COUNT", off := 0x40, fields := [⟨"ENTRIES", 22, 0, .ro, 0, 0, 8388607, false⟩] },
  { name := "USE", off := 0x44, fields := [⟨"PAGES", 28, 16, .ro, 0, 0, 8191, false⟩, ⟨"PREFIXES", 8, 0, .ro, 0, 0, 511, false⟩] },
  { name := "XDEL", off := 0x48, fields := [⟨"DELETED", 22, 0, .ro, 0, 0, 8388607, false⟩] },
  { name := "XPROBE", off := 0x4c, fields := [⟨"PEAK", 7, 0, .rcMax, 0, 0, 255, false⟩] },
  { name := "FULL", off := 0x50, fields := [⟨"CAUSE", 31, 28, .ro, 0, 0, 15, false⟩, ⟨"HANDLE", 22, 0, .ro, 0, 0, 8388607, false⟩] },
  { name := "STAT", off := 0x54, fields := [⟨"LOADED", 31, 16, .rc, 0, 0, 65535, false⟩, ⟨"FAILED", 15, 0, .rc, 0, 0, 65535, false⟩] },
  { name := "LOST", off := 0x58, fields := [⟨"COUNT", 31, 24, .rc, 0, 0, 255, false⟩, ⟨"HANDLE", 22, 0, .ro, 0, 0, 8388607, false⟩] },
  { name := "BMAP_SEL", off := 0x5c, fields := [⟨"PAN", 12, 6, .rw, 0, 0, 127, false⟩, ⟨"BLOCK", 5, 0, .rw, 0, 0, 63, false⟩] },
  { name := "BMAP_DATA", off := 0x60, fields := [⟨"MAPPED", 31, 31, .ro, 0, 0, 1, false⟩, ⟨"PAGE", 23, 11, .ro, 0, 0, 8191, false⟩, ⟨"USED", 10, 0, .ro, 0, 0, 2047, false⟩] },
  { name := "XPFX_SEL", off := 0x64, fields := [⟨"INDEX", 7, 0, .rw, 0, 0, 255, false⟩] },
  { name := "XPFX_DATA", off := 0x68, fields := [⟨"PREFIX", 31, 0, .ro, 0, 0, 4294967295, false⟩] },
  { name := "XPFX_CNT", off := 0x6c, fields := [⟨"IN_USE", 31, 31, .ro, 0, 0, 1, false⟩, ⟨"COUNT", 22, 0, .ro, 0, 0, 8388607, false⟩] },
  { name := "TCLEAR", off := 0x70, fields := [⟨"ACTIVE", 31, 31, .ro, 0, 0, 1, false⟩, ⟨"NEXT", 22, 0, .ro, 0, 0, 8388607, false⟩] } ]

/-- Registers of the TMEM page (or of each of its pages), after the common header. -/
def tmemRegs : List RegDesc := [
  { name := "SCRUB_CFG", off := 0x40, fields := [⟨"EN", 31, 31, .rw, 1, 0, 1, false⟩, ⟨"PERIOD", 24, 0, .rw, 0xdbba00, 524288, 28800000, false⟩] },
  { name := "SCRUB_STAT", off := 0x44, fields := [⟨"STATUS", 31, 30, .ro, 0, 0, 3, false⟩, ⟨"POS", 23, 0, .ro, 0, 0, 16777215, false⟩] },
  { name := "SCRUB_PASSES", off := 0x48, fields := [⟨"PASSES", 31, 16, .rc, 0, 0, 65535, false⟩, ⟨"UE_LAST", 15, 0, .ro, 0, 0, 65535, false⟩] },
  { name := "CE_CNT", off := 0x4c, stride1 := 0x4, count1 := 4, fields := [⟨"COUNT", 31, 0, .rc, 0, 0, 4294967295, false⟩] },
  { name := "CE_LOG", off := 0x5c, fields := [⟨"READER", 31, 30, .ro, 0, 0, 3, false⟩, ⟨"SYMBOLS", 29, 28, .ro, 0, 0, 3, false⟩, ⟨"LINE", 23, 0, .ro, 0, 0, 16777215, false⟩] },
  { name := "UE_LOG", off := 0x60, fields := [⟨"READER", 31, 30, .ro, 0, 0, 3, false⟩, ⟨"REGION", 29, 27, .ro, 0, 0, 7, false⟩, ⟨"LINE", 23, 0, .ro, 0, 0, 16777215, false⟩] },
  { name := "UE_CNT", off := 0x64, fields := [⟨"COUNT", 31, 16, .rc, 0, 0, 65535, false⟩, ⟨"OPEN", 15, 0, .ro, 0, 0, 65535, false⟩] },
  { name := "TELEM_CFG", off := 0x68, fields := [⟨"EN", 31, 31, .rw, 0, 0, 1, true⟩, ⟨"KINDS", 20, 16, .rw, 0x1f, 0, 31, true⟩, ⟨"INTERVAL", 15, 0, .rw, 0xfa0, 8, 65535, true⟩] },
  { name := "TELEM_WR", off := 0x6c, fields := [⟨"LINE", 19, 0, .ro, 0, 0, 1048575, false⟩] },
  { name := "TELEM_SEQ", off := 0x70, fields := [⟨"SEQ", 31, 0, .ro, 0, 0, 4294967295, false⟩] },
  { name := "TELEM_STAT", off := 0x74, fields := [⟨"SKIPPED", 31, 16, .rc, 0, 0, 65535, false⟩, ⟨"QUEUED", 8, 0, .ro, 0, 0, 511, false⟩] } ]

/-- Registers of the FWD page (or of each of its pages), after the common header. -/
def fwdRegs : List RegDesc := [
  { name := "CFG", off := 0x40, fields := [⟨"SWEEP_EN", 1, 1, .rw, 1, 0, 1, false⟩, ⟨"LEARN_EN", 0, 0, .rw, 1, 0, 1, false⟩] },
  { name := "SWEEP", off := 0x44, fields := [⟨"TEMPOS", 23, 0, .rw, 0x3a980, 8192, 16777215, false⟩] },
  { name := "COUNT", off := 0x48, fields := [⟨"ENTRIES", 18, 0, .ro, 0, 0, 524287, false⟩] },
  { name := "STAT_A", off := 0x4c, fields := [⟨"LEARNED", 31, 16, .rc, 0, 0, 65535, false⟩, ⟨"AGED", 15, 0, .rc, 0, 0, 65535, false⟩] },
  { name := "STAT_B", off := 0x50, fields := [⟨"MOVES", 31, 16, .rc, 0, 0, 65535, false⟩, ⟨"RELEARNED", 15, 0, .rc, 0, 0, 65535, false⟩] },
  { name := "STAT_C", off := 0x54, fields := [⟨"FULL", 31, 16, .rc, 0, 0, 65535, false⟩, ⟨"NO_ORIGIN", 15, 0, .rc, 0, 0, 65535, false⟩] },
  { name := "MOVE_LAST", off := 0x58, fields := [⟨"KEPT", 31, 29, .ro, 0, 0, 7, false⟩, ⟨"OTHER", 28, 26, .ro, 0, 0, 7, false⟩, ⟨"HANDLE", 22, 0, .ro, 0, 0, 8388607, false⟩] },
  { name := "SWEEP_POS", off := 0x5c, fields := [⟨"POS", 17, 0, .ro, 0, 0, 262143, false⟩] } ]

/-- Registers of the QSCH page (or of each of its pages), after the common header. -/
def qschRegs : List RegDesc := [
  { name := "CFG", off := 0x40, fields := [⟨"WINDOW_LIMIT", 27, 16, .rw, 0x800, 1, 4095, false⟩, ⟨"STAGE_LIMIT", 4, 0, .rw, 4, 1, 31, false⟩] },
  { name := "BUF_RES_DOWN", off := 0x44, fields := [⟨"CELLS", 17, 0, .rw, 0x8000, 0, 262143, false⟩] },
  { name := "BUF_RES_UP", off := 0x48, fields := [⟨"CELLS", 17, 0, .rw, 0x8000, 0, 262143, false⟩] },
  { name := "BUF_LOW", off := 0x4c, fields := [⟨"LEVEL", 17, 0, .rw, 0x4000, 0, 262143, false⟩] },
  { name := "BUF_FREE", off := 0x50, fields := [⟨"FREE", 17, 0, .ro, 0x2f000, 0, 262143, false⟩] },
  { name := "BUF_MIN", off := 0x54, fields := [⟨"FREE", 17, 0, .rcMin, 0x2f000, 0, 262143, false⟩] },
  { name := "BUF_HELD_DOWN", off := 0x58, fields := [⟨"CELLS", 17, 0, .ro, 0, 0, 262143, false⟩] },
  { name := "BUF_HELD_UP", off := 0x5c, fields := [⟨"CELLS", 17, 0, .ro, 0, 0, 262143, false⟩] },
  { name := "DROP_A", off := 0x60, fields := [⟨"FLOW_FULL", 31, 16, .rc, 0, 0, 65535, false⟩, ⟨"BUF_FULL", 15, 0, .rc, 0, 0, 65535, false⟩] },
  { name := "DROP_B", off := 0x64, fields := [⟨"EGRESS_FULL", 31, 16, .rc, 0, 0, 65535, false⟩, ⟨"HOST", 15, 8, .rc, 0, 0, 255, false⟩, ⟨"DISCARD", 7, 0, .rc, 0, 0, 255, false⟩] },
  { name := "POLICE", off := 0x68, fields := [⟨"RED", 31, 16, .rc, 0, 0, 65535, false⟩, ⟨"YELLOW", 15, 0, .rc, 0, 0, 65535, false⟩] },
  { name := "LAST_EVENT", off := 0x6c, fields := [⟨"KIND", 31, 28, .ro, 0, 0, 15, false⟩, ⟨"INDEX", 13, 0, .ro, 0, 0, 16383, false⟩] },
  { name := "PENDING", off := 0x70, fields := [⟨"ENTRIES", 10, 0, .ro, 0, 0, 2047, false⟩] },
  { name := "PORT_STAT", off := 0x100, stride1 := 0x4, count1 := 32, fields := [⟨"WAITING", 27, 16, .ro, 0, 0, 4095, false⟩, ⟨"SELECTED", 15, 8, .ro, 0, 0, 255, false⟩, ⟨"STAGED", 5, 0, .ro, 0, 0, 63, false⟩] } ]

/-- Registers of the QFLOW page (or of each of its pages), after the common header. -/
def qflowRegs : List RegDesc := [
  { name := "SEL", off := 0x40, fields := [⟨"FLOW", 13, 0, .rw, 0, 0, 16383, false⟩] },
  { name := "CFG", off := 0x44, fields := [⟨"SPREAD", 31, 31, .rw, 1, 0, 1, true⟩, ⟨"MODE", 30, 29, .rw, 0, 0, 2, true⟩, ⟨"CLASS", 26, 24, .rw, 0, 0, 7, true⟩, ⟨"PORT", 20, 16, .rw, 0, 0, 31, true⟩, ⟨"WEIGHT", 15, 0, .rw, 0x400, 1, 65535, true⟩] },
  { name := "SHAPER", off := 0x48, fields := [⟨"DEBT_FORGIVE", 31, 31, .wo, 0, 0, 1, false⟩, ⟨"CIR", 19, 0, .rw, 0, 0, 1048575, true⟩] },
  { name := "SHAPER_P", off := 0x4c, fields := [⟨"DEBT_FORGIVE", 31, 31, .wo, 0, 0, 1, false⟩, ⟨"PIR", 19, 0, .rw, 0, 0, 1048575, true⟩] },
  { name := "BURST", off := 0x50, fields := [⟨"CBS", 22, 0, .rw, 0, 0, 8388607, true⟩] },
  { name := "BURST_P", off := 0x54, fields := [⟨"PBS", 22, 0, .rw, 0, 0, 8388607, true⟩] },
  { name := "LIMIT", off := 0x58, fields := [⟨"ALARM", 31, 16, .rw, 0, 0, 65535, true⟩, ⟨"LIMIT", 15, 0, .rw, 0x100, 1, 65535, true⟩] },
  { name := "STATUS", off := 0x5c, fields := [⟨"DEPTH", 31, 16, .ro, 0, 0, 65535, false⟩, ⟨"HWM", 15, 0, .rcMax, 0, 0, 65535, false⟩] },
  { name := "C_LEVEL_LO", off := 0x60, fields := [⟨"LEVEL", 31, 0, .ro, 0, 0, 4294967295, false⟩] },
  { name := "C_LEVEL_HI", off := 0x64, fields := [⟨"LEVEL", 3, 0, .ro, 0, 0, 15, false⟩] },
  { name := "P_LEVEL_LO", off := 0x68, fields := [⟨"LEVEL", 31, 0, .ro, 0, 0, 4294967295, false⟩] },
  { name := "P_LEVEL_HI", off := 0x6c, fields := [⟨"LEVEL", 3, 0, .ro, 0, 0, 15, false⟩] },
  { name := "TAG_LO", off := 0x70, fields := [⟨"TAG", 31, 0, .ro, 0, 0, 4294967295, false⟩] },
  { name := "TAG_HI", off := 0x74, fields := [⟨"TAG", 3, 0, .ro, 0, 0, 15, false⟩] },
  { name := "COUNT", off := 0x78, fields := [⟨"SENT", 31, 16, .rc, 0, 0, 65535, false⟩, ⟨"DROPPED", 15, 0, .rc, 0, 0, 65535, false⟩] } ]

/-- Registers of the QPCLS page (or of each of its pages), after the common header. -/
def qpclsRegs : List RegDesc := [
  { name := "SEL", off := 0x40, fields := [⟨"PCLASS", 7, 0, .rw, 0, 0, 255, false⟩] },
  { name := "CFG", off := 0x44, fields := [⟨"SHAPE_EN", 31, 31, .rw, 0, 0, 1, true⟩, ⟨"HI", 22, 0, .rw, 0, 0, 8388607, true⟩] },
  { name := "SHAPER", off := 0x48, fields := [⟨"DEBT_FORGIVE", 31, 31, .wo, 0, 0, 1, false⟩, ⟨"IDLE", 19, 0, .rw, 0, 0, 1048575, true⟩] },
  { name := "ALARM", off := 0x4c, fields := [⟨"DELAY", 31, 16, .rw, 0, 0, 65535, true⟩, ⟨"DEPTH", 15, 0, .rw, 0, 0, 65535, true⟩] },
  { name := "SAMPLE", off := 0x50, fields := [⟨"DELAY", 31, 16, .ro, 0, 0, 65535, false⟩, ⟨"DEPTH", 15, 0, .ro, 0, 0, 65535, false⟩] },
  { name := "HWM", off := 0x54, fields := [⟨"DELAY", 31, 16, .rcMax, 0, 0, 65535, false⟩, ⟨"DEPTH", 15, 0, .rcMax, 0, 0, 65535, false⟩] },
  { name := "CREDIT_LO", off := 0x58, fields := [⟨"CREDIT", 31, 0, .ro, 0, 0, 4294967295, false⟩] },
  { name := "CREDIT_HI", off := 0x5c, fields := [⟨"CREDIT", 3, 0, .ro, 0, 0, 15, false⟩] },
  { name := "VTIME_LO", off := 0x60, fields := [⟨"V", 31, 0, .ro, 0, 0, 4294967295, false⟩] },
  { name := "VTIME_HI", off := 0x64, fields := [⟨"V", 3, 0, .ro, 0, 0, 15, false⟩] },
  { name := "COUNT", off := 0x68, fields := [⟨"SELECTED", 31, 0, .rc, 0, 0, 4294967295, false⟩] } ]

/-- Registers of the QEGR page (or of each of its pages), after the common header. -/
def qegrRegs : List RegDesc := [
  { name := "SEL", off := 0x40, fields := [⟨"PORT", 6, 6, .rw, 0, 0, 1, false⟩, ⟨"QUEUE", 5, 0, .rw, 0, 0, 63, false⟩] },
  { name := "CFG", off := 0x44, fields := [⟨"PRIO", 31, 31, .rw, 0, 0, 1, true⟩, ⟨"WEIGHT", 15, 0, .rw, 0x400, 1, 65535, true⟩] },
  { name := "SHAPER", off := 0x48, fields := [⟨"DEBT_FORGIVE", 31, 31, .wo, 0, 0, 1, false⟩, ⟨"RATE", 23, 0, .rw, 0, 0, 16777215, true⟩] },
  { name := "BURST", off := 0x4c, fields := [⟨"BYTES", 23, 0, .rw, 0x2400, 0, 16777215, true⟩] },
  { name := "LIMIT", off := 0x50, fields := [⟨"CELLS", 17, 0, .rw, 0x1000, 1, 192512, true⟩] },
  { name := "STATUS", off := 0x54, fields := [⟨"CELLS", 17, 0, .ro, 0, 0, 262143, false⟩] },
  { name := "HWM", off := 0x58, fields := [⟨"PEAK", 17, 0, .rcMax, 0, 0, 262143, false⟩] },
  { name := "LEVEL_LO", off := 0x5c, fields := [⟨"LEVEL", 31, 0, .ro, 0x2400, 0, 4294967295, false⟩] },
  { name := "LEVEL_HI", off := 0x60, fields := [⟨"LEVEL", 3, 0, .ro, 0, 0, 15, false⟩] },
  { name := "TAG_LO", off := 0x64, fields := [⟨"TAG", 31, 0, .ro, 0, 0, 4294967295, false⟩] },
  { name := "TAG_HI", off := 0x68, fields := [⟨"TAG", 3, 0, .ro, 0, 0, 15, false⟩] },
  { name := "VTIME_LO", off := 0x6c, fields := [⟨"V", 31, 0, .ro, 0, 0, 4294967295, false⟩] },
  { name := "VTIME_HI", off := 0x70, fields := [⟨"V", 3, 0, .ro, 0, 0, 15, false⟩] },
  { name := "COUNT", off := 0x74, fields := [⟨"SENT", 31, 16, .rc, 0, 0, 65535, false⟩, ⟨"DROPPED", 15, 0, .rc, 0, 0, 65535, false⟩] } ]

/-- Registers of the QMAP page (or of each of its pages), after the common header. -/
def qmapRegs : List RegDesc := [
  { name := "CTRL", off := 0x40, fields := [⟨"BRZ_QUEUE", 29, 24, .rw, 0x3f, 0, 63, true⟩, ⟨"CTRL_FLOW", 13, 0, .rw, 0, 0, 16383, true⟩] },
  { name := "NON_IP", off := 0x44, fields := [⟨"TARGET", 9, 8, .rw, 2, 0, 3, true⟩, ⟨"QUEUE", 5, 0, .rw, 0, 0, 63, true⟩] },
  { name := "DSCP_FLOW", off := 0x100, stride1 := 0x4, count1 := 64, fields := [⟨"FLOW", 13, 0, .rw, 0, 0, 16383, true⟩] },
  { name := "UP_MAP", off := 0x200, stride1 := 0x4, count1 := 64, fields := [⟨"TARGET", 9, 8, .rw, 0, 0, 3, true⟩, ⟨"QUEUE", 5, 0, .rw, 0, 0, 63, true⟩] } ]

/-- Registers of the BHL page (or of each of its pages), after the common header. -/
def bhlRegs : List RegDesc := [
  { name := "CFG", off := 0x40, fields := [⟨"SPEED", 29, 28, .rw, 0, 0, 1, true⟩, ⟨"TAG", 12, 12, .rw, 0, 0, 1, true⟩, ⟨"VID", 11, 0, .rw, 0, 0, 4095, true⟩] },
  { name := "LINK", off := 0x44, fields := [⟨"MODULE", 3, 3, .ro, 0, 0, 1, false⟩, ⟨"VSFP", 2, 2, .ro, 0, 0, 1, false⟩, ⟨"FEC_LOCK", 1, 1, .ro, 0, 0, 1, false⟩, ⟨"UP", 0, 0, .ro, 0, 0, 1, false⟩] },
  { name := "GW_MAC_LO", off := 0x48, fields := [⟨"MAC", 31, 0, .rw, 0, 0, 4294967295, true⟩] },
  { name := "GW_MAC_HI", off := 0x4c, fields := [⟨"MAC", 15, 0, .rw, 0, 0, 65535, true⟩] },
  { name := "ADDR", off := 0x50, stride1 := 0x4, count1 := 4, fields := [⟨"BITS", 31, 0, .rw, 0, 0, 4294967295, true⟩] },
  { name := "BRZ_CFG", off := 0x60, fields := [⟨"TIMEOUT_S", 31, 24, .rw, 0x1e, 5, 255, true⟩, ⟨"PACE", 7, 0, .rw, 0x20, 1, 255, true⟩] },
  { name := "FRAMES", off := 0x64, fields := [⟨"RX", 31, 16, .rc, 0, 0, 65535, false⟩, ⟨"TX", 15, 0, .rc, 0, 0, 65535, false⟩] },
  { name := "DROP", off := 0x68, fields := [⟨"BAD", 31, 16, .rc, 0, 0, 65535, false⟩, ⟨"BRZ", 15, 0, .rc, 0, 0, 65535, false⟩] },
  { name := "BRZ_LAST", off := 0x6c, fields := [⟨"CAUSE", 3, 0, .ro, 0, 0, 15, false⟩] },
  { name := "SESS", off := 0x70, stride1 := 0x8, count1 := 4, fields := [⟨"OPEN", 31, 31, .ro, 0, 0, 1, false⟩, ⟨"RX_SUB", 19, 16, .ro, 0, 0, 15, false⟩, ⟨"TM_SUB", 9, 9, .ro, 0, 0, 1, false⟩, ⟨"EV_SUB", 8, 8, .ro, 0, 0, 1, false⟩, ⟨"IDLE_S", 7, 0, .ro, 0, 0, 255, false⟩] },
  { name := "SEQ", off := 0x74, stride1 := 0x8, count1 := 4, fields := [⟨"DGSEQ", 31, 0, .ro, 0, 0, 4294967295, false⟩] } ]

/-- Registers of the PTP page (or of each of its pages), after the common header. -/
def ptpRegs : List RegDesc := [
  { name := "CFG", off := 0x40, fields := [⟨"DOMAIN", 31, 24, .rw, 0, 0, 255, true⟩, ⟨"PORT", 12, 12, .rw, 0, 0, 1, true⟩, ⟨"TRANSPORT", 9, 8, .rw, 1, 0, 1, true⟩, ⟨"PPS_FREE", 1, 1, .rw, 0, 0, 1, true⟩, ⟨"PPS_OUT_EN", 0, 0, .rw, 0, 0, 1, true⟩] },
  { name := "SERVO", off := 0x44, fields := [⟨"LOCKED", 1, 1, .ro, 0, 0, 1, false⟩, ⟨"SYNC_SEEN", 0, 0, .ro, 0, 0, 1, false⟩] },
  { name := "OFFSET", off := 0x48, fields := [⟨"NS", 31, 0, .ro, 0, 0, 4294967295, false⟩] },
  { name := "GM_LO", off := 0x4c, fields := [⟨"ID", 31, 0, .ro, 0, 0, 4294967295, false⟩] },
  { name := "GM_HI", off := 0x50, fields := [⟨"ID", 31, 0, .ro, 0, 0, 4294967295, false⟩] },
  { name := "PPS_IN_LO", off := 0x54, fields := [⟨"SYSTIME", 31, 0, .ro, 0, 0, 4294967295, false⟩] },
  { name := "PPS_IN_HI", off := 0x58, fields := [⟨"SYSTIME", 31, 0, .ro, 0, 0, 4294967295, false⟩] },
  { name := "COUNT", off := 0x5c, fields := [⟨"SYNC", 31, 16, .rc, 0, 0, 65535, false⟩, ⟨"STEPS", 15, 0, .rc, 0, 0, 65535, false⟩] } ]

/-- Registers of the LOWPAN page (or of each of its pages), after the common header. -/
def lowpanRegs : List RegDesc := [
  { name := "CFG", off := 0x40, fields := [⟨"REASM_S", 31, 24, .rw, 0xa, 1, 60, true⟩, ⟨"REASM_MAX", 10, 0, .rw, 0x400, 1, 1024, true⟩] },
  { name := "PFX_SEL", off := 0x44, fields := [⟨"PAN", 6, 0, .rw, 0, 0, 127, false⟩] },
  { name := "PFX_LO", off := 0x48, fields := [⟨"PREFIX", 31, 0, .rw, 0, 0, 4294967295, true⟩] },
  { name := "PFX_HI", off := 0x4c, fields := [⟨"PREFIX", 31, 0, .rw, 0, 0, 4294967295, true⟩] },
  { name := "REASM", off := 0x50, fields := [⟨"PEAK", 26, 16, .rcMax, 0, 0, 2047, false⟩, ⟨"ACTIVE", 10, 0, .ro, 0, 0, 2047, false⟩] },
  { name := "ERR", off := 0x54, fields := [⟨"COUNT", 31, 16, .rc, 0, 0, 65535, false⟩, ⟨"LAST_CAUSE", 3, 0, .ro, 0, 0, 15, false⟩] },
  { name := "COUNT", off := 0x58, fields := [⟨"DOWN", 31, 16, .rc, 0, 0, 65535, false⟩, ⟨"UP", 15, 0, .rc, 0, 0, 65535, false⟩] } ]

/-- Registers of the PCIE page (or of each of its pages), after the common header. -/
def pcieRegs : List RegDesc := [
  { name := "LINK", off := 0x40, fields := [⟨"UP", 8, 8, .ro, 0, 0, 1, false⟩, ⟨"WIDTH", 7, 4, .ro, 0, 0, 15, false⟩, ⟨"SPEED", 3, 0, .ro, 0, 0, 15, false⟩] },
  { name := "SUBSYS", off := 0x44, fields := [⟨"SID", 31, 16, .rw, 0x6032, 0, 65535, true⟩, ⟨"SVID", 15, 0, .rw, 0x1f8d, 0, 65535, true⟩] },
  { name := "ERR", off := 0x48, fields := [⟨"CORR", 31, 16, .rc, 0, 0, 65535, false⟩, ⟨"UNCORR", 15, 0, .rc, 0, 0, 65535, false⟩] },
  { name := "FLR", off := 0x4c, fields := [⟨"COUNT", 15, 0, .rc, 0, 0, 65535, false⟩] } ]

/-- The registers of a page, after the common header (R51, R509); none for an unassigned page (R52). -/
def pageRegs : Nat → List RegDesc
  | 0x00 => sysRegs
  | 0x01 => pwrRegs
  | 0x02 => clkRegs
  | 0x03 => bistRegs
  | 0x04 => laneRegs
  | 0x05 => hostRegs
  | 0x06 => irqRegs
  | 0x07 => evcRegs
  | 0x08 => timRegs
  | 0x09 => gpioRegs
  | 0x0a => coexRegs
  | 0x0b => vaultRegs
  | 0x0c => updRegs
  | 0x0d => svcRegs
  | 0x0e => pawnRegs
  | 0x0f => secRegs
  | 0x10 | 0x11 | 0x12 | 0x13 => rfgRegs
  | 0x14 => calRegs
  | 0x15 => rxpRegs
  | 0x16 => txpRegs
  | 0x18 | 0x19 | 0x1a | 0x1b => macRegs
  | 0x1c => sheetRegs
  | 0x20 => dirRegs
  | 0x21 => tmemRegs
  | 0x24 | 0x25 | 0x26 | 0x27 => fwdRegs
  | 0x28 => qschRegs
  | 0x29 => qflowRegs
  | 0x2a => qpclsRegs
  | 0x2b => qegrRegs
  | 0x2c => qmapRegs
  | 0x30 | 0x31 => bhlRegs
  | 0x32 => ptpRegs
  | 0x33 => lowpanRegs
  | 0x34 => pcieRegs
  | _ => []

/-- Whether a page is assigned (R51, R52). -/
def pageAssigned (p : Nat) : Bool :=
  p ≤ 0x16 || (0x18 ≤ p && p ≤ 0x1C) || p == 0x20 || p == 0x21 || (0x24 ≤ p && p ≤ 0x2F) || (0x30 ≤ p && p ≤ 0x34)

/-- Every assigned page number. The parameter windows 0x2D to 0x2F hold only the common header (R428). -/
def assignedPages : List Nat := (List.range 0x35).filter pageAssigned

end Sys2Proof.Machine
end

