-- ==== Sys2Proof/Machine/SMap.lean ====
section
/-! DEFINITION. Sparse storage in one canonical form: a list of (key, value) pairs, keys strictly rising, and no
entry equal to what an unlisted key reads as. The register file, the configuration store, table memory and every
other keyed store of the machine use it. -/

namespace Sys2Proof.Machine

/-- What key `k` reads as: its entry, or the default `d k`. -/
def SMap.get {α : Type} (d : Nat → α) : List (Nat × α) → Nat → α
  | [], k => d k
  | (k', v) :: t, k => if k = k' then v else SMap.get d t k

/-- The store with key `k` removed. -/
def SMap.erase {α : Type} : List (Nat × α) → Nat → List (Nat × α)
  | [], _ => []
  | (k', v) :: t, k => if k = k' then t else (k', v) :: SMap.erase t k

/-- The store with key `k` entered at its place, before every greater key. -/
def SMap.insert {α : Type} : List (Nat × α) → Nat → α → List (Nat × α)
  | [], k, v => [(k, v)]
  | (k', v') :: t, k, v =>
    if k < k' then (k, v) :: (k', v') :: t
    else if k = k' then (k, v) :: t
    else (k', v') :: SMap.insert t k v

/-- The store with key `k` reading as `v`: an entry, or no entry where `v` is what an unlisted key reads as. -/
def SMap.set {α : Type} [DecidableEq α] (d : Nat → α) (m : List (Nat × α)) (k : Nat) (v : α) : List (Nat × α) :=
  if v = d k then SMap.erase m k else SMap.insert m k v

/-- Keys strictly rising from above `lo`, and no entry equal to its default: the canonical form, from a bound on. -/
def SMap.wfFrom {α : Type} [DecidableEq α] (d : Nat → α) : Nat → List (Nat × α) → Bool
  | _, [] => true
  | lo, (k, v) :: t => decide (lo ≤ k) && decide (v ≠ d k) && SMap.wfFrom d (k + 1) t

/-- The canonical form of a store. -/
def SMap.wf {α : Type} [DecidableEq α] (d : Nat → α) (m : List (Nat × α)) : Bool := SMap.wfFrom d 0 m

end Sys2Proof.Machine
end

