-- ==== Sys2Proof/Config.lean ====
section
/-! DEFINITION. What one device or one run fixes and the spec does not: device identity, keys of OTP, and measured or random
quantities. Every constant here is opaque: it has no body,
nothing in Lean can evaluate it, and a statement holds for every value of it.
A constant named `free…` is applied to a counter of State that each use advances. -/

namespace Sys2Proof.Config

/-- The 64-bit extended address BR_ID that OTP holds (R511). One per device. -/
opaque brId : BitVec 64

/-- SYS.ID.GRADE that OTP holds: 1 or 2 (R511); `true` is grade 1, AQB6032-IB (R1). -/
opaque gradeIB : Bool

/-- A free value of any natural range: the n-th value that the device or its surroundings supply where the
spec states none. -/
opaque freeNat : Nat → Nat

/-- A free bit. -/
opaque freeBool : Nat → Bool

/-- A free byte sequence of the stated length's source: byte i of draw n (an unstated message, nonce or key). -/
opaque freeByte : Nat → Nat → Byte

/-- The convolutional code and interleaver of SUN FSK (R249, R272), RSC or NRNSC, over the bits of PHR and PSDU. -/
opaque sunFec : Bool → List Bool → List Bool

/-- The cell that a filling of the frame store takes, among those of its pool (R404): by the number of the filling. -/
opaque cellOf : Nat → Nat

/-- A word of a frame-store cell (R404): the number of the filling that it shows, and its place in the cell, 0 to 63. -/
opaque cellWord : Nat → Nat → BitVec 36

/-- HEAD and TAIL of a flow's record (R423) while it holds frames: fillings of the frame store so far, flow, frames queued. -/
opaque flowEnds : Nat → Nat → Nat → BitVec 36

/-- The drift uncertainty of R308 where SPAN is 0 and the rule divides by it: a function of u + JITTER_US. -/
opaque duZeroSpan : Nat → Nat

/-- The Time Correction to a node with an ANCHOR whose frame carried no CSL IE (R318): directory entry, latched cycles. -/
opaque timeCorrNoCsl : Nat → Nat → Int

/-- Taps of the built-in half-sine filter, and of the built-in Gaussian filter (R271), as integers of some scale. -/
opaque halfSineTap : Nat → Int
opaque gaussianTap : Nat → Int

/-- The firmware image with which the unit left the factory (R486): its bytes. -/
opaque factoryImage : List Byte

/-- The device key that the first power-up drew (R336): its 16 octets. -/
opaque firstDeviceKey : Nat → Byte

/-- The vendor public key that OTP holds (R487): the coordinates of a point of P-256. -/
opaque vendorKey : Nat × Nat

end Sys2Proof.Config
end

