-- ==== Sys2Proof/Machine/State.lean ====
section
/-! DEFINITION. The machine's state as plain data: everything the spec gives the block, in groups by chapter, and
the queue of waiting commands.
Registers have one home, `Dev.regs`, keyed by host address (and by entry, for registers shown through a window); a
register whose value is made from other state has no entry there and is computed when it is read. -/

namespace Sys2Proof.Machine

/-- Where the device stands between power-off and release, and the power states of R84. -/
inductive Phase where
  | off | standby | resetHold | rails | load | selftest | copy | laneStart | calibration | releaseWait
  | safe | run | idle | sleep | resigning
  deriving DecidableEq, Repr

/-- A transition of R86 that is under way. -/
inductive Trans where
  | none | toIdle | toRun | toSleep | waking
  deriving DecidableEq, Repr

/-- Where a command came from, and so where its completion goes. -/
inductive Src where
  | ring (n hseq : Nat)
  | svc
  | none
  deriving DecidableEq, Repr

/-- A resignation record, as its fields (R99). -/
structure Rec where
  reason : Nat
  /-- Bit 0 SYSTIME synchronised, bit 1 trigger in SLEEP, bit 2 VIN absent at seal. -/
  flags : Nat
  seq : Nat
  systime : Nat
  aon : Nat
  tempo : Nat
  minutePos : Nat
  /-- Last accepted host sequence and last issued device sequence of each ring. -/
  rings : List (Nat × Nat)
  /-- Source and count of each event counter. -/
  events : List (Nat × Nat)
  /-- Minute bins of each sub-band slot, current bin first. -/
  duty : List (List Nat)
  /-- Next outgoing counter of each key slot that is not empty. -/
  fcnt : List (Nat × Nat)
  deriving DecidableEq, Repr

/-- Power states, supplies and start-up (03, 04). -/
structure Power where
  phase : Phase
  trans : Trans
  /-- T at which the SLEEP request under way was made (R86). -/
  sleepAskedAt : Nat
  /-- Reception restarts at the next boundary (R86, IDLE to RUN). -/
  rxRestart : Bool
  pwrGood : Bool
  vout3v3 : Bool
  /-- VIN at or above the sag threshold of 9.5 V; VBAK at or above 2.3 V. -/
  vinPresent : Bool
  vbakOk : Bool
  /-- Windows of R90 within limit in a row since grants were refused, up to three. -/
  goodWindows : Nat
  /-- The always-on counter in 1/390625 of a slow tick, of which a core cycle is 32, as last reported (R89). -/
  aonAcc : Nat
  /-- Slow ticks of the present SLEEP that `aonAcc` already counts. -/
  aonSlept : Nat
  /-- The counter has been kept valid, and was valid at this start (R80, R83). -/
  aonValid : Bool
  aonLost : Bool
  /-- T of the latest measurement of the bank; none where that of this start is still to come (R93). -/
  bankT : Option Nat
  /-- The sealed buffer being saved (R96), and the bytes written to each of the two MRAM slots (R97): none, or 0x6064. -/
  saving : Option (List Byte)
  records : List (List Byte)
  /-- The lane that saves (R193): the live lane with the highest claim at the cut. -/
  saveLane : Option Nat
  /-- Event-counter sources and values of the resignation buffer: those of the latest boundary (R94). -/
  evcBuf : List (Nat × Nat)
  /-- The monotonic time of the ARM write whose window of 4 tempos is open (R124), in core cycles, and whether an accepted CONFIRM is being carried out (R125). -/
  armedAt : Option Nat
  erasing : Bool
  /-- BIST.TEST.ZEROISED in MRAM, and the mark of an erasure cut by a sag (R124, R125). -/
  zeroised : Bool
  eraseMark : Bool
  /-- The cause that the next power-up reports in BIST.RESET_CAUSE (R134). -/
  nextCause : Nat
  /-- The power-up self-test (R112): item, slices of it run, its slices in this run, whether this run is the retry, the first
  fault of this run as code and location, and the code recorded without failure. -/
  selfItem : Nat
  selfSlice : Nat
  selfRetry : Bool
  selfFault : Option (Nat × Nat)
  selfNote : Nat
  /-- The path test of item 6 runs on a cage. -/
  selfPath : Bool
  /-- Slices of the runtime self-test run in the present pass (R120). -/
  runtimeSlice : Nat
  /-- OPENING_END has been raised (R127). -/
  openEnded : Bool
  deriving DecidableEq, Repr

/-- The SRAM of a lane: its code region from byte 0 on, its data region (bytes 0x0028_0000 to 0x003F_FFFF) sparse with zero where nothing is
listed, and the ENTRY at which it last started (R492, R493). What firmware itself stores there, the spec does not say (log entry 130). -/
structure LaneMem where
  code : List Byte
  data : List (Nat × Byte)
  start : Nat
  deriving DecidableEq, Repr

/-- The control lanes beside the LANE page (06). -/
structure Lanes where
  /-- The SRAM of lanes A to D. -/
  mem : List LaneMem
  /-- An admission or the copy of a dry admission: the lane and the source of its copy; and whether the copy has ended. -/
  copy : Option (Nat × Nat)
  copied : Bool
  /-- The dry admission under way: its lane, its role before START, whether it runs in lockstep, whether ABORT was written,
  and whether a drop has turned it into an admission that is complete at the next boundary (R188, R189). -/
  dry : Option Nat
  dryPrev : Nat
  shadow : Bool
  dryAbort : Bool
  dryJoin : Bool
  /-- The output that each stage 0 to 4 has issued last (R177), and the signature that each lane presented at its latest mark, from which
  it folds anew (R181). -/
  issued : List (Option Nat)
  sigs : List (Option (BitVec 36))
  /-- Serial links of each RF die that the lanes have stopped using, by bit (R192). -/
  linkOut : List (BitVec 16)
  /-- T at which each lane's quarantine test ends (R183). -/
  quarEnd : List Nat
  /-- The mark of this tempo has been reached; the mark of an earlier tempo is still to come (R191). -/
  marked : Bool
  lateMark : Bool
  deriving DecidableEq, Repr

/-- The calibration sequencer of one group beside its registers (08). -/
structure CalGroup where
  /-- The conditions of R231 hold; T at which the present interval began (R232). -/
  on : Bool
  since : Nat
  /-- Tempos of the present interval, as ROUND.TEMPOS stood when it began (R232). -/
  interval : Nat
  /-- A calibration is due and waits for the previous one; the chain next in the round. -/
  due : Bool
  round : Nat
  /-- The step under way is a repeat (R228). -/
  again : Bool
  /-- The spare or the chain has settled through the tap, and the monotonic core cycle at which it did (R236). -/
  settled : Bool
  settledAt : Nat
  /-- Power-table words staged by PA steps: index, or 64 × sector + index on the spare, and the word. -/
  staged : List (Nat × Nat)
  /-- Trims staged by items 0 to 4, and the gain-code offsets of range 2H staged by PA steps (R224): the key of `trims` and
  the code. -/
  stagedTrims : List (Nat × Nat)
  /-- The last step is done, with the chain temperature then (°C); its results were committed at a boundary (R34, R234). -/
  temp : Int
  committed : Bool
  /-- Load in mW that the step of this tempo, or the guaranteed slice reserved for it, counts against the budget (R227). -/
  load : Nat
  /-- The spare's sector tables: 64 × sector + index, and the power-table word (R226); an entry not listed is as start-up
  calibration leaves it where every step succeeds (R225). -/
  spareTab : List (Nat × Nat)
  /-- Trims in force of chains 0 to 8 (R224): by 1,000 × chain + step for items 0 to 4, and by 1,000 × chain + 100 + entry for
  the gain-code offset of range 2H in group 2. One not listed is a free value of start-up calibration (`trimSeed`). -/
  trims : List (Nat × Nat)
  /-- Number of the free value from which the trims of start-up calibration come: those of a chain not listed in `trims`. -/
  trimSeed : Nat
  /-- The spare is to be SPARE_BAD after the swap back; the held port has lost its spare (R241). -/
  badAfter : Bool
  lost : Bool
  /-- The chain being calibrated was named in a request while the group is HELD. -/
  heldRun : Bool
  /-- The chain being calibrated ends the round (R232, R234). -/
  roundEnd : Bool
  /-- Chain temperature at the last successful calibration, for rule 2 of R232. -/
  temps : List (Option Int)
  /-- The outstanding CAL_REQUEST: source, chains still to finish, chains that failed. -/
  req : Option (Src × List Nat × Nat)
  deriving DecidableEq, Repr

/-- A staging slot of MRAM (R488): its descriptor and the bytes written to it. State 0 EMPTY, 1 WRITING, 2 VALID,
3 FAILED. -/
structure FwSlot where
  state : Nat
  seq : Nat
  version : Nat
  epoch : Nat
  handover : Nat
  bytes : List Byte
  deriving DecidableEq, Repr

/-- A PROMOTE under way (R493): its source, its slot, T at which Verify ended, T of boundary P, and whether the lanes run the new
firmware. -/
structure Promote where
  src : Src
  slot : Nat
  verified : Option Nat
  pausedAt : Option Nat
  restarted : Bool
  /-- T in which the new firmware reached its first end-of-tempo mark. -/
  ready : Option Nat
  /-- The resignation buffer as the held outputs left it at boundary P (R98, R493). -/
  held : Option Rec
  deriving DecidableEq, Repr

/-- Firmware update and the service port (17). -/
structure Firmware where
  slots : List FwSlot
  /-- RUN_SLOT, the recorded epoch, REQ_OWNER and VEHICLE, as MRAM keeps them. -/
  runSlot : Nat
  epoch : Nat
  reqOwner : Bool
  vehicle : Bool
  /-- TOTAL of the open staging session, and T of its latest accepted request (R489). -/
  session : Option Nat
  sessionT : Nat
  promote : Option Promote
  /-- A failed PROMOTE is to be reported at release: its slot (R495). -/
  failReport : Option Nat
  /-- The request being processed: TYPE, FSEQ, payload; the response held for READ; TYPE, FSEQ and CRC of the latest accepted
  request, and its stored response (R480 to R483). -/
  request : Option (Nat × Nat × List Byte)
  /-- The request's command has been executed, and has yet to complete. -/
  svcRan : Bool
  /-- The code that refuses the request by R491, as its conditions stood when it was accepted, and whether it repeats the latest
  one (R483, R491). -/
  blocked : Nat
  again : Bool
  response : Option (List Byte)
  latest : Option (Nat × Nat × Nat)
  stored : List Byte
  /-- The report of R119 as it stood at SAFE entry or release: the time from VIN to SAFE entry, µs. -/
  safeUs : Nat
  deriving DecidableEq, Repr

/-- The logic balls that can be driven, with cage, line and rate bit where there are several (R65). -/
inductive OutBall where
  | svcMiso | jtagTdo | coexReq | coexPri | irqN | pwrGood | ppsOut | clkreqN | wakeN
  | gpio (j : Fin 16)
  | status (i : Fin 4)
  | sfpScl (n : Fin 2)
  | sfpSda (n : Fin 2)
  | sfpTxDis (n : Fin 2)
  | sfpRate (n k : Fin 2)
  deriving DecidableEq, Repr

/-- Instructions of the JTAG port (R121, R123): `priv` stands for any private scan or memory-test instruction. -/
inductive JtagInstr where
  | bypass | idcode | samplePreload | extest | extestPulse | extestTrain | clamp | highz | priv
  deriving DecidableEq, Repr

/-- The TAP of the JTAG port (R121): the instruction in force, the levels in the boundary register's output cells, and in a shift
state the bit at JTAG_TDO. No row of the opcode table moves it but DEBUG_HALT. -/
structure Tap where
  instr : JtagInstr
  cells : List (OutBall × Bool)
  shifting : Option Bool
  deriving DecidableEq, Repr

/-- Levels at input balls (R65), and the JTAG port. SVC_SCK, SVC_MOSI, JTAG_TCK, JTAG_TMS and JTAG_TDI carry bit streams whose
transactions are the commands. -/
structure Pins where
  resetN : Bool
  testEn : Bool
  perstN : Bool
  /-- A 100 MHz reference clock is present on PCIE_REFP and PCIE_REFM (R66). -/
  refClk : Bool
  motion : Bool
  /-- MOTION has been high for 10 ms, and has not since been low for HOLD_S; T at which it last fell (R490). -/
  moved : Bool
  motionT : Nat
  coexGrant : Bool
  blank : BitVec 4
  gpio : BitVec 16
  capt : BitVec 4
  ppsIn : Bool
  svcCsN : Bool
  /-- SFP_MODABS_n is low, by cage; SFP_TXFLT_n and SFP_LOS_n are high. -/
  modPresent : BitVec 2
  sfpTxFlt : BitVec 2
  sfpLos : BitVec 2
  trstN : Bool
  tap : Tap
  deriving DecidableEq, Repr

/-- A command in flight on a ring (R156): accepted, perhaps begun, its completion perhaps issued and waiting. -/
structure Cmd where
  ring : Nat
  e : Entry
  begun : Bool
  /-- Its opcode has been executed. -/
  ran : Bool
  issued : Bool
  /-- The Brioz Link session that carried it, by the session's own number; none over PCI Express. -/
  sess : Option Nat
  deriving DecidableEq, Repr

/-- A completion (R151). -/
structure Compl where
  dseq : Nat
  tag : Nat
  hseq : Nat
  code : Nat
  cflags : Nat
  time : Nat
  result : List Byte
  deriving DecidableEq, Repr

/-- A completion that waits: for completion-ring space (PCIe), or for a datagram of its session (Brioz Link). `own` says
that its command is still in flight for it; a replay and a refusal of an entry never accepted have none. -/
structure Waiting where
  c : Compl
  own : Bool
  sess : Option Nat
  deriving DecidableEq, Repr

/-- The parts of a ring that no register shows. -/
structure Ring where
  /-- Completions held for RESYNC, oldest first, at most 4,096 (R159). -/
  held : List Compl
  /-- Completions that wait to leave, oldest first. -/
  waiting : List Waiting
  /-- Fetching stopped by a gap or duplicate (R154), until the next accepted doorbell write. -/
  stopped : Bool
  /-- Stopped by a DMA error or an endpoint reset (R158, R457): completions are held only, until EN is written 0 and 1. -/
  dead : Bool
  deriving DecidableEq, Repr

/-- What the machine shows outside itself, beside the levels of its balls. -/
inductive Out where
  | completion (ring slot : Nat) (phase : Bool) (c : Compl)
  | msix (vector : Nat) (sources : List Nat)
  | regRead (addr value : Nat)
  /-- A BAR2 read: the word, and whether the completion is poisoned (R147). -/
  | bar2Read (addr value : Nat) (poisoned : Bool)
  /-- A record in a slot of a PCIe receive ring: the record and frame (R265). -/
  | rxRecord (ring slot : Nat) (record : List Byte)
  /-- A routed frame sent on a backhaul port from an egress queue; `vlan` is the VID and PCP of its tag (R437, R438). -/
  | backhaulIp (port queue : Nat) (dstMac : Nat) (vlan : Option (Nat × Nat)) (p : IpPacket)
  /-- A voted output of stage 0 to 4 (R174, R177). -/
  | voted (stage value : Nat)
  /-- A frame on the air: its port, the device chain that carries it, the carrier in Hz, and the bits of SHR, PHR and PSDU, or of a mode N
  frame (R272). -/
  | air (port chain freq : Nat) (bits : List Bool) (filter : List Int)
  /-- A Brioz Link datagram: backhaul port, the VID and PCP of its tag, the address and UDP port it goes to, and the whole UDP payload
  (R437, R443). -/
  | datagram (port : Nat) (vlan : Option (Nat × Nat)) (addr udp : Nat) (payload : List Byte)
  /-- A fragment of such a datagram (R443): its identification, its offset in the UDP packet of 8 header bytes and the payload, whether more
  follow, and its bytes of the payload. -/
  | datagramPart (port : Nat) (vlan : Option (Nat × Nat)) (addr udp id offset : Nat) (more : Bool) (bytes : List Byte)
  /-- A Delay_Req to the chosen master: backhaul port, tag, and whether over UDP/IPv6 or IEEE 802.3 (R437, R451). -/
  | ptpDelayReq (port : Nat) (vlan : Option (Nat × Nat)) (udp : Bool)
  /-- Answers of the port itself; `vid` is that of their tag (R436, R437). A Packet Too Big has its source address (R441). -/
  | neighborAdvert (port : Nat) (vid : Option Nat) (target : Nat)
  | echoReply (port : Nat) (vid : Option Nat) (target : Nat)
  | packetTooBig (port : Nat) (vid : Option Nat) (src mtu : Nat)
  | moduleRead (port : Nat) (bytes : List Byte)
  /-- A service-port status byte or response frame (R479 to R483). -/
  | svcByte (b : Nat)
  | svcFrame (bytes : List Byte)
  deriving DecidableEq, Repr

/-- A Brioz Link session (R443 to R450, R370). -/
structure Session where
  /-- The model's own number of the session, never used twice. -/
  uid : Nat
  port : Nat
  /-- Number of the session within its port, 0 to 3. -/
  num : Nat
  /-- Source address and UDP port to which it is bound. -/
  peerAddr : Nat
  peerPort : Nat
  rxSub : Nat
  evSub : Nat
  /-- Session key K_S (R444). -/
  key : List Byte
  /-- DGSEQ values accepted: the highest and those within the 63 below it. -/
  seen : List Nat
  nextSeq : Nat
  /-- T of the latest authenticated datagram, of the OPEN_ACK and of the latest datagram sent; whether any has arrived. -/
  lastRxT : Nat
  openT : Nat
  lastTxT : Nat
  heard : Bool
  /-- Datagrams sent in this tempo. -/
  paced : Nat
  /-- SEQ of the next telemetry record to send. -/
  telemSeq : Nat
  deriving DecidableEq, Repr

/-- A page of the directory assigned to a short-address block of a PAN (R371, R372). -/
structure BlockPage where
  pan : Nat
  block : Nat
  page : Nat
  used : Nat
  deriving DecidableEq, Repr

/-- A prefix table entry in use (R379). -/
structure Prefix where
  index : Nat
  value : Nat
  count : Nat
  deriving DecidableEq, Repr

/-- A directory load under way (R385 to R388). -/
structure LoadJob where
  src : Src
  buf : Nat
  count : Nat
  next : Nat
  loaded : Nat
  updated : Nat
  failed : Nat
  firstFail : Nat
  firstCode : Nat
  deriving DecidableEq, Repr

/-- The frame store as reads of it show it (R404): how many cells have been filled since release, and the cells that have held anything, each
with the number of its latest filling, which stands for the words it then took. -/
structure Store where
  fills : Nat
  cells : List (Nat × Nat)
  deriving DecidableEq, Repr

/-- A write to table memory or MRAM that waits for the end of the PROMOTE pause (R494). -/
inductive HeldWrite where
  /-- A word from BAR2; housekeeping of a directory line; the action of a line's region on a UE; a word of configuration in MRAM. -/
  | word (a v : Nat)
  | keep (line : Nat)
  | ue (line : Nat)
  | cfg (key : Nat) (value : Reg)
  deriving DecidableEq, Repr

/-- The parts of table memory and the directory beside the words themselves (R45, R356 to R399). -/
structure Tables where
  /-- Writes that the PROMOTE pause holds, oldest first (R494). -/
  heldWrites : List HeldWrite
  /-- What the cells of the frame store have held since release (R404). -/
  store : Store
  /-- Table memory: sparse by word address; zero where nothing is listed (the Copy phase writes zero). -/
  mem : List (Nat × Word)
  /-- Lines that read as uncorrectable and that nothing has rewritten. -/
  ueLines : List Nat
  /-- Corrected lines whose write-back is pending, oldest first, and T of their correction (R45). -/
  writeBack : List (Nat × Nat)
  /-- UEs met in the scrub pass under way, and whether the pass began at line 0 with EN = 1 throughout. -/
  passUe : Nat
  passWhole : Bool
  /-- A new pass begins at line 0 at the next boundary (R364). -/
  scrubRestart : Bool
  blockMap : List BlockPage
  prefixes : List Prefix
  /-- Allocation cursor of each PAN (R293). -/
  cursors : List Nat
  loads : List LoadJob
  /-- T + 1 of the latest tempo in which loads processed records, 0 for none, and how many (R386). -/
  loadT : Nat
  loadN : Nat
  /-- T of the first full tempo of a timing clear (R378). -/
  clearFrom : Nat
  /-- Recent list of each pipeline, oldest first: origin and SYS.TEMPO (R392). -/
  recent : List (List (Nat × Nat))
  /-- Telemetry records queued: words 0 to 3 (R366), and the interval count. -/
  telemQueue : List (List Nat)
  telemCount : Nat
  /-- Quantities since the previous snapshot (R367). -/
  telemRf : Nat
  telemBufMin : Nat
  telemOverruns : Nat
  telemPoolPeak : List Nat
  telemRefused : List Nat
  telemChecked : List Nat
  telemSelected : List (Nat × Nat)
  deriving DecidableEq, Repr

/-- A key slot that is not EMPTY (R334): its content, as the newer valid MRAM copy holds it, and the volatile
NEXT_FCNT, reference count and reservation state. -/
structure KeySlot where
  slot : Nat
  /-- 1 ACTIVE, 2 EXHAUSTED, 3 DAMAGED. -/
  state : Nat
  type : Nat
  levels : Nat
  pan : Nat
  index : Nat
  gen : Nat
  key : List Byte
  next : Nat
  block : Nat
  /-- Directory entries bound to the slot. -/
  refs : Nat
  /-- A reservation of block + 1 is in progress (R346); it has failed and is retried each tempo (R347). -/
  reserving : Bool
  failed : Bool
  warned : Bool
  /-- T + 1 of the latest tempo counted as stalled (R347); 0 for none. -/
  stallT : Nat
  /-- T from which a failed reservation may be tried again (R347). -/
  retryT : Nat
  deriving DecidableEq, Repr

/-- One of the two MRAM copies of a key slot (R335): its generation byte, the attributes other than NEXT_FCNT and REFS, the key wrapped under
the device key (nothing in an EMPTY slot), and its CRC-32. -/
structure SlotCopy where
  gen : Nat
  state : Nat
  type : Nat
  levels : Nat
  pan : Nat
  index : Nat
  block : Nat
  wrapped : List Byte
  crc : Nat
  deriving DecidableEq, Repr

/-- The key store (R334 to R339). -/
structure KeyStore where
  slots : List KeySlot
  /-- Generation bytes of slots that are EMPTY, by slot (R335). -/
  gens : List (Nat × Nat)
  /-- The two MRAM copies of each slot that has been written, by slot (R335). -/
  copies : List (Nat × SlotCopy × SlotCopy)
  owner : Option (List Byte)
  /-- The device key, 16 bytes (R336). -/
  deviceKey : Option (List Byte)
  oseq : Nat
  lock : Bool
  deriving DecidableEq, Repr

/-- A frame that waits for a CCM* engine (R353): whether it is an acknowledgment, when it came (monotonic core cycles), and the cycles it
takes. -/
structure EngJob where
  ack : Bool
  came : Nat
  cycles : Nat
  deriving DecidableEq, Repr

/-- The four CCM* engines (R353): when each becomes free, and the frames that wait, in order of arrival. -/
structure Engines where
  free : List Nat
  queue : List EngJob
  deriving DecidableEq, Repr

/-- Where a transmission comes from (R32). -/
inductive TxKind where
  | raw | data | release | flood | beacon | assocResp | ack | packet | pawn
  deriving DecidableEq, Repr

/-- Where a transmission stands in the downlink path (R31). -/
inductive TxStage where
  /-- At step 2, not yet admitted. -/
  | step2
  /-- In its flow queue. -/
  | queued
  /-- Selected, or entered, at step 4. -/
  | step4
  /-- Stage 1 of R312: waits for its next hop's next frame. -/
  | awaitNode
  /-- Stage 2: held for the duty budget, or for channel occupancy. -/
  | dutyHeld
  | occHeld
  /-- Stage 3: in a backoff. -/
  | backoff
  /-- A round failed; the next one begins after 1 tempo or at the next usable window. -/
  | newRound
  /-- At step 5: to be checked; waiting for a counter block; held by the RF budget. -/
  | step5
  | fcntWait
  | occHeld5
  | budgetHeld
  /-- Granted, not yet voted; voted; displaced from its slot by a fixed-instant frame. -/
  | granted
  | voted
  | displaced
  /-- In the port's transmit slot. -/
  | slot
  | onAir
  /-- Stopped on air and completed: its ramp-down has still to end (R280, R287). -/
  | rampDown
  /-- Sent, waiting for its acknowledgment; unacknowledged, to be repeated. -/
  | ackWait
  | repeating
  deriving DecidableEq, Repr

/-- A transmission, from step 2 (or the step it enters at) to its completion. -/
structure Tx where
  id : Nat
  src : Src
  kind : TxKind
  stage : TxStage
  port : Nat
  phy : Nat
  /-- OPTS of R285, and the SUN FSK preamble in octets. -/
  opts : Nat
  preamble : Nat
  freq : Nat
  /-- Requested power, 0.25 dB units of dBm. -/
  power : Int
  cls : Nat
  flow : Nat
  /-- The measure L of R403, and the airtime predicted for the frame as it stands (R277), in µs. -/
  measure : Nat
  airtime : Nat
  /-- SYSTIME in ns; 0 for none. -/
  due : Nat
  latest : Nat
  notify : Bool
  /-- Destination handle, next hop, PAN index, and listen entry and channel of the next hop. -/
  dest : Option Nat
  hop : Option Nat
  pan : Option Nat
  entry : Nat
  chan : Nat
  /-- The MAC frame; none for TX_RAW, whose bytes are `bytes`. -/
  frame : Option MacFrame
  bytes : List Byte
  /-- Key slot, level and key identifier mode (R344). -/
  key : Option Nat
  level : Nat
  mode : Nat
  secured : Bool
  /-- The key with which it was secured (R344). -/
  keyBytes : List Byte
  timed : Bool
  /-- Planned ramp start in monotonic µs (R283, R310), and the number k of the window it is placed in. -/
  planned : Nat
  window : Nat
  be : Nat
  nb : Nat
  rounds : Nat
  retries : Nat
  /-- Airtime reserved against duty (R313) and against occupancy windows: window number and µs (R216). -/
  dutyRes : Nat
  occRes : List (Nat × Nat)
  /-- Number of the occupancy window from whose start a frame held for occupancy is checked again (R216). -/
  occNext : Nat
  /-- Order in which it was first held (R206, R313). -/
  heldNo : Nat
  vslot : Nat
  vchan : Nat
  /-- Power-table index chosen, and its load W in mW, while counted against the budget (R205, R206). -/
  index : Option Nat
  load : Nat
  counted : Bool
  clamped : Bool
  /-- Vault generation at the step-5 check. -/
  vgen : Nat
  lockWaited : Bool
  /-- The coexistence grant was denied and the command retries with a new lead (R212). -/
  denied : Bool
  chain : Nat
  /-- SYSTIME in ns at ramp start, and T then. -/
  rampStart : Nat
  admitT : Nat
  cells : Nat
  /-- The profile, filter set and mask set in force when its modulator started (R282): PROF_DATA word, coefficients, segments. -/
  profile : Option Nat
  filter : List Int
  mask : List Nat
  /-- Bias and gain codes with which the chain realises the entry (R203, R226): bits [31:16] of the entry's word. -/
  codes : Nat
  /-- Modulator start: the delay line is filling. -/
  filling : Bool
  /-- Pawn chain it belongs to: image and chain. -/
  pawn : Option (Nat × Nat)
  /-- T when a beacon was due. -/
  dueT : Nat
  /-- T from which an untimed repeat or new round may begin (R316, R320). -/
  readyT : Nat
  /-- Power-table index and actual airtime of its latest emission, where it was sent and is repeated (R286, R320). -/
  sentIndex : Option Nat
  sentAir : Nat
  /-- The next hop's ANCHOR when its window was chosen (R310). -/
  anchor : Nat
  /-- Fragments of one packet share a number (R409); 0 for none. -/
  pkt : Nat
  /-- It has been sent at least once, and waits for its acknowledgment or is being repeated. -/
  sent : Bool
  deriving DecidableEq, Repr

/-- A scheduled flood relay (R325). -/
structure Relay where
  id : Nat
  group : Nat
  pan : Option Nat
  hdr : FloodHdr
  frame : MacFrame
  /-- Word address of the Scoresheet entry. -/
  sheet : Nat
  delayUs : Nat
  deriving DecidableEq, Repr

/-- A NODE_SCAN under way (R327): its PAN, the next address, the addresses left, and the nodes scanned and newly adrift. -/
structure Scan where
  src : Src
  pan : Nat
  next : Nat
  left : Nat
  seen : Nat
  fresh : Nat
  /-- T + 1 of the latest tempo it worked in. -/
  batchT : Nat
  deriving DecidableEq, Repr

/-- A peer record (R301, R302): state 1 PRESENT, 2 ABSENT, 3 ADOPTABLE, 4 ADOPTED. -/
structure Peer where
  index : Nat
  brId : Nat
  panId : Nat
  group : Nat
  interval : Nat
  blocks : Nat
  heardT : Nat
  state : Nat
  absentT : Nat
  deriving DecidableEq, Repr

/-- Airtime counted in an occupancy window (R216): vault slot, channel, window, µs. -/
structure OccBin where
  vslot : Nat
  chan : Nat
  window : Nat
  us : Nat
  deriving DecidableEq, Repr

/-- A burn of a vault generation under way (R220). -/
structure VaultBurn where
  src : Src
  gen : Nat
  words : List (Nat × Nat)
  verified : Bool
  deriving DecidableEq, Repr

/-- The regulatory vault (R214 to R220): the 514 words of each generation written in OTP, sparse by generation × 1,024 + word:
word 0 the magic, number and zero byte, words 1 to 512 the slot records, word 513 the CRC. -/
structure Vault where
  words : List (Nat × Reg)
  used : Nat
  /-- Generations used and found invalid, as VAULT.GEN.BAD shows them. -/
  bad : Nat
  inForce : Option Nat
  burn : Option VaultBurn
  deriving DecidableEq, Repr

/-- Radio and medium access (07, 10, 11). -/
structure Radio where
  txs : List Tx
  nextTx : Nat
  nextHeld : Nat
  /-- Frequency to which each chain's transmit synthesiser is set, Hz. -/
  synth : List Nat
  /-- Groups blanked by BLANK_g, and groups in its extension (R209). -/
  blankExt : List Bool
  blankTail : List Bool
  /-- By port, the monotonic core cycle at which the gap of its latest swap ends (R237, R259). -/
  gapEnd : List Nat
  /-- Monotonic core cycle at which the latest ramp-down of each port ended (R207, R208); 0 before the first. -/
  rampDown : List Nat
  vault : Vault
  /-- Rolling hour of each vault slot: current minute bin first (R313); airtime ended in this tempo. -/
  duty : List (List Nat)
  dutyEnded : List Nat
  /-- T of the latest minute boundary at which the bins rolled. -/
  rolledT : Nat
  occ : List OccBin
  /-- DERATE_g in 0.25 dB units, and the junction temperature sampled (R204, R527). -/
  derate : List Int
  /-- Descriptor commits pending per group: PAN and nine words (R328). -/
  panPending : List (Option (Nat × List Nat))
  /-- Staging copy of the selected filter or mask set, and the pending commit: its set and words (R288). -/
  staging : List Nat
  setPending : Option (Nat × List Nat)
  /-- Profile writes that await the boundary: register key and value (R288). -/
  profPending : List (Nat × Nat)
  peers : List Peer
  relays : List Relay
  nextRelay : Nat
  /-- Counters of each PAN: beacon sequence, MAC sequence, flood sequence, datagram tag. -/
  beaconSeq : List Nat
  macSeq : List Nat
  floodSeq : List Nat
  dgTag : List Nat
  /-- ADMIT as it stands in this tempo, and requests granted against it (R128, R131). -/
  admitLimit : Nat
  admitUsed : Nat
  /-- Extra beacons sent: PAN, port, T (R300). -/
  extraBeacons : List (Nat × Nat × Nat)
  /-- T of the latest beacon that R297 made due of each PAN on each port. -/
  dueBeacons : List (Nat × Nat × Nat)
  /-- Scans under way (R327). -/
  scans : List Scan
  deriving DecidableEq, Repr

/-- What a port latches at the end of a synchronising word (R256): strength in 0.5 dB units, SNR in 0.125 dB units, offset
in 10 Hz units, SYSTIME in ns, SYS.TEMPO, cycle, the monotonic time in core cycles, the distance found, and whether
SYNC_ALT matched. -/
structure Latch where
  strength : Int
  snr : Int
  cfo : Int
  time : Nat
  tempo : Nat
  cycle : Nat
  mono : Nat
  errs : Nat
  alt : Bool
  deriving DecidableEq, Repr

/-- A demodulator context that is not FREE (R254): SEARCH until its latch is set, then BODY. -/
structure Ctx where
  id : Nat
  port : Nat
  group : Nat
  entry : Nat
  chan : Nat
  /-- The listen entry as it stood when the context was granted. -/
  words : List Nat
  latch : Option Latch
  /-- Amplitude and noise power of each merged port's stream at its word, of which the quotient is its weight (R259). -/
  weights : List (Nat × Nat × Nat)
  /-- Its merge window is open (R258). -/
  window : Bool
  /-- Ports whose streams it holds, with each merged port's strength, ascending. -/
  members : List (Nat × Int)
  /-- SNR of the combined signal (R260), in 0.125 dB units. -/
  snr : Int
  /-- Device chain that carried the primary's stream when its word was found. -/
  chain : Nat
  combined : Bool
  straddle : Bool
  blanked : Bool
  /-- Ports of weight 0 from some moment on: out of service, without a locked LO, or blanked while combined (R261). -/
  lost : List Nat
  deriving DecidableEq, Repr

/-- A frame that has left CHECK (R260, R264). -/
structure RxFrame where
  /-- Its place in the order of leaving CHECK (R265). -/
  no : Nat
  group : Nat
  port : Nat
  entry : Nat
  chan : Nat
  phy : Nat
  /-- Centre of its channel, Hz, under the entry as it stood when its context was granted (R254). -/
  freq : Nat
  latch : Latch
  members : List (Nat × Int)
  lq : Nat
  device : Nat
  combined : Bool
  straddle : Bool
  blanked : Bool
  ok : Bool
  fec : Nat
  frame : MacFrame
  bytes : List Byte
  deriving DecidableEq, Repr

/-- A record that waits in the backlog of a receive ring, with its frame and the cells it holds. -/
structure RxRec where
  record : List Byte
  frame : List Byte
  cells : Nat
  deriving DecidableEq, Repr

/-- A receive ring's parts that no register shows (R265 to R267). -/
structure RxRing where
  nextSeq : Nat
  backlog : List RxRec
  /-- Records written since its record bit was last set. -/
  since : Nat
  deriving DecidableEq, Repr

/-- Reception (09). -/
structure Rx where
  ctxs : List Ctx
  nextCtx : Nat
  /-- Input queue of each pipeline, oldest first (R268). -/
  queues : List (List RxFrame)
  /-- Number of the next frame to leave CHECK. -/
  nextNo : Nat
  /-- Frames for a receive ring, with their kind, that wait for MAC frames that left CHECK before them (R265). -/
  parked : List (RxFrame × Nat)
  rings : List RxRing
  /-- LNA gain step of each chain (R246). -/
  gain : List Nat
  /-- A listen-entry commit that awaits its boundary: group, entry, words (R270). -/
  pending : Option (Nat × Nat × List Nat)
  deriving DecidableEq, Repr

/-- A reassembly in progress (R442): PAN and link-layer source, tag, size, fragments received, T of the first, cells. -/
structure Reasm where
  pan : Nat
  src : Addr
  tag : Nat
  size : Nat
  parts : List (Nat × List Byte)
  /-- Its UDP checksum was elided, and is computed once the datagram is whole. -/
  elided : Bool
  startT : Nat
  cells : Nat
  deriving DecidableEq, Repr

/-- Backhaul, 6LoWPAN, Brioz Link and PTP (15). -/
structure Backhaul where
  reasm : List Reasm
  /-- Source MAC address of the latest Router Advertisement of each port. -/
  raMac : List (Option Nat)
  /-- T at which a cage's supply came up, and whether an over-current shut-off holds it off (R68). -/
  moduleT : List Nat
  overcurrent : List Bool
  /-- Whether each port runs at 25 Gb/s since its latest link training (R433). -/
  mode : List Bool
  /-- T of recent Packet Too Big messages, by port (R441). -/
  tooBig : List (Nat × Nat)
  /-- HDATA that awaits its boundary: session, word address, bytes (R450). -/
  hdata : List (Nat × Nat × List Byte)
  nextUid : Nat
  nextPkt : Nat
  /-- Event records gathered for each session, oldest first: session and the 24-byte record; sources a record was sent for
  in this tempo, and deliveries folded into the next record of a source (R166). -/
  events : List (Nat × List Byte)
  evSent : List Nat
  /-- Brioz Link datagrams that wait for the end of the PROMOTE pause (R494): port, address, UDP port, bytes. -/
  heldDg : List (Nat × Nat × Nat × List Byte)
  evFold : List (Nat × Nat)
  masters : List PtpMaster
  chosen : Option PtpMaster
  /-- Consecutive offsets within ±1 µs, up to 16 (R453). -/
  within : Nat
  /-- What remains to be slewed, in units of 2^-32 ns. -/
  slew : Int
  ppsOut : Bool
  /-- PCIE.SUBSYS as read at power-up: what the endpoint's configuration space shows (R456, R461). -/
  subsys : Nat
  deriving DecidableEq, Repr

/-- What an egress queue carries. -/
inductive EgrBody where
  | ip (p : IpPacket)
  /-- A Brioz Link datagram: its session (0 for none), the address and UDP port it goes to, and the whole UDP payload. -/
  | datagram (uid addr udp : Nat) (payload : List Byte)
  deriving DecidableEq, Repr

/-- A frame in a backhaul egress queue (R422): queue 64 × port + queue, bytes, cells. -/
structure EgrFrame where
  queue : Nat
  len : Nat
  cells : Nat
  body : EgrBody
  deriving DecidableEq, Repr

/-- Scheduler state of a port-class that no register shows (R420). -/
structure PcState where
  q : Nat
  /-- Longest wait of a frame selected in this tempo. -/
  maxWait : Nat
  /-- T at which it last went from empty to holding frames, and T of its last selection (0 before the first). -/
  filledT : Nat
  lastSelT : Nat
  deriving DecidableEq, Repr

/-- The scheduler (14). -/
structure Sched where
  /-- Pending configuration: register key and value (R413). -/
  pending : List (Nat × Nat)
  /-- Writes with DEBT_FORGIVE among them: register key. -/
  forgive : List Nat
  egress : List EgrFrame
  selected : List Nat
  pcs : List PcState
  /-- BUF_LOW has been signalled and not re-armed (R406). -/
  lowSent : Bool
  /-- Cells of discarded flows that a scan of cell headers has still to return (R424). -/
  orphanCells : Nat
  deriving DecidableEq, Repr

/-- A planned pawn chain (R499, R504): state 0 WAITING, 1 SETUP, 2 FEEDING, 3 DRAINING, 4 DONE, 5 FAILED. -/
structure Chain where
  image : Nat
  number : Nat
  /-- Handles of the members, the head first, and the stored HAVE of each position. -/
  members : List Nat
  have_ : List Nat
  state : Nat
  cause : Nat
  retries : Nat
  /-- Next block to send. -/
  next : Nat
  ackEvery : Nat
  /-- A SETUP is to be sent. -/
  sendSetup : Bool
  /-- Tempos in RUN of the retry wait (since SETUP ended, or with the window full), and since any HAVE rose. -/
  waited : Nat
  still : Nat
  deriving DecidableEq, Repr

/-- The pawn chain (R497 to R505). -/
structure Pawn where
  chains : List Chain
  /-- CRC and PAN of each image. -/
  crcs : List Nat
  pans : List Nat
  /-- Image and chain served last in each group's round robin. -/
  turn : List (Nat × Nat)
  /-- Members that held every block of an image: image and handle. -/
  doneNodes : List (Nat × Nat)
  deriving DecidableEq, Repr

/-- The background jobs (R41 to R44): accumulator fractions (numerator, denominator) of
the scrub and the sweeper, and by rank the units of this
tempo's normal slice and those done, each per group, pipeline or job; and guaranteed slices not yet taken. -/
structure Background where
  scrubAcc : Nat × Nat
  sweepAcc : List (Nat × Nat)
  due : List (List Nat)
  did : List (List Nat)
  granted : List Nat
  /-- The job deferred by an overrun in this tempo. -/
  overrun : Option Nat
  deriving DecidableEq, Repr

/-- The parts of the timers that no register shows (R462 to R470). -/
structure TimSt where
  /-- Prescaler phase of each unit. -/
  phases : List Nat
  /-- The fraction of a core cycle carried from earlier make-ups, in 1/32 (R468). -/
  frac : Nat
  /-- First capture edge of each channel in this SLEEP: unit, channel, slow tick (R469). -/
  sleepCapt : List ((Nat × Nat) × Nat)
  /-- Debug halt (R470). -/
  halted : Bool
  deriving DecidableEq, Repr

/-- The device (everything but the queue of commands). -/
structure Dev where
  /-- The register file (R16): sparse; an unlisted register reads its reset value. -/
  regs : List (Nat × Reg)
  /-- The staging latches of register pairs (R8): address of NAME_LO and the staged half. -/
  staged : List (Nat × Nat)
  /-- Values held by CTRL.FREEZE (R138): page, then address and value. -/
  frozen : List (Nat × List (Nat × Nat))
  /-- What every register read when the PROMOTE pause began, which reads return until its end (R494): address and value. -/
  heldView : List (Nat × Nat)
  /-- Pages whose soft reset is under way (R139). -/
  resetting : List Nat
  /-- The configuration stored in MRAM (R18): sparse, by register. -/
  cfg : List (Nat × Reg)
  pw : Power
  ln : Lanes
  cal : List CalGroup
  fw : Firmware
  pins : Pins
  /-- The running tempo count T (R37), and the core cycles of the present tempo already begun. -/
  tempo : Nat
  cycle : Nat
  /-- SYSTIME in units of 2^-32 ns (R472). -/
  systime : Nat
  tm : TimSt
  tab : Tables
  ks : KeyStore
  eng : Engines
  ra : Radio
  rx : Rx
  sch : Sched
  bh : Backhaul
  pn : Pawn
  bg : Background
  inflight : List Cmd
  rings : List Ring
  /-- The command ring that fetched last (R156). -/
  fetched : Nat
  sessions : List Session
  /-- Sources disarmed by a delivery (R165); vectors whose pending bit is set, and vectors within the gap after a message
  (R166). -/
  disarmed : List Nat
  pba : List Nat
  gaps : List Nat
  /-- Events that arose during the PROMOTE pause and are set at its end (R494): page and bit. -/
  heldEvents : List (Nat × Nat)
  /-- The model's own counter of free values: every draw advances it. -/
  freeCtr : Nat
  /-- What has left the machine, latest first. -/
  out : List Out
  deriving DecidableEq, Repr

/-- The block's state: the device, and the commands that wait, first in, first out. -/
structure State where
  dev : Dev
  pending : List Instr
  deriving DecidableEq, Repr

/-- Reasons a step can stop. No command of this spec stops the block: a refused write or command is a code in an error
record or a completion (R23), so no constructor is raised by any meaning. `unused` keeps the type inhabited; safe. -/
inductive Fault where
  | unused
  deriving DecidableEq, Repr

/-- Reasons a command has no meaning. `notModelled` is answered by an arm of `exec` that has no meaning yet, with the
row's mnemonic; safe: the run ends where the hardware goes on. -/
inductive Refusal where
  | notModelled (mnemonic : String)
  deriving DecidableEq, Repr

/-! ### The machine just released (R18, R108, R126) -/

/-- The power die, the supplies and the always-on domain at the first release of a device never provisioned. -/
def Power.reset : Power :=
  { phase := .run, trans := .none, sleepAskedAt := 0, rxRestart := false, pwrGood := true, vout3v3 := true, vinPresent := true,
    vbakOk := true, goodWindows := 0, aonAcc := 0, aonSlept := 0, aonValid := true, aonLost := true, bankT := some 0, saving := none,
    records := [[], []], saveLane := none,
    evcBuf := List.replicate 64 (0x3BF, 0), armedAt := none, erasing := false, zeroised := false, eraseMark := false,
    nextCause := 0, selfItem := 8, selfSlice := 0, selfRetry := false, selfFault := none, selfNote := 0, selfPath := false,
    runtimeSlice := 0, openEnded := false }

def Lanes.reset : Lanes :=
  { mem := List.replicate 4 { code := Config.factoryImage.drop 256, data := [], start := beField Config.factoryImage 20 4 }, copy := none, copied := false, dry := none, dryPrev := 1, shadow := false, dryAbort := false, dryJoin := false,
    issued := List.replicate 5 none, sigs := List.replicate 4 none, linkOut := [0, 0, 0, 0], quarEnd := [0, 0, 0, 0], marked := false, lateMark := false }

def CalGroup.reset : CalGroup :=
  { on := false, since := 0, interval := 266666, due := false, round := 0, again := false, settled := false, settledAt := 0,
    staged := [], stagedTrims := [], temp := 0, committed := false, load := 0, spareTab := [], trims := [], trimSeed := 0, badAfter := false, lost := false, heldRun := false, roundEnd := false, temps := List.replicate 9 (some 0), req := none }

/-- A staging slot that holds nothing. -/
def FwSlot.empty : FwSlot := { state := 0, seq := 0, version := 0, epoch := 0, handover := 0, bytes := [] }

/-- Slot 0 holds the image that the lanes run, as the unit left the factory; slot 1 is empty. -/
def Firmware.reset : Firmware :=
  { slots := [{ FwSlot.empty with state := 2, bytes := Config.factoryImage }, FwSlot.empty], runSlot := 0, epoch := 0,
    reqOwner := false, vehicle := false, session := none, sessionT := 0, promote := none, failReport := none,
    request := none, svcRan := false, blocked := 0, again := false, response := none, latest := none, stored := [], safeUs := 0 }

/-- Balls left open: every input at the level of its pull (R65), no module present, no PCI Express host. -/
def Pins.reset : Pins :=
  { resetN := true, testEn := false, perstN := false, refClk := false, motion := false, moved := false, motionT := 0, coexGrant := true, blank := 0, gpio := 0,
    capt := 0, ppsIn := false, svcCsN := true, modPresent := 0, sfpTxFlt := 3, sfpLos := 3, trstN := false,
    tap := { instr := .idcode, cells := [], shifting := none } }

def TimSt.reset : TimSt := { phases := List.replicate 16 0, frac := 0, sleepCapt := [], halted := false }

def Tables.reset : Tables :=
  { heldWrites := [], store := { fills := 0, cells := [] }, mem := [], ueLines := [], writeBack := [], passUe := 0, passWhole := true, scrubRestart := false, blockMap := [],
    prefixes := [], cursors := List.replicate 128 0, loads := [], loadT := 0, loadN := 0, clearFrom := 0, recent := List.replicate 4 [], telemQueue := [],
    telemCount := 0, telemRf := 0, telemBufMin := 192512, telemOverruns := 0, telemPoolPeak := [0, 0, 0, 0],
    telemRefused := [0, 0, 0, 0], telemChecked := [0, 0, 0, 0], telemSelected := [] }

def KeyStore.reset : KeyStore := { slots := [], gens := [], copies := [], owner := none, deviceKey := some ((List.range 16).map Config.firstDeviceKey), oseq := 0, lock := false }

def Engines.reset : Engines := { free := [0, 0, 0, 0], queue := [] }

def Radio.reset : Radio :=
  { txs := [], nextTx := 1, nextHeld := 0, synth := List.replicate 36 0, blankExt := List.replicate 4 false, gapEnd := List.replicate 32 0,
    blankTail := List.replicate 4 false, rampDown := List.replicate 32 0, vault := { words := [], used := 0, bad := 0, inForce := none, burn := none },
    duty := List.replicate 32 (List.replicate 60 0), dutyEnded := List.replicate 32 0, rolledT := 0, occ := [],
    derate := [120, 120, 120, 80], panPending := List.replicate 4 none, staging := List.replicate 64 0, setPending := none,
    profPending := [], peers := [], relays := [], nextRelay := 1, beaconSeq := List.replicate 128 0,
    macSeq := List.replicate 128 0, floodSeq := List.replicate 128 0, dgTag := List.replicate 128 0, admitLimit := 8,
    admitUsed := 0, extraBeacons := [], dueBeacons := [], scans := [] }

def Rx.reset : Rx :=
  { ctxs := [], nextCtx := 1, queues := List.replicate 4 [], nextNo := 0, parked := [], rings := List.replicate 4 { nextSeq := 0, backlog := [], since := 0 },
    gain := List.replicate 36 0, pending := none }

def Sched.reset : Sched :=
  { pending := [], forgive := [], egress := [], selected := List.replicate 32 0, pcs := [], lowSent := false, orphanCells := 0 }

def Backhaul.reset : Backhaul :=
  { reasm := [], raMac := [none, none], moduleT := [0, 0], overcurrent := [false, false], mode := [false, false], tooBig := [], hdata := [], nextUid := 1,
    nextPkt := 1, events := [], evSent := [], heldDg := [], evFold := [], masters := [], chosen := none, within := 0, slew := 0,
    ppsOut := false, subsys := 0x60321F8D }

def Pawn.reset : Pawn :=
  { chains := [], crcs := [0, 0, 0, 0], pans := [0, 0, 0, 0], turn := List.replicate 4 (0, 0), doneNodes := [] }

/-- The background jobs in tempo 0, by rank: units of calibration per group, of the sweeper per pipeline, of the pawn chain per group. -/
def Background.reset : Background :=
  { scrubAcc := (2377216, 14400000), sweepAcc := List.replicate 4 (0, 1), due := [[0, 0, 0, 0], [1], [0, 0, 0, 0], [0], [0, 0, 0, 0], [1]],
    did := [[0, 0, 0, 0], [0], [0, 0, 0, 0], [0], [0, 0, 0, 0], [0]], granted := [], overrun := none }

/-- Registers that the power-up sequence has set by release: the bank and AON_LOST (R82, R93, R103), the clocks (R104), the
self-test passed in its 162 slices with no loopback module in a cage (R112, R115, R116), and every chain calibrated (R243). -/
def releasedRegs : List (Nat × Reg) :=
  [(R.PWR_FLAGS, 0x18), (R.PWR_BANK, 0x08A901DE), (R.CLK_STAT, 0x3), (R.BIST_RESULT, 0x288000F1)]
    ++ [2, 4, 16, 32, 72, 24, 8, 4].zipIdx.map (fun x => (R.BIST_ITEM x.2, BitVec.ofNat 32 (x.1 * 65536 + if x.2 = 6 then 0x11 else 0)))
    ++ (List.range 36).map (fun k => (R.CAL_CHAIN k, 0xF0))

/-- The device just released, never provisioned: nothing stored in MRAM or OTP beyond its identity and its factory image. -/
def Dev.reset : Dev :=
  { regs := releasedRegs, staged := [], frozen := [], heldView := [], resetting := [], cfg := [], pw := Power.reset, ln := Lanes.reset,
    cal := List.replicate 4 CalGroup.reset, fw := Firmware.reset, pins := Pins.reset, tempo := 0, cycle := 0, systime := 0,
    tm := TimSt.reset, tab := Tables.reset, ks := KeyStore.reset, eng := Engines.reset, ra := Radio.reset, rx := Rx.reset, sch := Sched.reset,
    bh := Backhaul.reset, pn := Pawn.reset, bg := Background.reset, inflight := [], fetched := 7,
    rings := List.replicate 8 { held := [], waiting := [], stopped := false, dead := false }, sessions := [],
    disarmed := [], pba := [], gaps := [], heldEvents := [], freeCtr := 0, out := [] }

/-- The machine right after reset: released, with no command waiting. -/
def State.reset : State := { dev := Dev.reset, pending := [] }

end Sys2Proof.Machine
end

