-- ==== Sys2Proof/Machine/Ops.lean ====
section
/-! DEFINITION. The named operations every meaning is built from: bit fields, the register file, event counters,
interrupt raising, rejection records, outputs and free values. -/

namespace Sys2Proof.Machine

/-! ### Numbers and bit fields -/

/-- Bits `[hi:lo]` of a number (R17). -/
def bits (w hi lo : Nat) : Nat := w / 2 ^ lo % 2 ^ (hi + 1 - lo)

/-- The number with its bits `[hi:lo]` replaced by the low bits of `n`. -/
def withBits (w hi lo n : Nat) : Nat :=
  w - bits w hi lo * 2 ^ lo + n % 2 ^ (hi + 1 - lo) * 2 ^ lo

/-- Bit `i` of a number. -/
def bit (w i : Nat) : Bool := w / 2 ^ i % 2 == 1

/-- 1 for true, 0 for false. -/
def b2n (b : Bool) : Nat := if b then 1 else 0

/-- A w-bit pattern read as a two's complement number. -/
def toSigned (w n : Nat) : Int := if n % 2 ^ w < 2 ^ (w - 1) then (n % 2 ^ w : Nat) else (n % 2 ^ w : Nat) - (2 ^ w : Nat)

/-- The w-bit two's complement pattern of a number. -/
def ofSigned (w : Nat) (i : Int) : Nat := (i % (2 ^ w : Nat)).toNat

/-- Element `n` of a list replaced. -/
def setAt {α : Type} : List α → Nat → α → List α
  | [], _, _ => []
  | _ :: t, 0, v => v :: t
  | h :: t, n + 1, v => h :: setAt t n v

/-- The part of a number that `f` names is taken from `n`, for each bit of a mask: `mask` selects bits of `n`. -/
def merge32 (mask n w : Nat) : Nat := (n &&& mask) ||| (w &&& (0xFFFFFFFF - mask % 2 ^ 32))

/-- One byte of CRC-32 with the IEEE 802.3 polynomial. -/
def crcByte (c b : Nat) : Nat :=
  (List.range 8).foldl (fun x _ => if x % 2 = 1 then x / 2 ^^^ 0xEDB88320 else x / 2) (c ^^^ b)

/-- CRC-32 with the IEEE 802.3 polynomial (R481, R498). -/
def crc32 (l : List Byte) : Nat := l.foldl (fun c b => crcByte c b.toNat) 0xFFFFFFFF ^^^ 0xFFFFFFFF

/-! ### The register map -/

/-- Page, offset and window entry of a storage key. Keys below 2^20 are host addresses (R16); the register shown
through a window for entry i is stored under its host address + (i + 1) × 2^20. -/
def keyAddr (k : Nat) : Nat := k % 2 ^ 20
def keyPage (k : Nat) : Nat := keyAddr k / 0x1000
def keyOff (k : Nat) : Nat := k % 0x1000
def keyEntry (k : Nat) : Nat := k / 2 ^ 20 - 1

/-- Whether a register row covers an offset of its page. -/
def RegDesc.covers (r : RegDesc) (off : Nat) : Bool :=
  if r.stride1 = 0 then off == r.off
  else
    let d := off - r.off
    let i := d / r.stride1
    let e := d % r.stride1
    decide (r.off ≤ off) && decide (i < r.count1) &&
      (if r.stride2 = 0 then e == 0 else decide (e / r.stride2 < r.count2) && e % r.stride2 == 0)

/-- The register row of an offset of a page, if the page defines one there. -/
def findReg (page off : Nat) : Option RegDesc := (pageRegs page).find? (fun r => r.covers off)

/-- The reset value a register's field table gives (R17, R18). -/
def RegDesc.resetWord (r : RegDesc) : Nat := (r.fields.map (fun f => f.reset * 2 ^ f.lo)).sum

/-- The mask of a register's fields of some access types. -/
def RegDesc.mask (r : RegDesc) (p : FieldDesc → Bool) : Nat :=
  ((r.fields.filter p).map (fun f => (2 ^ (f.hi + 1 - f.lo) - 1) * 2 ^ f.lo)).sum

/-- CTRL.ENABLE when no configuration is stored (R136). -/
def enableDefault (page : Nat) : Nat :=
  b2n ([0, 1, 2, 3, 4, 5, 6, 7, 0x0B, 0x0D, 0x0F, 0x21, 0x34].contains page)

/-- A power-table entry as start-up calibration sets it where every step succeeds: VALID, with OUT at its target
HW_g − ⌊5 × (63 − i) / 2⌋ (R225). The spec gives no codes; they are 0 here. -/
def startupPt (g i : Nat) : Nat :=
  0x8000 + ofSigned 10 ((if g = 3 then 80 else 120) - (5 * (63 - i) / 2 : Nat))

/-- Reset values that depend on a register's place in its array or its page (R136, R169, R178, R221, R328, R429,
R431, R432), and the power tables as start-up calibration sets them (R126, R225). -/
def resetSpecial (page off entry : Nat) : Option Nat :=
  if off = 0x008 then some (enableDefault page)
  else if off = 0x014 then some 0x80000000
  else if page = 0x04 ∧ 0x044 ≤ off ∧ off < 0x054 then some (0xF0000003 - (off - 0x044) / 4)
  else if page = 0x06 ∧ 0x100 ≤ off ∧ off < 0x200 then some ((off - 0x100) / 4)
  else if page = 0x06 ∧ 0x800 ≤ off ∧ off < 0xC00 ∧ off % 16 = 12 then some 1
  else if page = 0x12 ∧ off = 0x040 then some 0x00030000
  else if 0x10 ≤ page ∧ page ≤ 0x13 ∧ off = 0x05C then some (startupPt (page - 0x10) (entry % 64))
  else if page = 0x1B ∧ off = 0x044 then some 0x0C036003
  else if page = 0x29 ∧ off = 0x044 then some (0x80000400 + entry / 32 % 8 * 0x1000000 + entry % 32 * 0x10000)
  else if page = 0x2B ∧ off = 0x044 ∧ entry % 64 = 63 then some 0x80000400
  else if page = 0x2C ∧ 0x100 ≤ off ∧ off < 0x200 then some (32 * ((off - 0x100) / 4 / 8))
  else if page = 0x2C ∧ 0x200 ≤ off ∧ off < 0x300 then some ((off - 0x200) / 4 / 8)
  else none

/-- What an unlisted register reads as: the reset value of its field table (R18, R509). -/
def resetReg (k : Nat) : Reg :=
  match resetSpecial (keyPage k) (keyOff k) (keyEntry k) with
  | some v => BitVec.ofNat 32 v
  | none =>
    match findReg (keyPage k) (keyOff k) with
    | some r => BitVec.ofNat 32 r.resetWord
    | none => 0

/-- The stored value of a register. -/
def Dev.rd (d : Dev) (k : Nat) : Nat := (SMap.get resetReg d.regs k).toNat

/-- The register file with one register's stored value replaced. -/
def Dev.wr (d : Dev) (k v : Nat) : Dev := { d with regs := SMap.set resetReg d.regs k (BitVec.ofNat 32 v) }

/-- A field's stored value. -/
def Dev.get (d : Dev) (f : Fld) : Nat := bits (d.rd f.addr) f.hi f.lo

/-- A field replaced; the register's other bits stay. -/
def Dev.put (d : Dev) (f : Fld) (n : Nat) : Dev := d.wr f.addr (withBits (d.rd f.addr) f.hi f.lo n)

/-- A one-bit field as a Bool. -/
def Dev.is (d : Dev) (f : Fld) : Bool := d.get f == 1

/-- The greatest value a field can hold. -/
def Fld.top (f : Fld) : Nat := 2 ^ (f.hi + 1 - f.lo) - 1

/-- The field of entry `i` of a window (R428, R459): same bits, the entry's own storage. -/
def Fld.at (f : Fld) (i : Nat) : Fld := { f with addr := f.addr + 2 ^ 20 * (i + 1) }

/-- A count that saturates at its field's greatest value (R21). -/
def Dev.bump (d : Dev) (f : Fld) (n : Nat) : Dev := d.put f (min (d.get f + n) f.top)

/-- A field that holds a greatest value (R21). -/
def Dev.peak (d : Dev) (f : Fld) (v : Nat) : Dev := if d.get f < v then d.put f (min v f.top) else d

/-- A field that holds a least value (R21). -/
def Dev.least (d : Dev) (f : Fld) (v : Nat) : Dev := if v < d.get f then d.put f v else d

/-- A quantity wider than 32 bits held in two fields (R7). -/
def Dev.getPair (d : Dev) (lo hi : Fld) : Nat := d.get lo + 2 ^ 32 * d.get hi

/-- A quantity wider than 32 bits written to two fields (R7). -/
def Dev.putPair (d : Dev) (lo hi : Fld) (v : Nat) : Dev := (d.put lo (v % 2 ^ 32)).put hi (v / 2 ^ 32)

/-! ### The common page header (R135, R136) -/

def H.ctrl (p : Nat) : Nat := p * 0x1000 + 0x008
def H.enable (p : Nat) : Fld := ⟨p * 0x1000 + 0x008, 0, 0⟩
def H.freeze (p : Nat) : Fld := ⟨p * 0x1000 + 0x008, 2, 2⟩
def H.irqRaw (p : Nat) : Nat := p * 0x1000 + 0x010
def H.irqMask (p : Nat) : Nat := p * 0x1000 + 0x014
def H.irqPend (p : Nat) : Nat := p * 0x1000 + 0x018
def H.rawBit (p b : Nat) : Fld := ⟨p * 0x1000 + 0x010, b, b⟩
def H.errCount (p : Nat) : Fld := ⟨p * 0x1000 + 0x01C, 31, 16⟩
def H.errMore (p : Nat) : Fld := ⟨p * 0x1000 + 0x01C, 8, 8⟩
def H.errCode (p : Nat) : Fld := ⟨p * 0x1000 + 0x01C, 7, 0⟩
def H.errAddr (p : Nat) : Fld := ⟨p * 0x1000 + 0x020, 25, 0⟩
def H.errData (p : Nat) : Fld := ⟨p * 0x1000 + 0x024, 31, 0⟩
def H.seq (p : Nat) : Nat := p * 0x1000 + 0x028

/-- The PROMOTE pause is on (R494). -/
def Dev.paused (d : Dev) : Bool := d.is F.UPD_STAT_PAUSE

/-- Whether a page is enabled. A window page of QSCH (0x29 to 0x2F) reads as QSCH does (R428). -/
def Dev.enabled (d : Dev) (p : Nat) : Bool :=
  if 0x29 ≤ p ∧ p ≤ 0x2F then d.is (H.enable 0x28) else d.is (H.enable p)

/-- IRQ_PEND: IRQ_RAW AND IRQ_MASK (R137). -/
def Dev.pend (d : Dev) (p : Nat) : Nat := d.rd (H.irqRaw p) &&& d.rd (H.irqMask p)

/-! ### Interrupt sources (R163, R164) -/

/-- The source a bit of a page's IRQ_PEND feeds (R163 and each page's layout of IRQ_RAW). -/
def srcOf (p b : Nat) : Option Nat :=
  if b = 31 then some 50
  else match p with
  | 0x00 => if b = 0 then some 3 else if b = 1 then some 62 else none
  | 0x01 => if b ≤ 3 then some 4 else if b = 4 then some 6 else if b = 5 then some 5 else none
  | 0x02 => if b ≤ 5 then some 7 else none
  | 0x03 => if b = 0 then some 61 else none
  | 0x04 => if b = 0 then some 0 else if b = 1 ∨ b = 4 then some 1 else if b = 2 ∨ b = 3 then some 2 else none
  | 0x05 => if b ≤ 7 then some 48 else if b ≤ 15 then some 49 else none
  | 0x06 => if b = 0 then some 63 else none
  | 0x07 => if b = 0 then some 51 else none
  | 0x08 => if b ≤ 15 then some 52 else none
  | 0x09 => if b = 0 then some 53 else none
  | 0x0A => if b ≤ 1 then some 54 else none
  | 0x0C => if b = 0 then some 55 else if b = 1 ∨ b = 3 then some 56 else if b = 2 then some 57 else none
  | 0x0D => if b ≤ 1 then some 60 else none
  | 0x0E => if b ≤ 1 then some 58 else if b ≤ 3 then some 59 else none
  | 0x0F => if b ≤ 3 then some 28 else if b = 4 then some 29 else if b ≤ 8 then some 30
            else if b ≤ 10 then some 31 else none
  | 0x10 | 0x11 | 0x12 | 0x13 => if b ≤ 3 then some (8 + (p - 0x10)) else none
  | 0x14 => if b = 0 then some 12 else if b ≤ 2 then some 13 else none
  | 0x15 => if b ≤ 1 then some 14 else if 4 ≤ b ∧ b ≤ 11 then some 15 else none
  | 0x16 => if b ≤ 1 then some 16 else if b = 2 then some 17 else none
  | 0x18 | 0x19 | 0x1A | 0x1B => if b = 0 then some 18 else if b = 1 then some 19 else if b = 2 then some 24
            else if b = 3 then some 25 else if b = 4 then some 26 else if b ≤ 8 then some (20 + (p - 0x18)) else none
  | 0x1C => if b ≤ 1 then some 27 else none
  | 0x20 => if b = 0 then some 32 else none
  | 0x21 => if b ≤ 2 then some (33 + b) else none
  | 0x24 | 0x25 | 0x26 | 0x27 => if b ≤ 1 then some (36 + (p - 0x24)) else none
  | 0x28 => if b ≤ 2 then some 40 else if b ≤ 6 then some 41 else if b = 7 then some 42 else if b = 8 then some 43 else none
  | 0x30 | 0x31 => if b ≤ 3 then some (44 + (p - 0x30)) else none
  | 0x32 => if b ≤ 3 then some 46 else none
  | 0x33 => if b = 0 then some 47 else none
  | _ => none

/-- The pages that feed a source. -/
def srcPages (s : Nat) : List Nat :=
  if s = 50 then assignedPages
  else assignedPages.filter (fun p => (List.range 31).any (fun b => srcOf p b == some s))

/-- Whether source s is asserted: any IRQ_PEND bit that feeds it is 1 (R164). -/
def Dev.asserted (d : Dev) (s : Nat) : Bool :=
  (srcPages s).any (fun p => (List.range 32).any (fun b => srcOf p b == some s && bit (d.pend p) b))

/-- Whether source s is pending: asserted, and enabled in IRQ.EN_A or IRQ.EN_B (R164). -/
def Dev.srcPending (d : Dev) (s : Nat) : Bool :=
  d.asserted s && (if s < 32 then bit (d.rd R.IRQ_EN_A) s else bit (d.rd R.IRQ_EN_B) (s - 32))

/-! ### Event counters (R474, R475) -/

/-- The 48-bit count of event counter k. -/
def Dev.evcCount (d : Dev) (k : Nat) : Nat := d.getPair (F.EVC_COUNT_LO_COUNT k) (F.EVC_COUNT_HI_COUNT k)

/-- Counter k adds n occurrences; a wrap of the 48 bits sets its overflow bit. The Bool says that it wrapped. -/
def Dev.evcAdd (d : Dev) (k n : Nat) : Dev × Bool :=
  let c := d.evcCount k + n
  let d1 := d.putPair (F.EVC_COUNT_LO_COUNT k) (F.EVC_COUNT_HI_COUNT k) (c % 2 ^ 48)
  if c < 2 ^ 48 then (d1, false)
  else (d1.put (if k < 32 then ⟨R.EVC_OVF_A, k, k⟩ else ⟨R.EVC_OVF_B, k - 32, k - 32⟩) 1, true)

/-- Every counter whose source is `id` adds n occurrences, while the EVC page is enabled (R474, R478). -/
def Dev.evtBase (d : Dev) (id n : Nat) : Dev × Bool :=
  if d.enabled 0x07 then
    (List.range 64).foldl
      (fun (x : Dev × Bool) k =>
        if x.1.get (F.EVC_SRC_ID k) = id then let y := x.1.evcAdd k n; (y.1, x.2 || y.2) else x)
      (d, false)
  else (d, false)

/-- An occurrence of an event source, `n` times. A wrap sets EVC.IRQ_RAW.OVF (R478), whose source EVC_OVF (51) is itself
an event of block 15 when it becomes asserted. -/
def Dev.evt (d : Dev) (id n : Nat) : Dev :=
  let x := d.evtBase id n
  if x.2 then
    let was := x.1.asserted 51
    let d1 := x.1.put (H.rawBit 0x07 0) 1
    if !was && d1.asserted 51 then (d1.evtBase (15 * 64 + 51) 1).1 else d1
  else x.1

/-- The event number of block `b`, event `e` (R474). -/
def ev (b e : Nat) : Nat := b * 64 + e

/-- A block event sets its bit of IRQ_RAW (R137); a source that becomes asserted by it is an event of block 15 (R475). Events
that arise during the PROMOTE pause are set at its end (R494). -/
def Dev.raise (d : Dev) (p b : Nat) : Dev :=
  if d.is F.UPD_STAT_PAUSE then
    if d.heldEvents.contains (p, b) then d else { d with heldEvents := d.heldEvents ++ [(p, b)] }
  else match srcOf p b with
  | none => d.put (H.rawBit p b) 1
  | some s =>
    let was := d.asserted s
    let d1 := d.put (H.rawBit p b) 1
    if !was && d1.asserted s then d1.evt (ev 15 s) 1 else d1

/-- After a change of masks or raw bits: every source asserted now and not before is an event of block 15 (R475). -/
def Dev.countAsserted (before after : Dev) : Dev :=
  (List.range 64).foldl
    (fun d s => if !before.asserted s && after.asserted s then d.evt (ev 15 s) 1 else d) after

/-! ### Rejections (R142) and accepted writes (R143) -/

/-- A rejection is recorded in a page's error record and raises REG_REJECT (R142). -/
def Dev.reject (d : Dev) (p code addr data : Nat) : Dev :=
  let more := b2n (d.get (H.errCode p) != 0)
  let d1 := ((d.bump (H.errCount p) 1).put (H.errMore p) more).put (H.errCode p) code
  ((d1.put (H.errAddr p) addr).put (H.errData p) data).raise p 31

/-- The rank of an error code (R24); a lower rank is reported first. -/
def codeRank (c : Nat) : Nat :=
  match c with
  | 0x08 => 1 | 0x04 => 2 | 0x0D => 3 | 0x0B => 4 | 0x0C => 5 | 0x05 => 6 | 0x02 => 7 | 0x01 => 8 | 0x03 => 9
  | c => 10 + c

/-- The one code reported when several conditions may hold (R24); 0 when none holds. -/
def oneCode (l : List (Bool × Nat)) : Nat :=
  l.foldl (fun best x => if x.1 && (best == 0 || decide (codeRank x.2 < codeRank best)) then x.2 else best) 0

/-- An accepted configuration write increments the page's SEQ, modulo 2^32 (R143). -/
def Dev.seqInc (d : Dev) (p : Nat) : Dev := d.wr (H.seq p) ((d.rd (H.seq p) + 1) % 2 ^ 32)

/-! ### Configuration in MRAM (R18, R136) -/

/-- The bits of a register that an accepted write saves to configuration. -/
def savedMask (k : Nat) : Nat :=
  if keyOff k = 0x008 then 1
  else match findReg (keyPage k) (keyOff k) with
    | some r => r.mask (fun f => f.saved)
    | none => 0

/-- The bits of a register that are RW or LK fields. -/
def writableMask (k : Nat) : Nat :=
  if keyOff k = 0x008 then 5
  else if keyOff k = 0x014 then 0xFFFFFFFF
  else match findReg (keyPage k) (keyOff k) with
    | some r => r.mask (fun f => f.acc == .rw || f.acc == .lk)
    | none => 0

/-- The stored configuration of a register: its reset value, with the saved fields last stored. -/
def Dev.cfgRd (d : Dev) (k : Nat) : Nat := (SMap.get resetReg d.cfg k).toNat

/-- A write that the PROMOTE pause holds (R494). -/
def Dev.holdWrite (d : Dev) (w : HeldWrite) : Dev := { d with tab := { d.tab with heldWrites := d.tab.heldWrites ++ [w] } }

/-- A word stored whole in configuration (a committed table entry); the pause holds the MRAM write (R494). -/
def Dev.saveWord (d : Dev) (k v : Nat) : Dev :=
  if d.paused then d.holdWrite (.cfg k (BitVec.ofNat 32 v)) else { d with cfg := SMap.set resetReg d.cfg k (BitVec.ofNat 32 v) }

/-- A register's saved fields are stored in configuration. -/
def Dev.save (d : Dev) (k : Nat) : Dev := d.saveWord k (merge32 (savedMask k) (d.rd k) (resetReg k).toNat)

/-- Every RW and LK field of a page, and of its entries, returns to the stored configuration, or to its reset value where
none is stored (R139). -/
def Dev.reloadPage (d : Dev) (p : Nat) : Dev :=
  let ks := (d.regs ++ d.cfg).filter (fun (x : Nat × Reg) => keyPage x.1 == p) |>.map (fun x => x.1)
  ks.foldl (fun (x : Dev) k => x.wr k (merge32 (writableMask k) (d.cfgRd k) (d.rd k))) d

/-! ### The frame store (R404) -/

/-- n cells of the frame store are filled, among `size` cells from cell `lo` on; which ones, the spec does not state (log entry 10). -/
def Dev.fillCells (d : Dev) (lo size n : Nat) : Dev :=
  { d with tab := { d.tab with store := (List.range n).foldl (fun (x : Store) _ =>
      let c := lo + Config.cellOf x.fills % size
      { fills := x.fills + 1, cells := x.cells.filter (fun y => y.1 != c) ++ [(c, x.fills)] }) d.tab.store } }

/-- A word of the frame store: 0 in a cell that nothing has filled (R126). Words 0 to 6 follow every filling, the others that of their cell. -/
def Dev.storeWord (d : Dev) (a : Nat) : Nat :=
  let i := a - 0x02800000
  match d.tab.store.cells.find? (fun x => x.1 == i / 64) with
  | none => 0
  | some (_, v) => (Config.cellWord (if i % 64 < 7 then d.tab.store.fills else v) (i % 64)).toNat

/-! ### Outputs, free values, time -/

/-- A meaning that acts on the device only and always completes. -/
def runs (s : State) (f : Dev → Dev) : Host.Outcome State Fault Refusal := .next { s with dev := f s.dev }

/-- Something leaves the machine. -/
def Dev.emit (d : Dev) (o : Out) : Dev := { d with out := o :: d.out }

/-- A fresh free value: the counter's present value, and the counter advanced. -/
def Dev.draw (d : Dev) : Nat × Dev := (d.freeCtr, { d with freeCtr := d.freeCtr + 1 })

/-- SYSTIME in whole nanoseconds, modulo 2^64 (R472). -/
def Dev.sysNs (d : Dev) : Nat := d.systime / 2 ^ 32 % 2 ^ 64

/-- SYS.TEMPO, modulo 2^36 (R36). -/
def Dev.sysTempo (d : Dev) : Nat := d.tempo % 2 ^ 36

/-- Time advances by a number of core cycles of 2.5 ns (R472). -/
def Dev.passCycles (d : Dev) (n : Nat) : Dev := { d with systime := (d.systime + n * (5 * 2 ^ 31)) % 2 ^ 96 }

/-- Released, and not resigning: RUN, IDLE or SLEEP (R84). -/
def Dev.released (d : Dev) : Bool := d.pw.phase == .run || d.pw.phase == .idle || d.pw.phase == .sleep

/-- RUN or IDLE: the core clock runs after release. -/
def Dev.awake (d : Dev) : Bool := d.pw.phase == .run || d.pw.phase == .idle

/-- The device answers accesses of its PCI Express host: it runs, and the link is up (R66, R86). -/
def Dev.hostOpen (d : Dev) : Bool := d.awake && d.is F.PCIE_LINK_UP

/-- No new transmit grant is made: outside RUN, on the way to IDLE, or during zeroisation (R86, R125). -/
def Dev.noGrants (d : Dev) : Bool := d.pw.phase != .run || d.pw.trans == .toIdle || d.pw.erasing

/-- Before release: a power-up is under way. -/
def Dev.poweringUp (d : Dev) : Bool :=
  [Phase.rails, .load, .selftest, .copy, .laneStart, .calibration, .releaseWait].contains d.pw.phase

end Sys2Proof.Machine
end

