-- ==== Sys2Proof/Machine/Timers.lean ====
section
/-! DEFINITION. Timer units, captures, GPIO edges and the SLEEP make-up of timers and SYSTIME (R462 to R478, R513,
R514). -/

namespace Sys2Proof.Machine

/-! ### One unit -/

def Dev.timCount (d : Dev) (n : Nat) : Nat := d.getPair (F.TIM_COUNT_LO_COUNT n) (F.TIM_COUNT_HI_COUNT n)
def Dev.timReload (d : Dev) (n : Nat) : Nat := d.getPair (F.TIM_RELOAD_LO_RELOAD n) (F.TIM_RELOAD_HI_RELOAD n)
def Dev.timCcr (d : Dev) (n c : Nat) : Nat := d.getPair (F.TIM_CCR_LO_VALUE n c) (F.TIM_CCR_HI_VALUE n c)
def Dev.setTimCount (d : Dev) (n v : Nat) : Dev := d.putPair (F.TIM_COUNT_LO_COUNT n) (F.TIM_COUNT_HI_COUNT n) v
def Dev.setTimCcr (d : Dev) (n c v : Nat) : Dev := d.putPair (F.TIM_CCR_LO_VALUE n c) (F.TIM_CCR_HI_VALUE n c) v

/-- A unit counts while it is started, the TIM page is enabled, and it is not held by a debug halt (R462, R470). -/
def Dev.timRunning (d : Dev) (n : Nat) : Bool :=
  bit (d.rd R.TIM_RUN) n && d.enabled 0x08 && !(d.tm.halted && d.is (F.TIM_CFG_DBG_STOP n))

def Dev.timPhase (d : Dev) (n : Nat) : Nat := d.tm.phases.getD n 0
def Dev.setTimPhase (d : Dev) (n v : Nat) : Dev := { d with tm := { d.tm with phases := setAt d.tm.phases n v } }

/-- MODE, SRC and EDGE of channel c, in CH_CFG bits `[8c+7:8c]` (R477). -/
def chMode (w c : Nat) : Nat := bits w (8 * c + 1) (8 * c)
def chSrc (w c : Nat) : Nat := bits w (8 * c + 4) (8 * c + 2)
def chEdge (w c : Nat) : Nat := bits w (8 * c + 6) (8 * c + 5)

/-- Event bit b of unit n is set (0 WRAP, 1 to 4 MATCH, 5 to 8 CAPT) by k occurrences; a rise while its enable is 1 sets TIM.IRQ_RAW
bit n (R471). Event counters see every occurrence (R475, block 11). -/
def Dev.timEvents (d : Dev) (n b k : Nat) : Dev :=
  let was := bit (d.rd (R.TIM_EVT n)) b
  let d1 := d.put ⟨R.TIM_EVT n, b, b⟩ 1
  let d2 := if !was && bit (d.rd (R.TIM_EVT_EN n)) b then d1.raise 0x08 n else d1
  d2.evt (ev 11 (if b = 0 then n else if b ≤ 4 then 16 + n else 32 + n)) k

/-- One occurrence of an event of unit n. -/
def Dev.timEvent (d : Dev) (n b : Nat) : Dev := d.timEvents n b 1

/-- The count and the number of wraps after k count clocks from count c under RELOAD r (R463). -/
def countClocks (c r k : Nat) : Nat × Nat :=
  if k = 0 then (c, 0)
  else
    let toWrap := if r ≤ c then 1 else r - c + 1
    if k < toWrap then (c + k, 0)
    else ((k - toWrap) % (r + 1), 1 + (k - toWrap) / (r + 1))

/-- Whether the counter takes the value v at one of the next k count clocks (R465, R468). -/
def countPasses (c r k v : Nat) : Bool :=
  let toWrap := if r ≤ c then 1 else r - c + 1
  decide (v ≤ r) &&
    ((decide (c < v) && decide (v ≤ c + k) && decide (c < r)) || (decide (toWrap ≤ k) && decide (v ≤ k - toWrap)))

/-- How many of the next k count clocks bring the counter to the value v (R465). -/
def countHits (c r k v : Nat) : Nat :=
  let toWrap := if r ≤ c then 1 else r - c + 1
  if r < v then 0
  else (if c < v ∧ v ≤ c + k then 1 else 0) + (if toWrap + v ≤ k then 1 + (k - toWrap - v) / (r + 1) else 0)

/-- One count clock of unit n: advance or wrap, then WRAP and each MATCH (R463, R465). -/
def Dev.countClock (d : Dev) (n : Nat) : Dev :=
  let c := d.timCount n
  let r := d.timReload n
  let c' := if r ≤ c then 0 else c + 1
  let d1 := d.setTimCount n c'
  let d2 := if r ≤ c then d1.timEvent n 0 else d1
  (List.range 4).foldl
    (fun x ch => if chMode (d.rd (R.TIM_CH_CFG n)) ch = 2 ∧ d.timCcr n ch = c' then x.timEvent n (1 + ch) else x) d2

/-- One core cycle of every running unit: the prescaler phase advances, and at PRESC + 1 a count clock ticks (R462). -/
def Dev.timCycle (d : Dev) : Dev :=
  (List.range 16).foldl
    (fun x n =>
      if x.timRunning n then
        if x.get (F.TIM_CFG_PRESC n) ≤ x.timPhase n then (x.setTimPhase n 0).countClock n
        else x.setTimPhase n (x.timPhase n + 1)
      else x) d

/-- Count clocks and new phase of unit n for e core cycles. -/
def Dev.clocksIn (d : Dev) (n e : Nat) : Nat × Nat :=
  let p := d.get (F.TIM_CFG_PRESC n) + 1
  ((d.timPhase n + e) / p, (d.timPhase n + e) % p)

/-- A number of core cycles of every running unit at once: as so many cycles one by one (R462, R463, R465). -/
def Dev.timCycles (d : Dev) (e : Nat) : Dev :=
  (List.range 16).foldl
    (fun (x : Dev) n =>
      if d.timRunning n then
        let kp := d.clocksIn n e
        let c := d.timCount n
        let r := d.timReload n
        let cw := countClocks c r kp.1
        let x1 := (x.setTimCount n cw.1).setTimPhase n kp.2
        let x2 := if 0 < cw.2 then x1.timEvents n 0 cw.2 else x1
        (List.range 4).foldl
          (fun (y : Dev) ch =>
            let hits := countHits c r kp.1 (d.timCcr n ch)
            if chMode (d.rd (R.TIM_CH_CFG n)) ch = 2 ∧ 0 < hits then y.timEvents n (1 + ch) hits else y) x2
      else x) d

/-! ### Capture (R466, R467) -/

/-- A capture of value v lands in a channel, or finds NEW set and sets LOST. -/
def Dev.capture (d : Dev) (n c v : Nat) (coarse : Bool) : Dev :=
  if bit (d.rd (R.TIM_FLAGS n)) c then d.put ⟨R.TIM_FLAGS n, 4 + c, 4 + c⟩ 1
  else
    let d1 := (d.setTimCcr n c v).put ⟨R.TIM_FLAGS n, c, c⟩ 1
    (d1.put ⟨R.TIM_FLAGS n, 8 + c, 8 + c⟩ (b2n coarse)).timEvent n (5 + c)

/-- Whether channel c of unit n captures an edge of a source. -/
def Dev.captures (d : Dev) (n c src : Nat) (rising : Bool) : Bool :=
  let w := d.rd (R.TIM_CH_CFG n)
  chMode w c == 1 && chSrc w c == src && bit (chEdge w c) (if rising then 0 else 1)

/-- The unit and channel pairs, in order. -/
def timChannels : List (Nat × Nat) := (List.range 16).flatMap (fun n => (List.range 4).map (fun c => (n, c)))

/-- An edge of a capture source in RUN or IDLE: every channel that selects it captures its unit's COUNT. -/
def Dev.captureEdge (d : Dev) (src : Nat) (rising : Bool) : Dev :=
  timChannels.foldl
    (fun x p => if d.captures p.1 p.2 src rising then x.capture p.1 p.2 (d.timCount p.1) false else x) d

/-- A capture edge in SLEEP, at slow tick `tick` of the sleep: the first of each channel is kept, further ones set
LOST (R469). -/
def Dev.captureSlow (d : Dev) (src : Nat) (rising : Bool) (tick : Nat) : Dev :=
  timChannels.foldl
    (fun x p =>
      if d.captures p.1 p.2 src rising then
        if x.tm.sleepCapt.any (fun q => q.1 == p) then x.put ⟨R.TIM_FLAGS p.1, 4 + p.2, 4 + p.2⟩ 1
        else { x with tm := { x.tm with sleepCapt := x.tm.sleepCapt ++ [(p, tick)] } }
      else x) d

/-! ### Pin edges -/

/-- GPIO edge (R514): the event counters see every edge; an enabled one sets EVT and raises GPIO. -/
def Dev.gpioEdge (d : Dev) (j : Nat) (rising : Bool) : Dev :=
  let d1 := { d with pins := { d.pins with gpio := if rising then d.pins.gpio ||| BitVec.ofNat 16 (2 ^ j)
                                                  else d.pins.gpio &&& ~~~(BitVec.ofNat 16 (2 ^ j)) } }
  let d2 := d1.evt (ev 12 (10 + j)) 1
  if bit (d.rd (if rising then R.GPIO_RISE else R.GPIO_FALL)) j then (d2.put ⟨R.GPIO_EVT, j, j⟩ 1).raise 0x09 0 else d2

/-- A rising edge of PPS_IN latches SYSTIME and raises IRQ_RAW.PPS_IN (R455). -/
def Dev.ppsLatch (d : Dev) : Dev :=
  (d.putPair F.PTP_PPS_IN_LO_SYSTIME F.PTP_PPS_IN_HI_SYSTIME d.sysNs).raise 0x32 3

/-- An edge of MOTION: its level, and T where it fell (R490). -/
def Dev.motionEdge (d : Dev) (rising : Bool) : Dev :=
  { d with pins := { d.pins with motion := rising, motionT := if d.pins.motion && !rising then d.tempo else d.pins.motionT } }

/-- A rising edge of PPS_IN while the core clock runs: SYSTIME is latched, and the event counters see it (R455, R475). -/
def Dev.ppsEdge (d : Dev) : Dev := ({ d with pins := { d.pins with ppsIn := true } }.ppsLatch).evt (ev 12 8) 1

/-! ### Make-up after SLEEP (R468, R469, R472) -/

/-- Unit n is advanced by e core cycles: WRAP once if it wrapped, MATCH once for each compare value passed. -/
def Dev.timMakeup (d : Dev) (n e : Nat) : Dev :=
  if d.timRunning n then
    let (k, ph) := d.clocksIn n e
    let c := d.timCount n
    let r := d.timReload n
    let (c', wraps) := countClocks c r k
    let d1 := ((d.setTimCount n c').setTimPhase n ph).put (F.TIM_MAKEUP_WRAPS n) (min wraps 0xFFFF)
    let d2 := if 0 < wraps then d1.timEvent n 0 else d1
    (List.range 4).foldl
      (fun x ch => if chMode (d.rd (R.TIM_CH_CFG n)) ch = 2 ∧ countPasses c r k (d.timCcr n ch) = true
        then x.timEvent n (1 + ch) else x) d2
  else d

/-- The count unit n would have held at slow tick `tick` of the sleep (R469). -/
def Dev.countAtTick (d : Dev) (n tick : Nat) : Nat :=
  if d.timRunning n then
    (countClocks (d.timCount n) (d.timReload n) (d.clocksIn n ((tick * 390625 + d.tm.frac) / 32)).1).1
  else d.timCount n

/-- Timers, the captures of the sleep and SYSTIME are made up for N slow ticks. -/
def Dev.sleepMakeup (d : Dev) (ticks : Nat) : Dev :=
  let total := ticks * 390625 + d.tm.frac
  let caps := d.tm.sleepCapt.map (fun q => (q.1, d.countAtTick q.1.1 q.2))
  let d1 := (List.range 16).foldl (fun x n => x.timMakeup n (total / 32)) d
  let d2 := caps.foldl (fun x q => x.capture q.1.1 q.1.2 q.2 true) d1
  { d2 with
    tm := { d2.tm with frac := total % 32, sleepCapt := [] }
    systime := (d2.systime + ticks * (1953125 * 2 ^ 26)) % 2 ^ 96 }

/-! ### Meanings -/

/-- COUNT_CLOCK: one count clock of a running unit (R463). -/
def execCountClock (n : Fin 16) (s : State) : Host.Outcome State Fault Refusal :=
  runs s (fun d => if d.awake && d.timRunning n then (d.setTimPhase n 0).countClock n else d)

/-- CAPTURE: an edge of source 0 to 6 of R466 while the core clock runs. An edge of CAPT_n, PPS_IN or MOTION also sets the pin's level and does
what that pin's edge does; source 5, the tempo boundary, has rising edges only. -/
def execCapture (src : Fin 7) (rising : Bool) (s : State) : Host.Outcome State Fault Refusal :=
  runs s (fun d =>
    if d.awake && (src.val != 5 || rising) then
      let d1 :=
        if src.val < 4 then
          { d with pins := { d.pins with capt := if rising then d.pins.capt ||| BitVec.ofNat 4 (2 ^ src.val)
                                                 else d.pins.capt &&& ~~~(BitVec.ofNat 4 (2 ^ src.val)) } }.evt
            (ev 12 (src.val + if rising then 0 else 4)) 1
        else if src.val = 4 then
          if rising then d.ppsEdge else { d with pins := { d.pins with ppsIn := false } }
        else if src.val = 6 then (d.motionEdge rising).evt (ev 12 9) 1
        else d
      d1.captureEdge src rising
    else d)

/-- An instruction of the JTAG port as the device takes it (R121, R123): a ball-control one outside the reset hold and SAFE, and a private
one without test access, act as BYPASS. -/
def Dev.jtagTakes (d : Dev) (i : JtagInstr) : JtagInstr :=
  match i with
  | .bypass | .idcode | .samplePreload => i
  | .priv => if d.is F.BIST_TEST_ACCESS then i else .bypass
  | _ => if d.pw.phase == .resetHold || d.pw.phase == .safe then i else .bypass

/-- An operation that requires test access, where it is asked for by a command or a register access: TEST_ONLY while access is closed
(R123). -/
def Dev.testOnly (d : Dev) : Nat := if d.is F.BIST_TEST_ACCESS then 0 else 0x14

/-- DEBUG_HALT: the private HALT instruction, which acts as BYPASS without test access, enters or leaves debug halt (R123, R470). -/
def execDebugHalt (halt : Bool) (s : State) : Host.Outcome State Fault Refusal :=
  runs s (fun d =>
    let d1 := { d with pins := { d.pins with trstN := true, tap := { d.pins.tap with instr := d.jtagTakes .priv } } }
    if d.testOnly = 0 then { d1 with tm := { d1.tm with halted := halt } } else d1)

end Sys2Proof.Machine
end

