-- ==== Sys2Proof/Machine/Jobs.lean ====
section
/-! DEFINITION. The slices of the background jobs (R41 to R46). -/

namespace Sys2Proof.Machine

/-- Units of a job's normal slice in this tempo, and those done: by rank, then by group, pipeline or job. -/
def Dev.bgDue (d : Dev) (rank u : Nat) : Nat := (d.bg.due.getD rank []).getD u 0
def Dev.bgDid (d : Dev) (rank u : Nat) : Nat := (d.bg.did.getD rank []).getD u 0

/-- A job has done n more units. -/
def Dev.bgDo (d : Dev) (rank u n : Nat) : Dev :=
  { d with bg := { d.bg with did := setAt d.bg.did rank (setAt (d.bg.did.getD rank []) u (d.bgDid rank u + n)) } }

/-- Units of the normal slice still to be done; none for the job that an overrun defers (R48). -/
def Dev.bgLeft (d : Dev) (rank u : Nat) : Nat := if d.bg.overrun = some rank then 0 else d.bgDue rank u - d.bgDid rank u

/-- One boundary of an accumulator kept as a fraction num / den: it adds work / period; the whole part is the normal slice,
and the fraction is kept (R41). -/
def accAdd (acc : Nat × Nat) (work period : Nat) : Nat × (Nat × Nat) :=
  let den := Nat.lcm acc.2 period
  let num := acc.1 * (den / acc.2) + work * (den / period)
  (num / den, (num % den, den))

end Sys2Proof.Machine
end

