-- ==== Sys2Proof/Machine/Aes.lean ====
section
/-! DEFINITION. The cryptographic primitives that the spec names: AES-128 (FIPS 197), AES-CMAC (RFC 4493), CCM* (IEEE 802.15.4-2020), AES key
wrap (RFC 3394), SHA-256 (FIPS 180-4) and the verification of ECDSA P-256 (FIPS 186-4). PRESUMED: each is as its standard gives it, which the
spec names and does not repeat (log entry 136). Octets are numbers below 256 inside a primitive, most significant first. -/

namespace Sys2Proof

/-- Exclusive or of two octet sequences, as long as the shorter. -/
def xorBytes (a b : List Nat) : List Nat := List.zipWith Nat.xor a b

/-- The number that octets spell, and the n octets of a number. -/
def numOf (b : List Nat) : Nat := b.foldl (fun a x => a * 256 + x) 0
def octetsOf (n v : Nat) : List Nat := (List.range n).map (fun k => v / 256 ^ (n - 1 - k) % 256)

def toNats (b : List Byte) : List Nat := b.map BitVec.toNat
def ofNats (b : List Nat) : List Byte := b.map (BitVec.ofNat 8)

/-- The sequence cut into blocks of n octets, the last one maybe shorter; `fuel` bounds their number. -/
def blocksOf (n : Nat) : Nat → List Nat → List (List Nat)
  | 0, _ => []
  | fuel + 1, b => if b.isEmpty then [] else b.take n :: blocksOf n fuel (b.drop n)

/-- Zeros up to the next multiple of 16 octets. -/
def pad16 (b : List Nat) : List Nat := b ++ List.replicate ((16 - b.length % 16) % 16) 0

/-! ### AES-128 -/

/-- Times x in GF(2^8) with the polynomial 0x11B. -/
def xtime (a : Nat) : Nat := if a < 128 then 2 * a else Nat.xor (2 * a) 0x11B

def gfMulN : Nat → Nat → Nat → Nat
  | 0, _, _ => 0
  | n + 1, a, b => Nat.xor (if b % 2 = 1 then a else 0) (gfMulN n (xtime a) (b / 2))

/-- The product in GF(2^8). -/
def gfMul (a b : Nat) : Nat := gfMulN 8 a b

/-- The inverse in GF(2^8), 0 for 0: the power 254. -/
def gfInv (a : Nat) : Nat :=
  let p2 := gfMul a a
  let p3 := gfMul p2 a
  let p12 := gfMul (gfMul p3 p3) (gfMul p3 p3)
  let p15 := gfMul p12 p3
  let sq := fun x => gfMul x x
  gfMul (gfMul (sq (sq (sq (sq p15)))) p12) p2

def rotl8 (n a : Nat) : Nat := (a * 2 ^ n + a / 2 ^ (8 - n)) % 256

/-- The S-box and its inverse. -/
def subByte (a : Nat) : Nat :=
  let i := gfInv a
  Nat.xor (Nat.xor (Nat.xor (Nat.xor (Nat.xor i (rotl8 1 i)) (rotl8 2 i)) (rotl8 3 i)) (rotl8 4 i)) 0x63
def subByteInv (a : Nat) : Nat := gfInv (Nat.xor (Nat.xor (Nat.xor (rotl8 1 a) (rotl8 3 a)) (rotl8 6 a)) 0x05)

/-- ShiftRows and its inverse, over 16 octets in columns. -/
def shiftRows (s : List Nat) : List Nat := (List.range 16).map (fun i => s.getD ((i + 4 * (i % 4)) % 16) 0)
def shiftRowsInv (s : List Nat) : List Nat := (List.range 16).map (fun i => s.getD ((i + 16 - 4 * (i % 4)) % 16) 0)

/-- MixColumns with the coefficients of a row. -/
def mixWith (row : List Nat) (s : List Nat) : List Nat :=
  (List.range 16).map (fun i => (List.range 4).foldl (fun x k =>
    Nat.xor x (gfMul (row.getD ((k + 4 - i % 4) % 4) 0) (s.getD (i / 4 * 4 + k) 0))) 0)

/-- The next round key, by its round constant. -/
def nextKey (k : List Nat) (rcon : Nat) : List Nat :=
  let w := fun i => (k.drop (4 * i)).take 4
  let t := (w 3).drop 1 ++ (w 3).take 1
  let w0 := xorBytes (w 0) (xorBytes (t.map subByte) [rcon, 0, 0, 0])
  let w1 := xorBytes (w 1) w0
  let w2 := xorBytes (w 2) w1
  w0 ++ w1 ++ w2 ++ xorBytes (w 3) w2

/-- The eleven round keys, the last first; a key of other than 16 octets is cut or filled with zeros. -/
def roundKeys (key : List Nat) : List (List Nat) :=
  [1, 2, 4, 8, 16, 32, 64, 128, 27, 54].foldl (fun l r => nextKey (l.headD []) r :: l) [(key ++ List.replicate 16 0).take 16]

/-- One block under AES-128. -/
def aesEncrypt (key block : List Nat) : List Nat :=
  match (roundKeys key).reverse with
  | [] => []
  | k0 :: ks =>
    let s := (ks.take 9).foldl (fun s k => xorBytes (mixWith [2, 3, 1, 1] (shiftRows (s.map subByte))) k) (xorBytes block k0)
    xorBytes (shiftRows (s.map subByte)) (ks.getD 9 [])

/-- One block decrypted under AES-128. -/
def aesDecrypt (key block : List Nat) : List Nat :=
  match roundKeys key with
  | [] => []
  | k10 :: ks =>
    let s := (ks.take 9).foldl (fun s k => mixWith [14, 11, 13, 9] (xorBytes ((shiftRowsInv s).map subByteInv) k)) (xorBytes block k10)
    xorBytes ((shiftRowsInv s).map subByteInv) (ks.getD 9 [])

/-! ### AES-CMAC -/

/-- Doubling in GF(2^128), for the subkeys. -/
def cmacDouble (b : List Nat) : List Nat :=
  let v := numOf b
  octetsOf 16 (if v < 2 ^ 127 then 2 * v else Nat.xor (2 * v % 2 ^ 128) 0x87)

/-- CBC-MAC from a first value over whole blocks. -/
def cbcMac (key : List Nat) (iv : List Nat) (m : List Nat) : List Nat :=
  (blocksOf 16 m.length m).foldl (fun x b => aesEncrypt key (xorBytes x b)) iv

def aesCmacNat (key m : List Nat) : List Nat :=
  let k1 := cmacDouble (aesEncrypt key (List.replicate 16 0))
  let n := (m.length - 1) / 16 * 16
  let last := m.drop n
  let x := if last.length = 16 then xorBytes last k1 else xorBytes (pad16 (last ++ [0x80])) (cmacDouble k1)
  aesEncrypt key (xorBytes (cbcMac key (List.replicate 16 0) (m.take n)) x)

/-- AES-CMAC of a message under a key (R217, R338, R443): 16 octets. -/
def aesCmac (key m : List Byte) : List Byte := ofNats (aesCmacNat (toNats key) (toNats m))

/-! ### CCM* -/

/-- MIC octets of a security level (R332). -/
def micOctets (level : Nat) : Nat :=
  match level with
  | 1 => 4 | 2 => 8 | 3 => 16 | 5 => 4 | 6 => 8 | 7 => 16 | _ => 0

/-- Counter block i of a nonce of 13 octets, and n octets of the key stream from block 1. -/
def ccmCounter (nonce : List Nat) (i : Nat) : List Nat := 1 :: nonce ++ octetsOf 2 i
def ccmStream (key nonce : List Nat) (n : Nat) : List Nat :=
  ((List.range ((n + 15) / 16)).flatMap (fun i => aesEncrypt key (ccmCounter nonce (i + 1)))).take n

/-- The tag over what is authenticated only and the message in clear, of t octets; none for t = 0. -/
def ccmTag (key nonce : List Nat) (t : Nat) (a m : List Nat) : List Nat :=
  let flags := (if a.isEmpty then 0 else 64) + 8 * ((t - 2) / 2) + 1
  let head := flags :: nonce ++ octetsOf 2 m.length
  let auth := if a.isEmpty then [] else pad16 (octetsOf 2 a.length ++ a)
  (xorBytes (cbcMac key (List.replicate 16 0) (head ++ auth ++ pad16 m)) (aesEncrypt key (ccmCounter nonce 0))).take t

def ccmCrypt (key nonce : List Nat) (level : Nat) (m : List Nat) : List Nat :=
  if 4 ≤ level then xorBytes m (ccmStream key nonce m.length) else m

def ccmTagOf (key nonce : List Nat) (level : Nat) (a m : List Nat) : List Nat :=
  if 4 ≤ level then ccmTag key nonce (micOctets level) a m else ccmTag key nonce (micOctets level) (a ++ m) []

/-- CCM* (R332): under a key, nonce and level, what is authenticated only and what is encrypted at levels 4 to 7; the private part as sent,
with its MIC. -/
def ccmSeal (key nonce : List Byte) (level : Nat) (a m : List Byte) : List Byte :=
  let k := toNats key; let n := toNats nonce; let x := toNats m
  ofNats (ccmCrypt k n level x ++ ccmTagOf k n level (toNats a) x)

/-- CCM* (R332): under a key, nonce and level, what is authenticated only and the private part as it came; the private part in clear, or
none where the check fails. -/
def ccmOpen (key nonce : List Byte) (level : Nat) (a c : List Byte) : Option (List Byte) :=
  let k := toNats key; let n := toNats nonce; let x := toNats c
  if x.length < micOctets level then none
  else
    let body := x.take (x.length - micOctets level)
    let m := ccmCrypt k n level body
    if ccmTagOf k n level (toNats a) m = x.drop (x.length - micOctets level) then some (ofNats m) else none

/-! ### AES key wrap (RFC 3394) of 16 octets -/

/-- The 12 steps, forwards from (A, R1, R2). -/
def wrapStep (key : List Nat) (s : List Nat × List Nat × List Nat) (t : Nat) : List Nat × List Nat × List Nat :=
  let r := if t % 2 = 1 then s.2.1 else s.2.2
  let b := aesEncrypt key (s.1 ++ r)
  let a := xorBytes (b.take 8) (octetsOf 8 t)
  if t % 2 = 1 then (a, b.drop 8, s.2.2) else (a, s.2.1, b.drop 8)

/-- One step backwards. -/
def unwrapStep (key : List Nat) (s : List Nat × List Nat × List Nat) (t : Nat) : List Nat × List Nat × List Nat :=
  let r := if t % 2 = 1 then s.2.1 else s.2.2
  let b := aesDecrypt key (xorBytes s.1 (octetsOf 8 t) ++ r)
  if t % 2 = 1 then (b.take 8, b.drop 8, s.2.2) else (b.take 8, s.2.1, b.drop 8)

def wrapSteps : List Nat := (List.range 12).map (· + 1)
def wrapIv : List Nat := List.replicate 8 0xA6

/-- A 16-octet key wrapped: 24 octets. -/
def keyWrap (kek key : List Byte) : List Byte :=
  let p := toNats key
  let x := wrapSteps.foldl (wrapStep (toNats kek)) (wrapIv, p.take 8, p.drop 8)
  ofNats (x.1 ++ x.2.1 ++ x.2.2)

/-- The key that 24 octets wrap, or none where the integrity check fails (R335, R350). -/
def keyUnwrap (kek c : List Byte) : Option (List Byte) :=
  let x := toNats c
  let y := wrapSteps.reverse.foldl (unwrapStep (toNats kek)) (x.take 8, (x.drop 8).take 8, x.drop 16)
  if x.length = 24 ∧ y.1 = wrapIv then some (ofNats (y.2.1 ++ y.2.2)) else none

/-! ### SHA-256 -/

/-- The first 64 primes, whose roots give the constants. -/
def shaPrimes : List Nat :=
  (List.range 312).filter (fun n => decide (2 ≤ n) && (List.range 18).all (fun k => decide (k < 2) || decide (n ≤ k) || n % k != 0))

/-- The greatest r with r^e ≤ n, by its bits from 2^k down. -/
def rootOf (e n : Nat) : Nat → Nat → Nat
  | 0, r => r
  | k + 1, r => let r1 := r + 2 ^ k; rootOf e n k (if r1 ^ e ≤ n then r1 else r)

/-- The first 32 bits of the fractional parts of the cube roots and of the square roots of the primes. -/
def shaK : List Nat := shaPrimes.map (fun p => rootOf 3 (p * 2 ^ 96) 35 0 % 2 ^ 32)
def shaH : List Nat := (shaPrimes.take 8).map (fun p => rootOf 2 (p * 2 ^ 64) 37 0 % 2 ^ 32)

def rotr32 (n a : Nat) : Nat := a / 2 ^ n + a % 2 ^ n * 2 ^ (32 - n)
def xor3 (a b c : Nat) : Nat := Nat.xor (Nat.xor a b) c
def choose32 (e f g : Nat) : Nat := Nat.xor (Nat.land e f) (Nat.land (Nat.xor e (2 ^ 32 - 1)) g)

/-- The message schedule: the last 16 words first, extended by n words. -/
def shaSchedule : Nat → List Nat → List Nat
  | 0, w => w
  | n + 1, w =>
    let x := w.getD 1 0; let y := w.getD 14 0
    let s1 := xor3 (rotr32 17 x) (rotr32 19 x) (x / 2 ^ 10)
    let s0 := xor3 (rotr32 7 y) (rotr32 18 y) (y / 2 ^ 3)
    shaSchedule n ((s1 + w.getD 6 0 + s0 + w.getD 15 0) % 2 ^ 32 :: w)

def shaRound (h : List Nat) (kw : Nat × Nat) : List Nat :=
  let g := fun i => h.getD i 0
  let t1 := g 7 + xor3 (rotr32 6 (g 4)) (rotr32 11 (g 4)) (rotr32 25 (g 4)) + choose32 (g 4) (g 5) (g 6) + kw.1 + kw.2
  let t2 := xor3 (rotr32 2 (g 0)) (rotr32 13 (g 0)) (rotr32 22 (g 0))
    + xor3 (Nat.land (g 0) (g 1)) (Nat.land (g 0) (g 2)) (Nat.land (g 1) (g 2))
  [(t1 + t2) % 2 ^ 32, g 0, g 1, g 2, (g 3 + t1) % 2 ^ 32, g 4, g 5, g 6]

def shaBlock (h b : List Nat) : List Nat :=
  let w := (shaSchedule 48 ((blocksOf 4 16 b).map numOf).reverse).reverse
  List.zipWith (fun x y => (x + y) % 2 ^ 32) h ((shaK.zip w).foldl shaRound h)

/-- SHA-256 of a message (R486, R487). -/
def sha256 (m : List Byte) : List Byte :=
  let x := toNats m ++ [0x80]
  let p := x ++ List.replicate ((120 - x.length % 64) % 64) 0 ++ octetsOf 8 (8 * m.length)
  ofNats (((blocksOf 64 p.length p).foldl shaBlock shaH).flatMap (octetsOf 4))

/-! ### ECDSA P-256 -/

def p256P : Nat := 2 ^ 256 - 2 ^ 224 + 2 ^ 192 + 2 ^ 96 - 1
def p256N : Nat := 0xFFFFFFFF00000000FFFFFFFFFFFFFFFFBCE6FAADA7179E84F3B9CAC2FC632551
def p256B : Nat := 0x5AC635D8AA3A93E7B3EBBD55769886BC651D06B0CC53B0F63BCE3C3E27D2604B
def p256Gx : Nat := 0x6B17D1F2E12C4247F8BCE6E563A440F277037D812DEB33A0F4A13945D898C296
def p256Gy : Nat := 0x4FE342E2FE1A7F9B8EE7EB4A7C0F9E162BCE33576B315ECECBB6406837BF51F5

/-- The power a^e modulo m, e of n bits. -/
def powMod (a m : Nat) : Nat → Nat → Nat
  | 0, _ => 1 % m
  | n + 1, e => let r := powMod (a * a % m) m n (e / 2); if e % 2 = 1 then r * a % m else r

/-- The inverse modulo a prime. -/
def invMod (a m : Nat) : Nat := powMod a m 256 (m - 2)

/-- The sum of two points of the curve; none is the point at infinity. -/
def ecAdd (a b : Option (Nat × Nat)) : Option (Nat × Nat) :=
  match a, b with
  | none, _ => b
  | _, none => a
  | some (x1, y1), some (x2, y2) =>
    if x1 = x2 ∧ (y1 + y2) % p256P = 0 then none
    else
      let l := if x1 = x2 then (3 * x1 * x1 + p256P - 3) * invMod (2 * y1) p256P % p256P
        else (y2 + p256P - y1) * invMod (x2 + p256P - x1) p256P % p256P
      let x3 := (l * l + 2 * p256P - x1 - x2) % p256P
      some (x3, (l * (x1 + p256P - x3) + p256P - y1) % p256P)

/-- A multiple of a point, by a number of n bits. -/
def ecMul : Nat → Nat → Option (Nat × Nat) → Option (Nat × Nat)
  | 0, _, _ => none
  | n + 1, k, q => let r := ecMul n (k / 2) (ecAdd q q); if k % 2 = 1 then ecAdd q r else r

/-- Whether (r, s) is an ECDSA P-256 signature of a digest under a public key (R487). -/
def ecdsaOk (key : Nat × Nat) (digest r s : List Byte) : Bool :=
  let rn := numOf (toNats r); let sn := numOf (toNats s)
  let w := invMod sn p256N
  let z := numOf (toNats digest)
  decide (0 < rn) && decide (rn < p256N) && decide (0 < sn) && decide (sn < p256N)
    && (match ecAdd (ecMul 256 (z * w % p256N) (some (p256Gx, p256Gy))) (ecMul 256 (rn * w % p256N) (some key)) with
      | some (x, _) => x % p256N == rn
      | none => false)

end Sys2Proof
end

