-- ==== Sys2Proof/Machine/Air.lean ====
section
/-! DEFINITION. Frames as octets and bits: IEEE 802.15.4 MAC headers, IEs and FCS, the vendor IEs of R130, R299 and R322, EN 13757-4
blocks and their CRCs, and the bits of SHR, PHR and PSDU on the air (R249, R250, R271, R272, R290, R298).
PRESUMED: what the spec takes from IEEE 802.15.4-2020 and EN 13757-4 without repeating it (log entry 111). -/

namespace Sys2Proof

/-! ### Octets of IEEE 802.15.4: least significant octet first -/

def leBytes (n v : Nat) : List Byte := (List.range n).map (fun k => BitVec.ofNat 8 (v / 256 ^ k))
def leField (b : List Byte) (i n : Nat) : Nat := ((List.range n).map (fun k => (b.getD (i + k) 0).toNat * 256 ^ k)).sum

/-! ### Payload IEs (R298) -/

/-- A payload IE: its length, Group ID and type 1, then its content. -/
def payloadIe (group : Nat) (content : List Byte) : List Byte :=
  leBytes 2 (content.length % 2048 + group * 2048 + 32768) ++ content

/-- The payload termination IE. -/
def ieEnd : List Byte := leBytes 2 0xF800

/-- The Amgikai vendor identifier (R298). -/
def vendorId : List Byte := [0x4A, 0xD2, 0x71]

/-- The vendor-specific payload IE with a sub-type and what follows it (R298). -/
def vendorIe (sub : Nat) (body : List Byte) : List Byte := payloadIe 2 (vendorId ++ beBytes 1 sub ++ body)

/-- RETRY_AFTER: sub-type 0x01 and the seconds (R130). -/
def retryIe (secs : Nat) : List Byte := vendorIe 1 (beBytes 2 secs)

/-- The Quatos beacon IE (R299). -/
def BeaconIe.octets (x : BeaconIe) : List Byte :=
  vendorIe 2 (beBytes 1 x.flags ++ beBytes 8 x.brId ++ beBytes 2 x.interval ++ beBytes 8 x.blocks)

/-- The Quatos Flood Header (R322). -/
def FloodHdr.octets (h : FloodHdr) : List Byte :=
  vendorIe 3 (beBytes 1 h.flags ++ beBytes 1 h.ttl ++ beBytes 2 h.originPan ++ beBytes 2 h.originShort ++ beBytes 2 h.fseq)

/-- The payload IEs of some octets, as Group ID and content, up to the termination; `fuel` bounds their number. -/
def payloadIes : Nat → List Byte → List (Nat × List Byte)
  | 0, _ => []
  | n + 1, b =>
    let w := leField b 0 2
    if b.length < 2 ∨ w / 2048 % 16 = 15 then [] else (w / 2048 % 16, (b.drop 2).take (w % 2048)) :: payloadIes n (b.drop (2 + w % 2048))

/-- Octets that payload IEs take, their termination included. -/
def iesLength : Nat → List Byte → Nat
  | 0, _ => 0
  | n + 1, b =>
    let w := leField b 0 2
    if b.length < 2 then b.length
    else if w / 2048 % 16 = 15 then 2 + w % 2048
    else 2 + w % 2048 + iesLength n (b.drop (2 + w % 2048))

/-- What follows the sub-type in the first vendor IE of a sub-type; IEs of other groups, identifiers and sub-types are passed over
(R290, R298). -/
def MacFrame.vendor (f : MacFrame) (sub : Nat) : Option (List Byte) :=
  (payloadIes f.ies.length f.ies).findSome? (fun x =>
    if x.1 = 2 ∧ x.2.take 4 = vendorId ++ beBytes 1 sub then some (x.2.drop 4) else none)

/-- The Flood Header that a frame carries (R322). -/
def MacFrame.flood (f : MacFrame) : Option FloodHdr :=
  (f.vendor 3).map (fun b => { flags := beField b 0 1, ttl := beField b 1 1, originPan := beField b 2 2, originShort := beField b 4 2,
                               fseq := beField b 6 2 })

/-- The payload IEs of a relayed flood: as received, but for the TTL of its Flood Header, one less (R325); `fuel` bounds their
number. -/
def relayIes : Nat → List Byte → List Byte
  | 0, b => b
  | n + 1, b =>
    let w := leField b 0 2
    let m := w % 2048
    if b.length < 2 ∨ w / 2048 % 16 = 15 then b
    else if w / 2048 % 16 = 2 ∧ ((b.drop 2).take m).take 4 = vendorId ++ beBytes 1 3 then b.set 7 (BitVec.ofNat 8 (beField b 7 1 - 1))
    else b.take (2 + m) ++ relayIes n (b.drop (2 + m))

/-- The Quatos beacon IE that a frame carries (R299); one cut short is passed over. -/
def MacFrame.beacon (f : MacFrame) : Option BeaconIe :=
  match f.vendor 2 with
  | some b => if b.length < 19 then none
    else some { flags := beField b 0 1, brId := beField b 1 8, interval := beField b 9 2, blocks := beField b 11 8 }
  | none => none

/-! ### MAC frames (R290, R332) -/

/-- Addressing mode of an address. -/
def Addr.mode : Addr → Nat
  | .none => 0
  | .short _ => 2
  | .ext _ => 3

def Addr.octets : Addr → List Byte
  | .none => []
  | .short a => leBytes 2 a
  | .ext x => leBytes 8 x

/-- The Auxiliary Security Header: control, counter, and the key index in mode 1 (R332). -/
def SecHdr.octets (h : SecHdr) : List Byte :=
  leBytes 1 (h.level + 8 * h.mode) ++ leBytes 4 h.counter ++ (if h.mode = 1 then leBytes 1 h.keyIndex else [])

/-- Header IEs of a frame that the Quatos builds: Time Correction in an Enh-Ack (R318), and the terminator before payload IEs. -/
def MacFrame.headerIes (f : MacFrame) : List Byte :=
  (match f.timeCorr with
    | some c => leBytes 2 (2 + 0x1E * 128) ++ leBytes 2 ((c % 4096).toNat)
    | none => [])
    ++ (if f.ies.isEmpty then [] else leBytes 2 0x3F00)

/-- The MAC header of a frame that the Quatos builds: frame control, sequence number, at most one PAN ID, addresses, security
and header IEs. A frame with a source has one PAN ID, that of the destination where there is one. -/
def MacFrame.header (f : MacFrame) : List Byte :=
  let hie := f.headerIes
  let fcf := f.ftype + (if f.sec.isSome then 8 else 0) + (if f.ackReq then 32 else 0) + (if f.dst = .none then 0 else 64)
    + (if hie.isEmpty then 0 else 512) + 1024 * f.dst.mode + 4096 * f.version + 16384 * f.src.mode
  let pan := if f.src = .none then [] else leBytes 2 f.panId
  leBytes 2 fcf ++ leBytes 1 f.seq ++ (if f.dst = .none then [] else pan) ++ f.dst.octets ++ (if f.dst = .none then pan else [])
    ++ f.src.octets ++ (match f.sec with
      | some h => h.octets
      | none => []) ++ hie

/-- The identifier of a MAC command, as an octet. -/
def MacFrame.cmdOctets (f : MacFrame) : List Byte :=
  match f.cmd with
  | some c => leBytes 1 c
  | none => []

/-- What CCM* authenticates only, and what it may encrypt too: the identifier of a MAC command is open where no payload IE stands
before it. -/
def MacFrame.openPart (f : MacFrame) : List Byte := f.header ++ (if f.ies.isEmpty then f.cmdOctets else [])
def MacFrame.closedPart (f : MacFrame) : List Byte := f.ies ++ (if f.ies.isEmpty then [] else f.cmdOctets) ++ f.payload

/-- The CCM* nonce: source extended address, frame counter, security level (R332). -/
def ccmNonce (ext : Nat) (h : SecHdr) : List Byte := beBytes 8 ext ++ beBytes 4 h.counter ++ beBytes 1 h.level

/-- A frame's octets without its FCS, secured under a key where it has a security header (R333, R344). -/
def MacFrame.octets (f : MacFrame) (key : List Byte) : List Byte :=
  f.openPart ++ (match f.sec with
    | some h => ccmSeal key (ccmNonce Config.brId.toNat h) h.level f.openPart f.closedPart
    | none => f.closedPart)

/-- Header IEs of some octets: element identifier and content; whether payload IEs follow; and the octets they take. -/
def walkIes : Nat → List Byte → List (Nat × List Byte) × Bool × Nat
  | 0, _ => ([], false, 0)
  | n + 1, b =>
    let w := leField b 0 2
    let len := w % 128
    let id := w / 128 % 256
    if b.length < 2 then ([], false, 0)
    else if id = 0x7E then ([], true, 2)
    else if id = 0x7F then ([], false, 2)
    else
      let x := walkIes n (b.drop (2 + len))
      ((id, (b.drop 2).take len) :: x.1, x.2.1, 2 + len + x.2.2)

/-- An address of some octets, by its mode. -/
def addrOf (mode : Nat) (b : List Byte) (i : Nat) : Addr :=
  if mode = 2 then .short (leField b i 2) else if mode = 3 then .ext (leField b i 8) else .none

def addrLen (mode : Nat) : Nat := if mode = 2 then 2 else if mode = 3 then 8 else 0

/-- Which PAN IDs a frame control field says are present: destination's and source's (IEEE 802.15.4-2020, table 7-2). -/
def panFields (ver dm sm : Nat) (comp : Bool) : Bool × Bool :=
  if ver < 2 then (dm != 0, sm != 0 && !comp)
  else if dm = 0 ∧ sm = 0 then (comp, false)
  else if sm = 0 then (!comp, false)
  else if dm = 0 then (false, !comp)
  else if dm = 3 ∧ sm = 3 then (!comp, false)
  else (true, !comp)

/-- The part of a frame that CCM* may have encrypted, in clear: payload IEs, the identifier of a command after them, the payload. -/
def MacFrame.opened (f : MacFrame) (plain : List Byte) : MacFrame :=
  if f.payIes then
    let n := iesLength plain.length plain
    let rest := plain.drop n
    { f with ies := plain.take n, cmd := if f.ftype = 3 then rest.head?.map (fun c => c.toNat) else none,
             payload := if f.ftype = 3 then rest.drop 1 else rest }
  else { f with payload := plain }

/-- A received MAC frame from its octets without FCS; none where it uses a feature that R290 leaves out, or is cut short. The private
part of a secured frame stays closed. -/
def MacFrame.ofOctets (b : List Byte) : Option MacFrame :=
  let w := leField b 0 2
  let ftype := w % 8
  let dm := w / 1024 % 4
  let ver := w / 4096 % 4
  let sm := w / 16384 % 4
  let flag := fun (i : Nat) => w / 2 ^ i % 2 == 1
  let pans := panFields ver dm sm (flag 6)
  let o1 := if pans.1 then 5 else 3
  let o2 := o1 + addrLen dm
  let o3 := if pans.2 then o2 + 2 else o2
  let o4 := o3 + addrLen sm
  let sc := leField b o4 1
  let bare := sc / 32 % 2 == 1
  let kim := sc / 8 % 4
  let ctr := if bare then 0 else 4
  let auxLen := 1 + ctr + (if kim = 0 then 0 else if kim = 1 then 1 else if kim = 2 then 5 else 9)
  let sec : Option SecHdr := if flag 3 then
      some { level := sc % 8, mode := kim, keyIndex := leField b (o4 + 1 + ctr) 1, counter := leField b (o4 + 1) ctr,
             supported := decide (kim < 2) && !bare && sc / 64 % 2 == 0 && sc % 8 != 0 }
    else none
  let o5 := if flag 3 then o4 + auxLen else o4
  let hie := if flag 9 then walkIes b.length (b.drop o5) else ([], false, 0)
  let o6 := o5 + hie.2.2
  let early : Bool := ftype == 3 && !hie.2.1
  let o7 := if early then o6 + 1 else o6
  let csl := (hie.1.find? (fun x => x.1 == 0x1A && decide (4 ≤ x.2.length))).map (fun x => (leField x.2 0 2, leField x.2 2 2))
  let f : MacFrame := { MacFrame.blank with
    version := ver, ftype := ftype, ackReq := flag 5, seq := leField b 2 1,
    panId := if pans.1 then leField b 3 2 else if pans.2 then leField b o2 2 else 0xFFFF,
    dst := addrOf dm b o1, src := addrOf sm b o3, sec := sec, csl := csl, payIes := hie.2.1,
    cmd := if early then some (leField b o6 1) else none, mhr := b.take o7, closed := if sec.isSome then b.drop o7 else [] }
  if ver = 3 ∨ 3 < ftype ∨ flag 8 = true ∨ dm = 1 ∨ sm = 1 ∨ (sm = 0 ∧ ftype ≠ 2) ∨ (ftype = 0 ∧ ver ≠ 2) ∨ b.length < o7 then none
  else some (if sec.isSome then f else f.opened (b.drop o7))

/-- MAC commands that the Quatos receives (R290): Association Request, Disassociation Notification and, in one identifier, Beacon
Request and Enhanced Beacon Request. One whose identifier is still closed is judged once it is open. -/
def MacFrame.cmdKnown (f : MacFrame) : Bool :=
  f.ftype != 3 || (match f.cmd with
    | some c => c == 1 || c == 3 || c == 7
    | none => f.payIes && f.sec.isSome && f.payload.isEmpty)

/-- A frame with its private part opened under a key, for a source's extended address; none where CCM* fails. Level 4 carries no MIC
(R333). -/
def MacFrame.unseal (f : MacFrame) (key : List Byte) (ext : Nat) : Option MacFrame :=
  match f.sec with
  | none => some f
  | some h => match ccmOpen key (ccmNonce ext h) h.level f.mhr f.closed with
    | some plain => some (f.opened plain)
    | none => if h.level = 4 then some (f.opened []) else none

/-- The originator and the final destination of a Mesh Addressing header (RFC 4944; R391), and the octets that the header takes. -/
def MacFrame.meshHeader (f : MacFrame) : Option (Addr × Addr × Nat) :=
  let b := f.payload
  let c := leField b 0 1
  if b.isEmpty ∨ c / 64 ≠ 2 then none
  else
    let o := if c % 16 = 15 then 2 else 1
    let origin := if c / 32 % 2 = 1 then (Addr.short (beField b o 2), 2) else (Addr.ext (beField b o 8), 8)
    let k := o + origin.2
    some (origin.1, if c / 16 % 2 = 1 then (Addr.short (beField b k 2), k + 2) else (Addr.ext (beField b k 8), k + 8))

def MacFrame.mesh (f : MacFrame) : Option Addr := f.meshHeader.map (fun x => x.1)

/-! ### Check sequences (R249, R250) -/

/-- One octet of the CRC-16 of IEEE 802.15.4: x^16 + x^12 + x^5 + 1, least significant bit first. -/
def fcsByte (c b : Nat) : Nat := (List.range 8).foldl (fun x _ => if x % 2 = 1 then x / 2 ^^^ 0x8408 else x / 2) (c ^^^ b)

/-- The FCS of some octets: 2, or 4 for the CRC-32, for which a field below 4 octets is taken with zeros to its end. -/
def fcsOf (four : Bool) (b : List Byte) : List Byte :=
  if four then leBytes 4 (Machine.crc32 (b ++ List.replicate (4 - b.length) 0))
  else leBytes 2 (b.foldl (fun c x => fcsByte c x.toNat) 0)

/-- Whether octets end in their FCS. -/
def fcsGood (four : Bool) (b : List Byte) : Bool :=
  let n := if four then 4 else 2
  decide (n ≤ b.length) && fcsOf four (b.take (b.length - n)) == b.drop (b.length - n)

/-- One octet of the block CRC of EN 13757-4: x^16 + x^13 + x^12 + x^11 + x^10 + x^8 + x^6 + x^5 + x^2 + 1, most significant bit
first. -/
def blockByte (c b : Nat) : Nat :=
  (List.range 8).foldl (fun x _ => if x / 32768 % 2 = 1 then (x * 2 % 65536) ^^^ 0x3D65 else x * 2 % 65536) (c ^^^ (b * 256))

def blockCrc (b : List Byte) : List Byte := beBytes 2 (0xFFFF - b.foldl (fun c x => blockByte c x.toNat) 0)

/-- Lengths of the blocks of a frame of n octets without CRCs: format A has 10, then 16 at a time; format B up to 126, then the
rest. -/
def blockLens (fmtB : Bool) (n : Nat) : List Nat :=
  if fmtB then (if n ≤ 126 then [n] else [126, n - 126])
  else min n 10 :: (List.range ((n - 10 + 15) / 16)).map (fun i => min 16 (n - 10 - 16 * i))

/-- Octets as blocks, each followed by its CRC. -/
def withBlockCrcs : List Nat → List Byte → List Byte
  | [], _ => []
  | n :: t, b => b.take n ++ blockCrc (b.take n) ++ withBlockCrcs t (b.drop n)

/-- Octets of a frame without CRCs, by its L-field: format A counts what follows without CRCs, format B all that follows. -/
def blockOctets (fmtB : Bool) (l : Nat) : Nat :=
  if fmtB then (if l + 1 ≤ 128 then l + 1 - 2 else l + 1 - 4) else l + 1

/-- Whether the blocks of a frame as received all bear their CRC and fill its length. -/
def blocksGood : List Nat → List Byte → Bool
  | [], b => b.isEmpty
  | n :: t, b => decide (n + 2 ≤ b.length) && blockCrc (b.take n) == (b.drop n).take 2 && blocksGood t (b.drop (n + 2))

/-- Whether the L-field is long enough for its format, and the first block bears its CRC. -/
def firstBlockGood (fmtB : Bool) (b : List Byte) : Bool :=
  let l := leField b 0 1
  let n := (blockLens fmtB (blockOctets fmtB l)).headD 0
  decide ((if fmtB then 12 else 9) ≤ l) && decide (n + 2 ≤ b.length) && blockCrc (b.take n) == (b.drop n).take 2

/-! ### Bits on the air (R249, R271, R272) -/

/-- Bits of octets, least significant first; of a number of n bits, most significant first. -/
def octetBits (b : List Byte) : List Bool := b.flatMap (fun x => (List.range 8).map (fun i => x.getLsbD i))
def numBits (n v : Nat) : List Bool := (List.range n).map (fun i => v / 2 ^ (n - 1 - i) % 2 == 1)

/-- n bits of PN9, x^9 + x^5 + 1, from a register of ones. -/
def pn9 : Nat → List Bool → List Bool
  | 0, _ => []
  | n + 1, r =>
    let b := r.getD 8 false != r.getD 3 false
    b :: pn9 n (b :: r.take 8)

/-- Octets whitened, or their whitening taken off (R249). -/
def whiten (b : List Byte) : List Byte :=
  let s := pn9 (8 * b.length) (List.replicate 9 true)
  (List.range b.length).map (fun k => b.getD k 0 ^^^
    BitVec.ofNat 8 (((List.range 8).map (fun i => if s.getD (8 * k + i) false then 2 ^ i else 0)).sum))

/-- The 2-octet PHR of SUN FSK: FCS type (1 for 2 octets), whitening, length. -/
def sunPhr (four white : Bool) (n : Nat) : Nat := (if four then 0 else 4096) + (if white then 2048 else 0) + n % 2048

/-- The bits of a frame: SHR, PHR and PSDU, or preamble, synchronising word and blocks of mode N (R272). OPTS as in R285; `psdu` holds
the FCS or block CRCs. -/
def airBits (phy opts preamble : Nat) (psdu : List Byte) : List Bool :=
  let o := fun (i : Nat) => opts / 2 ^ i % 2 == 1
  if phy = 0x01 then octetBits ([0, 0, 0, 0, 0xA7, BitVec.ofNat 8 psdu.length] ++ psdu)
  else if phy ≤ 0x15 then
    let body := numBits 16 (sunPhr (o 1) (o 2) psdu.length) ++ octetBits (if o 2 then whiten psdu else psdu)
    (List.replicate preamble (if phy = 0x15 then 0x77 else 0x55)).flatMap (fun x => numBits 8 x)
      ++ numBits 16 (if o 3 then 0x6F4E else 0x904E) ++ (if o 3 then Config.sunFec (o 4) body else body)
  else numBits 16 0x5555 ++ numBits 16 (if o 5 then 0xF672 else 0xF68D) ++ psdu.flatMap (fun x => numBits 8 x.toNat)

end Sys2Proof
end

