-- ==== Sys2Proof/Machine/Rings.lean ====
section
/-! DEFINITION. Command rings: acceptance, issue and delivery of completions, held completions (R150 to R162). -/

namespace Sys2Proof

/-- Parameter fields of an entry: byte, 2, 3, 4 and 8 bytes at an offset of PARAMS (R151). -/
def Entry.p1 (e : Entry) (i : Nat) : Nat := beField e.params i 1
def Entry.p2 (e : Entry) (i : Nat) : Nat := beField e.params i 2
def Entry.p3 (e : Entry) (i : Nat) : Nat := beField e.params i 3
def Entry.p4 (e : Entry) (i : Nat) : Nat := beField e.params i 4
def Entry.p8 (e : Entry) (i : Nat) : Nat := beField e.params i 8

/-- Whether every byte of PARAMS from offset i on is zero (R151: unused bytes zero). -/
def Entry.zeroFrom (e : Entry) (i : Nat) : Bool := (e.params.drop i).all (fun b => b == 0)

end Sys2Proof

namespace Sys2Proof.Machine

/-- The parts of ring n that no register shows. -/
def Dev.ring (d : Dev) (n : Nat) : Ring := d.rings.getD n ⟨[], [], false, false⟩

def Dev.setRing (d : Dev) (n : Nat) (r : Ring) : Dev := { d with rings := setAt d.rings n r }

def Dev.lastHseq (d : Dev) (n : Nat) : Nat := d.get (F.HOST_RING_STATE_LAST_HSEQ n)
def Dev.lastDseq (d : Dev) (n : Nat) : Nat := d.get (F.HOST_RING_STATE_LAST_DSEQ n)

/-- HELD_OLDEST: the DSEQ of the oldest held completion, or LAST_DSEQ + 1 (R159). -/
def Dev.heldOldest (d : Dev) (n : Nat) : Nat :=
  match (d.ring n).held with
  | [] => (d.lastDseq n + 1) % 65536
  | c :: _ => c.dseq

/-- What ring n still holds once the completion with DSEQ `ds` is issued beside it: those of the last 4,096 issued (R159). -/
def Dev.heldAt (d : Dev) (n ds : Nat) : List Compl :=
  (d.ring n).held.filter (fun c => decide ((ds + 65536 - c.dseq) % 65536 < 4096))

/-- HELD_OLDEST once ring n has issued one more completion. -/
def Dev.nextOldest (d : Dev) (n : Nat) : Nat :=
  let ds := (d.lastDseq n + 1) % 65536
  match d.heldAt n ds with
  | [] => ds
  | c :: _ => c.dseq

/-- Whether ring n goes over PCI Express (R150). -/
def Dev.ringPcie (d : Dev) (n : Nat) : Bool := d.get (F.HOST_RING_CFG_TRANSPORT n) == 0

def Dev.ringEn (d : Dev) (n : Nat) : Bool := d.is (F.HOST_RING_CFG_EN n)

def Dev.ringInflight (d : Dev) (n : Nat) : Nat := (d.inflight.filter (fun c => c.ring == n)).length

/-- Completions in the completion ring that the host has not consumed (R157). -/
def Dev.cqUsed (d : Dev) (n : Nat) : Nat :=
  (d.get (F.HOST_CQ_STATE_CQ_WRITTEN n) + 65536 - d.get (F.HOST_CQ_DB_VALUE n)) % 65536

/-- Entries announced by the doorbell and not yet fetched: a doorbell value lies at most 4,096 ahead (R157). A ring enabled with no new
doorbell takes the value that stands (DESIGN CHOICE, log entry 115). -/
def Dev.announced (d : Dev) (n : Nat) : Nat :=
  let a := (d.get (F.HOST_SQ_DB_VALUE n) + 65536 - d.lastHseq n) % 65536
  if a ≤ 4096 then a else 0

/-- Whether ring n fetches: enabled over PCI Express, not stopped, with entries announced. -/
def Dev.fetching (d : Dev) (n : Nat) : Bool :=
  d.ringEn n && d.ringPcie n && !(d.ring n).stopped && !(d.ring n).dead && decide (0 < d.announced n)

/-- Whether ring n is the one whose turn it is: the first that fetches after the one that fetched last (R156). -/
def Dev.turnOf (d : Dev) (n : Nat) : Bool :=
  ((List.range 8).map (fun i => (d.fetched + 1 + i) % 8)).find? (fun m => d.fetching m) == some n

/-- RING_STAT.IDLE: not fetching, with no commands in flight (R168). -/
def Dev.ringIdle (d : Dev) (n : Nat) : Bool := !d.fetching n && d.ringInflight n == 0

/-- A completion of ring n can be written: its completion ring has space, and the link is up (R66, R157). -/
def Dev.cqRoom (d : Dev) (n : Nat) : Bool := decide (d.cqUsed n < 4096) && d.is F.PCIE_LINK_UP

/-- A command leaves the in-flight list. -/
def Dev.retire (d : Dev) (n hseq : Nat) : Dev :=
  { d with inflight := d.inflight.filter (fun c => !(c.ring == n && c.e.hseq == hseq)) }

/-- PHASE of the next completion written: 1 while CQ_WRITTEN / 4,096 is even (R157). -/
def Dev.cqPhase (d : Dev) (n : Nat) : Bool := d.get (F.HOST_CQ_STATE_CQ_WRITTEN n) / 4096 % 2 == 0

/-- One completion is written to the completion ring, in slot CQ_WRITTEN mod 4,096 (R157). -/
def Dev.cqWrite (d : Dev) (n : Nat) (w : Waiting) : Dev :=
  let slot := d.get (F.HOST_CQ_STATE_CQ_WRITTEN n)
  let d1 := d.emit (.completion n (slot % 4096) (d.cqPhase n)
    { w.c with cflags := w.c.cflags + (if d.cqPhase n then 128 else 0) })
  let d2 := d1.put (F.HOST_CQ_STATE_CQ_WRITTEN n) ((slot + 1) % 65536)
  if w.own then d2.retire n w.c.hseq else d2

/-- A completion leaves by its ring's transport, or waits, or is held only (R157, R158, R449). `sessOpen` says whether the
session that carried the command is still open. -/
def Dev.deliver (d : Dev) (n : Nat) (w : Waiting) (sessOpen : Bool) : Dev :=
  let r := d.ring n
  if d.ringPcie n then
    if r.dead then (if w.own then d.retire n w.c.hseq else d)
    else if r.waiting.isEmpty && d.cqRoom n then d.cqWrite n w
    else d.setRing n { r with waiting := r.waiting ++ [w] }
  else if sessOpen then d.setRing n { r with waiting := r.waiting ++ [w] }
  else if w.own then d.retire n w.c.hseq else d

/-- Whether the session of this number is open. -/
def Dev.sessionOpen (d : Dev) (u : Option Nat) : Bool :=
  match u with
  | none => false
  | some k => d.sessions.any (fun s => s.uid == k)

/-- A completion is issued: it takes the next DSEQ (R155), is held (R159), sets the ring's completion bit where the command
or the ring asks for it (R168), and leaves. One that must wait for completion-ring space is issued before it waits (DESIGN CHOICE, log
entry 114). -/
def Dev.issue (d : Dev) (n tag hseq code : Nat) (result : List Byte) (irq own : Bool) (sess : Option Nat) : Dev :=
  let ds := (d.lastDseq n + 1) % 65536
  let c : Compl := { dseq := ds, tag := tag, hseq := hseq, code := code, cflags := 0, time := d.sysNs,
                     result := (List.range 16).map (fun k => result.getD k 0) }
  let r := d.ring n
  let h := d.heldAt n ds ++ [c]
  let d0 := d.fillCells 0 4096 1
  let d1 := (d0.put (F.HOST_RING_STATE_LAST_DSEQ n) ds).setRing n { r with held := h }
  let d2 := d1.evt (ev 10 1) 1
  let d3 := if irq || d.is (F.HOST_RING_CFG_IRQ_EVERY n) then d2.raise 0x05 n else d2
  d3.deliver n ⟨c, own, sess⟩ (d.sessionOpen sess)

/-- The 32 bytes of a completion (R151). -/
def complBytes (c : Compl) : List Byte :=
  beBytes 2 c.dseq ++ beBytes 2 c.tag ++ beBytes 2 c.hseq ++ beBytes 1 c.code ++ beBytes 1 c.cflags ++ beBytes 8 c.time
    ++ (List.range 16).map (fun k => c.result.getD k 0)

/-- A response frame of the service port (R481). -/
def svcFrame (type fseq status : Nat) (payload : List Byte) : List Byte :=
  let b := [0x53, 0x52] ++ beBytes 1 type ++ beBytes 1 fseq ++ beBytes 1 status ++ [0] ++ beBytes 2 payload.length ++ payload
  b ++ beBytes 4 (crc32 b)

/-- The request being processed is answered: its response is held for READ (R480, R483). -/
def Dev.svcRespond (d : Dev) (status : Nat) (payload : List Byte) : Dev :=
  match d.fw.request with
  | none => d
  | some (type, fseq, _) =>
    let b := svcFrame type fseq status payload
    let d1 := ((d.put F.SVC_STAT_BUSY 0).put F.SVC_STAT_RESP_READY 1).put F.SVC_STAT_LAST_STATUS status
    { d1 with fw := { d1.fw with request := none, response := some b, stored := b } }

/-- A command of the service port completes (R484): a CMD answers with the completion of its entry, with DSEQ 0; a PROMOTE with
its code as STATUS, and RESULT when it is OK. -/
def Dev.svcFinish (d : Dev) (code : Nat) (result : List Byte) : Dev :=
  match d.fw.request with
  | some (0x10, _, p) =>
    d.svcRespond 0 (complBytes { dseq := 0, tag := beField p 2 2, hseq := beField p 0 2, code := code, cflags := 0, time := d.sysNs,
                                 result := (List.range 16).map (fun k => result.getD k 0) })
  | _ => d.svcRespond code (if code = 0 then result else [])

/-- The command of a ring with this sequence number, in flight and with no completion yet. -/
def Dev.cmdOf (d : Dev) (n hseq : Nat) : Option Cmd :=
  d.inflight.find? (fun c => c.ring == n && c.e.hseq == hseq && !c.issued)

/-- A command completes: exactly one completion (R154), with its code and RESULT. A service-port command is
answered (R484). -/
def Dev.finish (d : Dev) (src : Src) (code : Nat) (result : List Byte) : Dev :=
  match src with
  | .none => d
  | .svc => d.svcFinish code result
  | .ring n h =>
    match d.cmdOf n h with
    | none => d
    | some c =>
      let d1 := { d with inflight := d.inflight.map (fun (x : Cmd) =>
        if x.ring == n && x.e.hseq == h then { x with issued := true } else x) }
      d1.issue n c.e.tag h code result (bit c.e.flags 0) true c.sess

/-- RESULT of a DUPLICATE or SEQ completion: EXPECT_HSEQ, then HELD_OLDEST as it stands once the completion is held (R154, R159). -/
def Dev.seqResult (d : Dev) (n : Nat) : List Byte :=
  beBytes 2 ((d.lastHseq n + 1) % 65536) ++ beBytes 2 (d.nextOldest n)

/-- The distance of an entry's HSEQ from the next expected number (R153). -/
def Dev.seqDistance (d : Dev) (n hseq : Nat) : Nat := (hseq + 2 * 65536 - (d.lastHseq n + 1)) % 65536

/-- Opcodes that their owners define (R152). -/
def opcodes : List Nat :=
  [0x0000, 0x0001, 0x0002, 0x0003, 0x0200, 0x0210, 0x0300, 0x0320, 0x0321, 0x0322, 0x0323, 0x0330, 0x0331, 0x0400, 0x0401, 0x0402,
   0x0403, 0x0404, 0x0405, 0x0500, 0x0501, 0x0502, 0x0510, 0x0520, 0x0600, 0x0700, 0x0800, 0x0801, 0x0802, 0x0810, 0x0811, 0x0812,
   0x0813, 0x0814, 0x0815]

/-- The parameters of the command a row executes: a begun command of the opcode. In the PROMOTE pause the lanes stand still, and none is
executed (R494). -/
def Dev.cmdFor (d : Dev) (n hseq opcode : Nat) : Option Entry :=
  if d.paused then none
  else match d.inflight.find? (fun c => c.ring == n && c.e.hseq == hseq && c.begun && !c.ran && !c.issued) with
  | some c => if c.e.opcode = opcode then some c.e else none
  | none => none

/-- A row that executes a ring command, once: nothing happens unless a begun command of that opcode stands there that has not
been executed (a row whose condition does not hold changes nothing). -/
def Dev.runRow (d : Dev) (n hseq opcode : Nat) (f : Dev → Src → Entry → Dev) : Dev :=
  match d.cmdFor n hseq opcode with
  | some e =>
    f { d with inflight := d.inflight.map (fun (c : Cmd) => if c.ring == n && c.e.hseq == hseq then { c with ran := true } else c) }
      (.ring n hseq) e
  | none => d

end Sys2Proof.Machine
end

