-- ==== Sys2Proof/Machine/Memory.lean ====
section
/-! DEFINITION. Table memory: words, lines, regions, byte packing, the Reed–Solomon code of a line and what a read of a line
in error finds (R6, R10, R45, R49, R356 to R361). -/

namespace Sys2Proof.Machine

/-! ### Words and bytes -/

/-- The word at a table-memory address. Table memory is zero where nothing has been written (R107, R126). -/
def Dev.mem (d : Dev) (a : Nat) : Nat := (SMap.get (fun _ => (0 : Word)) d.tab.mem a).toNat

/-- A word written to table memory. A write of a line cancels its pending write-back (R45). -/
def Dev.setMem (d : Dev) (a v : Nat) : Dev :=
  { d with tab := { d.tab with mem := SMap.set (fun _ => (0 : Word)) d.tab.mem a (BitVec.ofNat 36 v)
                               writeBack := d.tab.writeBack.filter (fun x => x.1 != a / 4) } }

/-- Bits `[hi:lo]` of a word. -/
def Dev.memBits (d : Dev) (a hi lo : Nat) : Nat := bits (d.mem a) hi lo
def Dev.setMemBits (d : Dev) (a hi lo v : Nat) : Dev := d.setMem a (withBits (d.mem a) hi lo v)

/-- Words `vs` written from address `a` on. -/
def Dev.setMems : Dev → Nat → List Nat → Dev
  | d, _, [] => d
  | d, a, v :: vs => (d.setMem a v).setMems (a + 1) vs

/-- Byte n of a packed sequence that starts at word address `a`: two words hold nine bytes, the first byte in the most
significant bits of the first word; the ninth byte spans both (R10). -/
def Dev.packedByte (d : Dev) (a n : Nat) : Byte :=
  let w0 := d.mem (a + 2 * (n / 9))
  let w1 := d.mem (a + 2 * (n / 9) + 1)
  BitVec.ofNat 8 ((2 ^ 36 * w0 + w1) / 2 ^ (64 - 8 * (n % 9)) % 256)

/-- `n` packed bytes from word address `a` on (R10). -/
def Dev.packed (d : Dev) (a n : Nat) : List Byte := (List.range n).map (fun k => d.packedByte a k)

/-- Byte n of a packed sequence replaced (R10). -/
def Dev.setPackedByte (d : Dev) (a n : Nat) (b : Byte) : Dev :=
  let a0 := a + 2 * (n / 9)
  let v := withBits (2 ^ 36 * d.mem a0 + d.mem (a0 + 1)) (71 - 8 * (n % 9)) (64 - 8 * (n % 9)) b.toNat
  (d.setMem a0 (v / 2 ^ 36)).setMem (a0 + 1) (v % 2 ^ 36)

/-- Bytes n on of a packed sequence replaced. -/
def Dev.setPacked : Dev → Nat → Nat → List Byte → Dev
  | d, _, _, [] => d
  | d, a, n, b :: bs => (d.setPackedByte a n b).setPacked a (n + 1) bs

/-- Region 0 to 7 of a word address, in the order of R49. -/
def regionOf (a : Nat) : Nat :=
  if a < 0x01800000 then 0 else if a < 0x01A00000 then 1 else if a < 0x01C00000 then 2
  else if a < 0x03400000 then 3 else if a < 0x03800000 then 4 else if a < 0x03A00000 then 5
  else if a < 0x03E00000 then 6 else 7

/-- Whether the words `[a, a + n)` lie in the host-defined region (R49). -/
def inHostRegion (a n : Nat) : Bool := decide (0x03E00000 ≤ a) && decide (a + n ≤ 0x04000000)

/-- Words that n packed bytes take (R10). -/
def packedWords (n : Nat) : Nat := (n * 8 + 35) / 36

/-! ### The check code of a line (R356) -/

/-- Product in GF(2^9) modulo x^9 + x^4 + 1. -/
def gfMul (a b : Nat) : Nat :=
  ((List.range 9).foldl
    (fun (x : Nat × Nat) i =>
      (if bit b i then x.1 ^^^ x.2 else x.1,
       let t := x.2 * 2
       if 512 ≤ t then (t ^^^ 0x211) % 1024 else t))
    (0, a)).1

/-- The power of the root α. -/
def gfPow : Nat → Nat
  | 0 => 1
  | n + 1 => gfMul (gfPow n) 2

/-- The inverse of a non-zero element: its 510th power. -/
def gfInv (a : Nat) : Nat :=
  let sq := fun x => gfMul x x
  let a2 := sq a; let a4 := sq a2; let a8 := sq a4; let a16 := sq a8
  let a32 := sq a16; let a64 := sq a32; let a128 := sq a64; let a256 := sq a128
  gfMul a256 (gfMul a128 (gfMul a64 (gfMul a32 (gfMul a16 (gfMul a8 (gfMul a4 a2))))))

/-- Data symbol d_j of a line given as its four words (R356). -/
def dataSymbol (ws : List Nat) (j : Nat) : Nat :=
  bits (ws.getD (j / 4) 0) (35 - 9 * (j % 4)) (27 - 9 * (j % 4))

/-- A polynomial over the field, highest power first, times (x + r). -/
def polyTimesRoot (p : List Nat) (r : Nat) : List Nat :=
  List.zipWith (fun a b => a ^^^ b) (p ++ [0]) (0 :: p.map (fun c => gfMul r c))

/-- The generator (x + α)(x + α^2)(x + α^3)(x + α^4): its coefficients of x^3 down to x^0. -/
def rsGenerator : List Nat :=
  (polyTimesRoot (polyTimesRoot (polyTimesRoot (polyTimesRoot [1] (gfPow 1)) (gfPow 2)) (gfPow 3)) (gfPow 4)).drop 1

/-- One step of the division by g: the remainder, most significant symbol first, after a further data symbol. -/
def rsStep (r : List Nat) (s : Nat) : List Nat :=
  let f := s ^^^ r.getD 0 0
  (List.range 4).map (fun i => r.getD (i + 1) 0 ^^^ gfMul f (rsGenerator.getD i 0))

/-- The check symbols p_0 to p_3 of a line (R356). -/
def checkSymbols (ws : List Nat) : List Nat :=
  (List.range 16).foldl (fun r j => rsStep r (dataSymbol ws j)) [0, 0, 0, 0]

/-- Syndrome i of an error pattern: Σ val × α^(i (19 − pos)). The codeword itself contributes nothing. -/
def syndrome (e : List (Nat × Nat)) (i : Nat) : Nat :=
  e.foldl (fun x s => x ^^^ gfMul s.2 (gfPow (i * (19 - s.1)))) 0

/-- What decoding a line finds (R357): no error seen, a correction of one or two symbols, or an uncorrectable error. -/
inductive Decoded where
  | clean
  | corrected (syms : List (Nat × Nat))
  | uncorrectable
  deriving DecidableEq, Repr

/-- The decoder: corrects within distance 2 of a codeword, and nothing else (R357). -/
def rsDecode (e : List (Nat × Nat)) : Decoded :=
  let s1 := syndrome e 1; let s2 := syndrome e 2; let s3 := syndrome e 3; let s4 := syndrome e 4
  if s1 = 0 ∧ s2 = 0 ∧ s3 = 0 ∧ s4 = 0 then .clean
  else
    let one := (List.range 20).findSome? (fun p =>
      let x := gfPow (19 - p)
      let v := gfMul s1 (gfInv x)
      if v ≠ 0 ∧ syndrome [(p, v)] 2 = s2 ∧ syndrome [(p, v)] 3 = s3 ∧ syndrome [(p, v)] 4 = s4
      then some [(p, v)] else none)
    match one with
    | some c => .corrected c
    | none =>
      let two := (List.range 20).findSome? (fun p => (List.range p).findSome? (fun q =>
        let x := gfPow (19 - p); let y := gfPow (19 - q)
        let v := gfMul (s2 ^^^ gfMul s1 y) (gfInv (gfMul x (x ^^^ y)))
        let u := gfMul (s1 ^^^ gfMul v x) (gfInv y)
        let c := [(p, v), (q, u)]
        if v ≠ 0 ∧ u ≠ 0 ∧ syndrome c 3 = s3 ∧ syndrome c 4 = s4 then some c else none))
      match two with
      | some c => .corrected c
      | none => .uncorrectable

/-- A line's words with symbol differences applied to its data symbols. -/
def Dev.xorSymbols (d : Dev) (line : Nat) (e : List (Nat × Nat)) : Dev :=
  e.foldl (fun x s =>
    if s.1 < 16 then
      let a := 4 * line + s.1 / 4
      let m := (SMap.get (fun _ => (0 : Word)) x.tab.mem a).toNat ^^^ (s.2 * 2 ^ (27 - 9 * (s.1 % 4)))
      { x with tab := { x.tab with mem := SMap.set (fun _ => (0 : Word)) x.tab.mem a (BitVec.ofNat 36 m) } }
    else x) d

/-- A line written with zero data and valid check symbols: no longer UE. -/
def Dev.zeroLine (d : Dev) (line : Nat) : Dev :=
  let d1 := d.setMems (4 * line) [0, 0, 0, 0]
  { d1 with tab := { d1.tab with ueLines := d1.tab.ueLines.filter (fun l => l != line) } }

/-- A corrected error (R359): counted by channel, logged with its reader (0 foreground, 1 scrub, 2 host), raised, and the
corrected line queued for write-back. -/
def Dev.lineCe (d : Dev) (line nsyms reader : Nat) : Dev :=
  let d1 := d.bump (F.TMEM_CE_CNT_COUNT (line % 4)) 1
  let d2 := ((d1.put F.TMEM_CE_LOG_READER reader).put F.TMEM_CE_LOG_SYMBOLS nsyms).put F.TMEM_CE_LOG_LINE line
  let d3 := (d2.evt (ev 7 (line % 4)) 1).raise 0x21 0
  if d3.tab.writeBack.any (fun x => x.1 == line) then d3
  else { d3 with tab := { d3.tab with writeBack := d3.tab.writeBack ++ [(line, d3.tempo)] } }

/-- The record of an uncorrectable error (R360); the region's action follows. -/
def Dev.lineUe (d : Dev) (line reader : Nat) : Dev :=
  let d1 := ((d.put F.TMEM_UE_LOG_READER reader).put F.TMEM_UE_LOG_REGION (regionOf (4 * line))).put F.TMEM_UE_LOG_LINE line
  let d2 := ((d1.bump F.TMEM_UE_CNT_COUNT 1).evt (ev 7 4) 1).raise 0x21 1
  if d2.tab.ueLines.contains line then d2
  else { d2 with tab := { d2.tab with ueLines := d2.tab.ueLines ++ [line] } }

/-- Whether a line reads as uncorrectable. -/
def Dev.lineBad (d : Dev) (line : Nat) : Bool := d.tab.ueLines.contains line

/-- At the end of a tempo the write-backs of lines corrected before it are done: those not done in the tempo of the correction were
done in the next one (R45). Table-memory writes are held during the PROMOTE pause (R494). -/
def Dev.writeBackDue (d : Dev) : Dev :=
  if d.paused then d
  else { d with tab := { d.tab with writeBack := d.tab.writeBack.filter (fun x => decide (d.tempo ≤ x.2)) } }

/-! ### Meanings -/

/-- SCRUB_WRITE_BACK: the oldest corrected line that is pending is written back, ahead of foreground work (R45). -/
def execScrubWriteBack (s : State) : Host.Outcome State Fault Refusal :=
  runs s (fun d => if d.paused then d else { d with tab := { d.tab with writeBack := d.tab.writeBack.drop 1 } })

end Sys2Proof.Machine
end

