-- ==== Sys2Proof/Machine/Chains.lean ====
section
/-! DEFINITION. The records of pawn chains and node images, and how a chain ends (R497, R498, R504, R508). -/

namespace Sys2Proof.Machine

/-- A chain that holds one of the 64 active records (R504). -/
def Chain.active (c : Chain) : Bool := decide (1 ≤ c.state) && decide (c.state ≤ 3)
/-- HAVE(0), and HAVE of the last position. -/
def Chain.first (c : Chain) : Nat := c.have_.headD 0
def Chain.last (c : Chain) : Nat := c.have_.getLastD 0

def Dev.imgState (d : Dev) (i : Nat) : Nat := d.get (F.PAWN_IMG_STAT_STATE i)
def Dev.imgBytes (d : Dev) (i : Nat) : Nat := d.get (F.PAWN_IMG_BYTES_BYTES i)
/-- NBLOCKS (R498). -/
def Dev.imgBlocks (d : Dev) (i : Nat) : Nat := (d.imgBytes i + 63) / 64
/-- First word of an image (R497). -/
def imgAddr (i : Nat) : Nat := 0x03400000 + i * 0x00100000

def Dev.setChains (d : Dev) (l : List Chain) : Dev :=
  { d with pn := { d.pn with chains := l } }.put F.PAWN_ACTIVE_CHAINS (l.filter Chain.active).length
def Dev.setChain (d : Dev) (c : Chain) : Dev :=
  d.setChains (d.pn.chains.map (fun (x : Chain) => if x.image == c.image && x.number == c.number then c else x))
def Dev.chain (d : Dev) (i n : Nat) : Option Chain := d.pn.chains.find? (fun c => c.image == i && c.number == n)

/-- PAWN.LAST takes an event (R508). -/
def Dev.pawnEvent (d : Dev) (kind image chain cause : Nat) : Dev :=
  (((d.put F.PAWN_LAST_EVENT kind).put F.PAWN_LAST_IMAGE image).put F.PAWN_LAST_CHAIN chain).put F.PAWN_LAST_CAUSE cause

/-- A RUNNING image becomes DONE when every chain of its campaign is DONE or FAILED (R498). -/
def Dev.imageCheck (d : Dev) (i : Nat) : Dev :=
  if d.imgState i = 3 ∧ (d.pn.chains.filter (fun c => c.image == i)).all (fun c => decide (4 ≤ c.state)) = true then
    ((d.put (F.PAWN_IMG_STAT_STATE i) 4).pawnEvent 2 i 0 0).raise 0x0E 1
  else d

/-- A chain is DONE: CHAIN_DONE is set and its record is freed. -/
def Dev.chainDone (d : Dev) (c : Chain) : Dev :=
  let d1 := (d.setChain { c with state := 4 }).bump (F.PAWN_IMG_CHAINS_DONE c.image) 1
  ((d1.pawnEvent 1 c.image c.number 0).raise 0x0E 0).imageCheck c.image

/-- A chain enters FAILED with a cause: CHAIN_FAIL is set and its record is freed. -/
def Dev.chainFail (d : Dev) (c : Chain) (cause : Nat) : Dev :=
  let d1 := (d.setChain { c with state := 5, cause := cause }).bump (F.PAWN_IMG_RESULT_FAILED c.image) 1
  ((d1.pawnEvent 3 c.image c.number cause).raise 0x0E 2).imageCheck c.image

/-- Every chain that has not ended, and meets a condition, fails. -/
def Dev.failChains (d : Dev) (p : Chain → Bool) (cause : Nat) : Dev :=
  (d.pn.chains.filter (fun c => decide (c.state ≤ 3) && p c)).foldl (fun x c => x.chainFail c cause) d

/-- A UE in an image's line (R498): the image is DAMAGED and its chains stop with cause DAMAGED. -/
def Dev.imageDamaged (d : Dev) (i : Nat) : Dev :=
  let d1 := (d.put (F.PAWN_IMG_STAT_STATE i) 5).failChains (fun c => c.image == i) 5
  (d1.pawnEvent 4 i 0 5).raise 0x0E 3

end Sys2Proof.Machine
end

