-- ==== Sys2Proof/Machine/Directory.lean ====
section
/-! DEFINITION. The endpoint directory: entry lines and timing words, block map, prefix table, extended-address index,
creation and removal (R291 to R293, R371 to R389), with the forwarding tables (R390 to R395). -/

namespace Sys2Proof.Machine

/-! ### PAN descriptors (R291) -/

/-- Word k of the descriptor of PAN p in force. -/
def Dev.panWord (d : Dev) (p k : Nat) : Nat := d.rd (R.MAC_PAN_DATA 0 k + 2 ^ 20 * (p + 1))
def Dev.setPanWord (d : Dev) (p k v : Nat) : Dev := d.wr (R.MAC_PAN_DATA 0 k + 2 ^ 20 * (p + 1)) v

def Dev.panEn (d : Dev) (p : Nat) : Bool := bit (d.panWord p 0) 31
def Dev.panAdmit (d : Dev) (p : Nat) : Nat := bits (d.panWord p 0) 30 29
def Dev.panBeaconLevel (d : Dev) (p : Nat) : Nat := bits (d.panWord p 0) 28 26
def Dev.panGroup (d : Dev) (p : Nat) : Nat := bits (d.panWord p 0) 25 24
def Dev.panPorts (d : Dev) (p : Nat) : Nat := bits (d.panWord p 0) 23 16
def Dev.panId (d : Dev) (p : Nat) : Nat := bits (d.panWord p 0) 15 0
def Dev.panBeaconFreq (d : Dev) (p : Nat) : Nat := d.panWord p 1
def Dev.panPhy (d : Dev) (p : Nat) : Nat := bits (d.panWord p 2) 31 24
def Dev.panDlOpts (d : Dev) (p : Nat) : Nat := bits (d.panWord p 2) 23 16
def Dev.panBeaconInt (d : Dev) (p : Nat) : Nat := bits (d.panWord p 2) 15 0
def Dev.panWakePeriod (d : Dev) (p : Nat) : Nat := bits (d.panWord p 3) 31 16
def Dev.panWindowUs (d : Dev) (p : Nat) : Nat := bits (d.panWord p 3) 15 0
def Dev.panCheckin (d : Dev) (p : Nat) : Nat := bits (d.panWord p 4) 31 16
def Dev.panJitter (d : Dev) (p : Nat) : Nat := bits (d.panWord p 4) 15 0
def Dev.panPreamble (d : Dev) (p : Nat) : Nat := bits (d.panWord p 5) 31 16
def Dev.panTxPower (d : Dev) (p : Nat) : Int := toSigned 16 (bits (d.panWord p 5) 15 0)
def Dev.panBeaconKey (d : Dev) (p : Nat) : Nat := bits (d.panWord p 6) 27 16
def Dev.panBeaconPhase (d : Dev) (p : Nat) : Nat := bits (d.panWord p 6) 15 0
def Dev.panBlocks (d : Dev) (p : Nat) : Nat := 2 ^ 32 * d.panWord p 7 + d.panWord p 8

/-- Whether PAN p owns the block of a short address (R292). -/
def Dev.ownsAddr (d : Dev) (p a : Nat) : Bool := bit (d.panBlocks p) (a / 1024)

/-- The enabled PAN of a group with a PAN ID (R382). -/
def Dev.panOf (d : Dev) (g panId : Nat) : Option Nat :=
  (List.range 128).find? (fun p => d.panEn p && d.panGroup p == g && d.panId p == panId)

/-- The enabled PAN of this Quatos, of whatever group, with a PAN ID (R391). -/
def Dev.panNamed (d : Dev) (panId : Nat) : Option Nat := (List.range 128).find? (fun p => d.panEn p && d.panId p == panId)

/-- Addresses never assigned (R292). -/
def reservedAddr (a : Nat) : Bool := a == 0 || a == 0xFFFE || a == 0xFFFF

/-! ### Time (R306, R375) -/

/-- Monotonic time m in core cycles of 2.5 ns (R306). -/
def Dev.monoCycles (d : Dev) : Nat := d.tempo * 100000 + d.cycle

/-- Monotonic time in µs, rounded to the nearest. -/
def Dev.monoUs (d : Dev) : Nat := (d.monoCycles + 200) / 400

/-- ⌊m / 64 s⌋ mod 4,095 (R374). -/
def Dev.lastNow (d : Dev) : Nat := d.tempo / 256000 % 4095

/-! ### Entry lines (R373) and timing words (R374) -/

def Dev.lineBits (d : Dev) (e w hi lo : Nat) : Nat := d.memBits (4 * e + w) hi lo
def Dev.setLineBits (d : Dev) (e w hi lo v : Nat) : Dev := d.setMemBits (4 * e + w) hi lo v

def Dev.eValid (d : Dev) (e : Nat) : Bool := d.lineBits e 0 35 35 == 1
def Dev.eAdrift (d : Dev) (e : Nat) : Bool := d.lineBits e 0 34 34 == 1
def Dev.eKey (d : Dev) (e : Nat) : Option Nat := if d.lineBits e 2 3 3 = 1 then some (d.lineBits e 0 33 22) else none
def Dev.eLastSeq (d : Dev) (e : Nat) : Nat := d.lineBits e 0 21 14
def Dev.eChan (d : Dev) (e : Nat) : Nat := d.lineBits e 0 5 0
def Dev.eHwm (d : Dev) (e : Nat) : Option Nat :=
  let h := d.lineBits e 1 35 4
  if h = 0xFFFFFFFF then none else some h
def Dev.eEntry (d : Dev) (e : Nat) : Nat := d.lineBits e 1 3 0
def Dev.eSector (d : Dev) (e : Nat) : Nat := d.lineBits e 2 2 0

/-- XSLOT of line e: slot e of the extended-address index (R380). -/
def Dev.xslot (d : Dev) (e : Nat) : Nat := d.lineBits e 3 35 13
def Dev.setXslot (d : Dev) (e v : Nat) : Dev :=
  let was := b2n (d.xslot e == 1)
  let d1 := d.setLineBits e 3 35 13 v
  d1.put F.DIR_XDEL_DELETED (d1.get F.DIR_XDEL_DELETED + b2n (v == 1) - was)

/-- EXT[63:32] of a prefix table entry (R379). -/
def Dev.prefixValue (d : Dev) (i : Nat) : Nat :=
  match d.tab.prefixes.find? (fun p => p.index == i) with
  | some p => p.value
  | none => 0

/-- The extended address of an entry (R379). -/
def Dev.eExt (d : Dev) (e : Nat) : Nat := 2 ^ 32 * d.prefixValue (d.lineBits e 0 13 6) + d.lineBits e 2 35 4

def timingAddr (e : Nat) : Nat := 0x01C00000 + 2 * e

/-- After a long SLEEP, an entry not yet cleared is cleared when it is read (R378). -/
def Dev.clearTiming (d : Dev) (e : Nat) : Dev :=
  let d1 := (d.setMemBits (timingAddr e + 1) 7 7 0).setMemBits (timingAddr e + 1) 35 20 0
  (d1.setMemBits (timingAddr e + 1) 19 8 0xFFF).setLineBits e 3 12 0 0x1000

def Dev.touchTiming (d : Dev) (e : Nat) : Dev :=
  if d.is F.DIR_TCLEAR_ACTIVE ∧ d.get F.DIR_TCLEAR_NEXT ≤ e then d.clearTiming e else d

/-- Age of LAST in units of 64 s; none when stale or at the stale limit (R375, R377). -/
def Dev.eLastAge (d : Dev) (e : Nat) : Option Nat :=
  let l := d.memBits (timingAddr e + 1) 19 8
  let age := (d.lastNow + 4095 - l) % 4095
  if l = 0xFFF ∨ 3584 ≤ age then none else some age

/-- Signed difference x - a of two times in µs modulo 2^36. -/
def sub36 (x a : Nat) : Int :=
  let n : Nat := (x % 2 ^ 36 + 2 ^ 36 - a) % 2 ^ 36
  if n < 2 ^ 35 then (n : Int) else (n : Int) - 2 ^ 36

/-- ANCHOR in µs modulo 2^36, when it is present and within its age (R375). The window start that a CSL phase announces lies ahead of the frame,
by 137 s at most: an ANCHOR less than 2^28 µs ahead of now is of age 0 and not of an age near 2^36 (DEDUCED, log entry 134). -/
def Dev.eAnchor (d : Dev) (e : Nat) : Option Nat :=
  let a := d.mem (timingAddr e)
  if d.memBits (timingAddr e + 1) 7 7 = 1 ∧ -(2 ^ 28) < sub36 d.monoUs a then some a else none

/-- DRIFT in 0.01 ppm, when valid and its ANCHOR is. -/
def Dev.eDrift (d : Dev) (e : Nat) : Option Int :=
  let w := d.lineBits e 3 12 0
  if w = 0x1000 ∨ (d.eAnchor e).isNone then none else some (toSigned 13 w)

def Dev.eSpan (d : Dev) (e : Nat) : Nat := d.memBits (timingAddr e + 1) 35 20
def Dev.eHeard (d : Dev) (e : Nat) : Bool := d.memBits (timingAddr e + 1) 6 6 == 1

/-! ### Finding an entry (R371, R380, R382) -/

/-- The page of a block, if one is assigned. -/
def Dev.blockPage (d : Dev) (p b : Nat) : Option BlockPage :=
  d.tab.blockMap.find? (fun x => x.pan == p && x.block == b)

/-- The entry of a handle, whether or not it is valid (R371). -/
def Dev.entryOf (d : Dev) (h : Nat) : Option Nat :=
  (d.blockPage (h / 65536) (h % 65536 / 1024)).map (fun x => x.page * 1024 + h % 1024)

/-- The valid entry of a handle. -/
def Dev.validEntry (d : Dev) (h : Nat) : Option Nat :=
  match d.entryOf h with
  | some e => if d.eValid e then some e else none
  | none => none

/-- The handle of entry e, from the block map. -/
def Dev.handleOf (d : Dev) (e : Nat) : Option Nat :=
  (d.tab.blockMap.find? (fun x => x.page == e / 1024)).map (fun x => x.pan * 65536 + x.block * 1024 + e % 1024)

/-- Home slot of a node in the extended-address index (R380). -/
def homeSlot (p ext : Nat) : Nat := ((ext / 2 ^ 32) ^^^ (ext % 2 ^ 32) ^^^ (p * 0x01010101)) % 6291456

/-- lookup(p, x) of R380: the entry found, and the probes made. -/
def Dev.lookupFrom (d : Dev) (p ext k : Nat) : Nat → Option Nat × Nat
  | 0 => (none, k)
  | n + 1 =>
    let s := d.xslot ((homeSlot p ext + k) % 6291456)
    if s = 0 then (none, k + 1)
    else if 2 ≤ s ∧ d.eValid (s - 2) = true ∧ (d.handleOf (s - 2)).map (fun h => h / 65536) = some p ∧ d.eExt (s - 2) = ext
    then (some (s - 2), k + 1)
    else d.lookupFrom p ext (k + 1) n

def Dev.lookupExt (d : Dev) (p ext : Nat) : Option Nat × Nat := d.lookupFrom p ext 0 64

/-- A lookup with its probe length recorded in DIR.XPROBE.PEAK. -/
def Dev.notePeak (d : Dev) (probes : Nat) : Dev := d.peak F.DIR_XPROBE_PEAK probes

/-! ### Creation (R372, R379, R380, R387) -/

/-- A refusal for lack of room (R387): causes 1 PAGE, 2 PREFIX, 3 XSLOT, 4 BLOCK. -/
def Dev.dirFull (d : Dev) (cause handle : Nat) : Dev :=
  ((d.put F.DIR_FULL_CAUSE cause).put F.DIR_FULL_HANDLE handle).raise 0x20 0

/-- The lowest page assigned to no block. -/
def Dev.freePage (d : Dev) : Option Nat :=
  (List.range 6144).find? (fun q => !d.tab.blockMap.any (fun x => x.page == q))

/-- The prefix table entry that holds a value, or the lowest free one. -/
def Dev.prefixFor (d : Dev) (v : Nat) : Option Nat :=
  match d.tab.prefixes.find? (fun x => x.value == v) with
  | some x => some x.index
  | none => (List.range 256).find? (fun i => !d.tab.prefixes.any (fun x => x.index == i))

/-- The first of the 64 probes whose slot is empty or deleted. -/
def Dev.freeSlot (d : Dev) (p ext : Nat) : Option Nat :=
  ((List.range 64).map (fun k => (homeSlot p ext + k) % 6291456)).find? (fun i => decide (d.xslot i < 2))

/-- Probes that the insertion of a node makes: up to the slot it takes, or all 64 (R380). -/
def Dev.insertProbes (d : Dev) (p ext : Nat) : Nat :=
  (((List.range 64).map (fun k => (homeSlot p ext + k) % 6291456)).takeWhile (fun i => decide (2 ≤ d.xslot i))).length + b2n (d.freeSlot p ext).isSome

def Dev.usePrefix (d : Dev) (i v : Nat) : Dev :=
  if d.tab.prefixes.any (fun x => x.index == i) then
    { d with tab := { d.tab with prefixes := d.tab.prefixes.map (fun (x : Prefix) =>
        if x.index == i then { x with count := x.count + 1 } else x) } }
  else
    { d with tab := { d.tab with prefixes := d.tab.prefixes ++ [Prefix.mk i v 1] } }.bump F.DIR_USE_PREFIXES 1

def Dev.dropPrefix (d : Dev) (i : Nat) : Dev :=
  let ps := (d.tab.prefixes.map (fun (x : Prefix) => if x.index == i then { x with count := x.count - 1 } else x)).filter
    (fun x => x.count != 0)
  { d with tab := { d.tab with prefixes := ps } }.put F.DIR_USE_PREFIXES ps.length

def Dev.usePage (d : Dev) (p b q : Nat) : Dev :=
  if (d.blockPage p b).isSome then
    { d with tab := { d.tab with blockMap := d.tab.blockMap.map (fun (x : BlockPage) =>
        if x.pan == p && x.block == b then { x with used := x.used + 1 } else x) } }
  else
    { d with tab := { d.tab with blockMap := d.tab.blockMap ++ [BlockPage.mk p b q 1] } }.bump F.DIR_USE_PAGES 1

def Dev.dropPage (d : Dev) (q : Nat) : Dev :=
  let m := (d.tab.blockMap.map (fun (x : BlockPage) => if x.page == q then { x with used := x.used - 1 } else x)).filter
    (fun x => x.used != 0)
  { d with tab := { d.tab with blockMap := m } }.put F.DIR_USE_PAGES m.length

/-- References of a key slot from directory entries change by one (R334). -/
def Dev.keyRef (d : Dev) (slot : Nat) (up : Bool) : Dev :=
  { d with ks := { d.ks with slots := d.ks.slots.map (fun (k : KeySlot) =>
      if k.slot == slot then { k with refs := if up then k.refs + 1 else k.refs - 1 } else k) } }

/-- The content of an entry to be created. -/
structure NewEntry where
  handle : Nat
  ext : Nat
  key : Option Nat
  /-- KEY as stored, with KEY_V or without. -/
  keyBits : Nat
  hwm : Option Nat
  lastSeq : Nat
  /-- Sector, listen entry and channel of the request, for an association. -/
  heard : Option (Nat × Nat × Nat)

/-- Creates an entry (R387); the Nat is 0, or the cause of a refusal. -/
def Dev.createEntry (d : Dev) (n : NewEntry) : Dev × Nat :=
  let p := n.handle / 65536
  let b := n.handle % 65536 / 1024
  let page := match d.blockPage p b with
    | some x => some x.page
    | none => d.freePage
  match page, d.prefixFor (n.ext / 2 ^ 32), d.freeSlot p n.ext with
  | none, _, _ => (d.dirFull 1 n.handle, 1)
  | some _, none, _ => (d.dirFull 2 n.handle, 2)
  | some _, some _, none => ((d.notePeak (d.insertProbes p n.ext)).dirFull 3 n.handle, 3)
  | some q, some i, some sl =>
    let e := q * 1024 + n.handle % 1024
    let (sec, ent, ch) := n.heard.getD (0, 0, 0)
    let d1 := ((d.notePeak (d.insertProbes p n.ext)).usePage p b q).usePrefix i (n.ext / 2 ^ 32)
    let d2 := d1.setXslot sl (e + 2)
    let w0 := 2 ^ 35 + n.keyBits % 4096 * 2 ^ 22 + n.lastSeq % 256 * 2 ^ 14 + i * 2 ^ 6 + ch
    let w1 := (n.hwm.getD 0xFFFFFFFF) * 16 + ent
    let w2 := n.ext % 2 ^ 32 * 16 + b2n n.key.isSome * 8 + sec
    let d3 := ((d2.setMem (4 * e) w0).setMem (4 * e + 1) w1).setMem (4 * e + 2) w2
    let d4 := d3.setLineBits e 3 12 0 0x1000
    let d5 := d4.setMem (timingAddr e + 1) (d4.lastNow * 256 + b2n n.heard.isSome * 64)
    let d6 := match n.key with
      | some k => d5.keyRef k true
      | none => d5
    ((d6.bump F.DIR_COUNT_ENTRIES 1).evt (ev 6 1) 1, 0)

/-! ### Allocation (R293) -/

def Dev.cursor (d : Dev) (p : Nat) : Nat := d.tab.cursors.getD p 0

/-- The next free address of a PAN, counting up from its cursor through the owned blocks and wrapping. The allocation
bitmap has a bit set exactly where the directory holds a valid entry. -/
def Dev.nextAddr (d : Dev) (p : Nat) : Option Nat :=
  ((List.range 65536).map (fun k => (d.cursor p + 1 + k) % 65536)).find?
    (fun a => d.ownsAddr p a && !reservedAddr a && (d.validEntry (p * 65536 + a)).isNone)

def Dev.setCursor (d : Dev) (p a : Nat) : Dev := { d with tab := { d.tab with cursors := setAt d.tab.cursors p a } }

/-! ### Forwarding tables (R390 to R395) -/

def fwdAddr (g k : Nat) : Nat := 0x01800000 + g * 0x00080000 + 2 * k

/-- Home bucket of a node (R390). -/
def homeBucket (h : Nat) : Nat := h * 0x9E3779B1 % 2 ^ 32 / 2 ^ 15

/-- The four entries in which a node's entry may lie, in the order searched. -/
def bucketEntries (h : Nat) : List Nat :=
  let j := homeBucket h
  let j2 := (j + 1) % 131072
  [2 * j, 2 * j + 1, 2 * j2, 2 * j2 + 1]

def Dev.fwdValid (d : Dev) (g k : Nat) : Bool := d.memBits (fwdAddr g k) 35 35 == 1
def Dev.fwdHit (d : Dev) (g k : Nat) : Bool := d.memBits (fwdAddr g k) 34 34 == 1
def Dev.fwdOrigin (d : Dev) (g k : Nat) : Nat := d.memBits (fwdAddr g k) 32 10
def Dev.fwdRelay (d : Dev) (g k : Nat) : Nat := d.memBits (fwdAddr g k + 1) 34 12

/-- The entry of an origin in a group's table. -/
def Dev.fwdFind (d : Dev) (g h : Nat) : Option Nat :=
  (bucketEntries h).find? (fun k => d.fwdValid g k && d.fwdOrigin g k == h)

def Dev.fwdRemove (d : Dev) (g k : Nat) : Dev :=
  if d.fwdValid g k then
    let d1 := (d.setMem (fwdAddr g k) 0).setMem (fwdAddr g k + 1) 0
    d1.put (F.FWD_COUNT_ENTRIES g) (d1.get (F.FWD_COUNT_ENTRIES g) - 1)
  else d

/-- The valid entries of a group's table, by number: those whose words are listed in memory. -/
def Dev.fwdEntries (d : Dev) (g : Nat) : List Nat :=
  (d.tab.mem.filter (fun x => decide (fwdAddr g 0 ≤ x.1) && decide (x.1 < fwdAddr (g + 1) 0) && x.1 % 2 == 0
    && bit x.2.toNat 35)).map (fun x => (x.1 - fwdAddr g 0) / 2)

/-- Where a frame for a node goes: sector, listen entry, channel and next hop. -/
structure Path where
  relay : Nat
  sector : Nat
  entry : Nat
  chan : Nat
  deriving DecidableEq, Repr

def Dev.fwdPath (d : Dev) (g k : Nat) : Path :=
  { relay := d.fwdRelay g k, sector := d.memBits (fwdAddr g k + 1) 11 9,
    entry := d.memBits (fwdAddr g k) 9 6, chan := d.memBits (fwdAddr g k) 5 0 }

/-- The next-hop lookup of R310: the table's path, if its relay is a valid directory entry; otherwise none, and a stale
entry is removed (R393). A disabled table misses (R395). -/
def Dev.fwdLookup (d : Dev) (g h : Nat) : Dev × Option Path :=
  if d.enabled (0x24 + g) then
    match d.fwdFind g h with
    | none => (d, none)
    | some k => if (d.validEntry (d.fwdRelay g k)).isSome then (d, some (d.fwdPath g k)) else (d.fwdRemove g k, none)
  else (d, none)

def Dev.recentOf (d : Dev) (g : Nat) : List (Nat × Nat) := d.tab.recent.getD g []

/-- Distance of two SYS.TEMPO values over half the range (R37). -/
def tempoDist (a b : Nat) : Nat := min ((a + 2 ^ 36 - b) % 2 ^ 36) ((b + 2 ^ 36 - a) % 2 ^ 36)

/-- An origin is listed with the latched tempo t; items more than 2 tempos older than t have left, and a full list drops its
oldest (R392). DEDUCED: age is counted in latched tempos, as the race rule compares them. -/
def Dev.listOrigin (d : Dev) (g o t : Nat) : Dev :=
  let l := (d.recentOf g).filter (fun x => x.1 != o && !(decide (2 < (t + 2 ^ 36 - x.2) % 2 ^ 36) && decide ((t + 2 ^ 36 - x.2) % 2 ^ 36 < 2 ^ 35)))
  let l2 := l ++ [(o, t)]
  { d with tab := { d.tab with recent := setAt d.tab.recent g (l2.drop (l2.length - 256)) } }

def Dev.fwdWrite (d : Dev) (g k o : Nat) (move : Bool) (p : Path) (strength : Nat) : Dev :=
  (d.setMem (fwdAddr g k) (2 ^ 35 + 2 ^ 34 + b2n move * 2 ^ 33 + o * 2 ^ 10 + p.entry % 16 * 64 + p.chan % 64)).setMem
    (fwdAddr g k + 1) (p.relay * 2 ^ 12 + p.sector % 8 * 512 + strength % 512)

/-- Learning (R392): origin o, path, strength + 300 in 0.5 dB units, latched SYS.TEMPO t. -/
def Dev.learn (d : Dev) (g o : Nat) (p : Path) (strength t : Nat) : Dev :=
  if d.enabled (0x24 + g) && d.is (F.FWD_CFG_LEARN_EN g) then
    match d.fwdFind g o with
    | none =>
      let slot := match (bucketEntries o).find? (fun k => !d.fwdValid g k) with
        | some k => some k
        | none => (bucketEntries o).find? (fun k => !d.fwdHit g k)
      match slot with
      | none => (d.bump (F.FWD_STAT_C_FULL g) 1).raise (0x24 + g) 1
      | some k =>
        let d1 := (d.fwdRemove g k).fwdWrite g k o false p strength
        let d2 := (d1.bump (F.FWD_COUNT_ENTRIES g) 1).bump (F.FWD_STAT_A_LEARNED g) 1
        (d2.evt (ev 6 (3 + g)) 1).listOrigin g o t
    | some k =>
      let old := d.fwdPath g k
      if old = p then (d.setMemBits (fwdAddr g k + 1) 8 0 strength).setMemBits (fwdAddr g k) 34 34 1
      else if (d.recentOf g).any (fun x => x.1 == o && decide (tempoDist t x.2 ≤ 2)) then
        let stronger := decide (d.memBits (fwdAddr g k + 1) 8 0 < strength)
        let d1 := if stronger then (d.fwdWrite g k o true p strength).listOrigin g o t
          else (d.setMemBits (fwdAddr g k) 33 33 1).setMemBits (fwdAddr g k) 34 34 1
        let d2 := (d1.bump (F.FWD_STAT_B_MOVES g) 1).evt (ev 6 (7 + g)) 1
        let kept := if stronger then p.sector else old.sector
        let other := if stronger then old.sector else p.sector
        let d3 := ((d2.put (F.FWD_MOVE_LAST_KEPT g) kept).put (F.FWD_MOVE_LAST_OTHER g) other).put (F.FWD_MOVE_LAST_HANDLE g) o
        d3.raise (0x24 + g) 0
      else
        ((d.fwdWrite g k o false p strength).bump (F.FWD_STAT_B_RELEARNED g) 1).listOrigin g o t
  else d

/-- One visit of the sweeper (R394). -/
def Dev.sweepVisit (d : Dev) (g k : Nat) : Dev :=
  if d.fwdValid g k then
    if d.fwdHit g k then d.setMemBits (fwdAddr g k) 34 34 0
    else ((d.fwdRemove g k).bump (F.FWD_STAT_A_AGED g) 1).evt (ev 6 (11 + g)) 1
  else d

/-- The sweeper visits n entries from SWEEP_POS on. -/
def Dev.sweep (d : Dev) (g : Nat) : Nat → Dev
  | 0 => d
  | n + 1 =>
    let k := d.get (F.FWD_SWEEP_POS_POS g)
    ((d.sweepVisit g k).put (F.FWD_SWEEP_POS_POS g) ((k + 1) % 262144)).sweep g n

/-! ### Removal (R389) -/

/-- The entry of a handle is removed; active pawn chains of which it is a member fail (R504). -/
def Dev.removeEntry (d : Dev) (h : Nat) : Dev :=
  match d.validEntry h with
  | none => d
  | some e =>
    let ext := d.eExt e
    let slot := ((List.range 64).map (fun k => (homeSlot (h / 65536) ext + k) % 6291456)).find? (fun i => d.xslot i == e + 2)
    let key := d.eKey e
    let pfx := d.lineBits e 0 13 6
    let xs := d.xslot e
    let d1 := d.setMems (4 * e) [0, 0, 0, xs * 2 ^ 13]
    let d2 := d1.setMems (timingAddr e) [0, 0]
    let d3 := match slot with
      | some i => d2.setXslot i 1
      | none => d2
    let d4 := (d3.dropPrefix pfx).dropPage (e / 1024)
    let d5 := match key with
      | some k => d4.keyRef k false
      | none => d4
    let g := d5.panGroup (h / 65536)
    let d6 := match d5.fwdFind g h with
      | some k => d5.fwdRemove g k
      | none => d5
    let d7 := d6.put F.DIR_COUNT_ENTRIES (d6.get F.DIR_COUNT_ENTRIES - 1)
    (d7.evt (ev 6 2) 1).failChains (fun c => c.active && c.members.contains h) 3

end Sys2Proof.Machine
end

