-- ==== Sys2Proof/Machine/Keys.lean ====
section
/-! DEFINITION. The key store: slots, the owner credential, outgoing counters and their blocks, incoming frame checks, and the
key commands (R332 to R354). -/

namespace Sys2Proof.Machine

/-! ### Slots (R334) -/

/-- A key slot that is not EMPTY. -/
def Dev.keySlot (d : Dev) (s : Nat) : Option KeySlot := d.ks.slots.find? (fun k => k.slot == s)

/-- A slot replaced, or added. -/
def Dev.setKeySlot (d : Dev) (k : KeySlot) : Dev :=
  let l := if d.ks.slots.any (fun x => x.slot == k.slot) then d.ks.slots.map (fun x => if x.slot == k.slot then k else x)
    else d.ks.slots ++ [k]
  { d with ks := { d.ks with slots := l } }

/-- GEN of a slot: the generation byte of its newer copy (R335). -/
def Dev.slotGen (d : Dev) (s : Nat) : Nat :=
  match d.keySlot s with
  | some k => k.gen
  | none => ((d.ks.gens.find? (fun x => x.1 == s)).map (fun x => x.2)).getD 0

/-- A copy's attributes and wrapped key as octets, over which its CRC-32 is taken (their order: DESIGN CHOICE, log entry 137). -/
def SlotCopy.body (c : SlotCopy) : List Byte :=
  beBytes 1 c.gen ++ beBytes 1 c.state ++ beBytes 1 c.type ++ beBytes 1 c.levels ++ beBytes 1 c.pan ++ beBytes 1 c.index ++ beBytes 2 c.block ++ c.wrapped

def SlotCopy.valid (c : SlotCopy) : Bool := crc32 c.body == c.crc

/-- The newer valid copy of two, the second one (true) or the first: its generation byte is ahead by less than half the range (R335). -/
def newerCopy (x y : SlotCopy) : Option Bool :=
  match x.valid, y.valid with
  | true, true => let ahead := (y.gen + 256 - x.gen) % 256
    some (decide (0 < ahead) && decide (ahead < 128))
  | true, false => some false
  | false, true => some true
  | false, false => none

/-- A copy of a slot that has never been written: EMPTY. -/
def SlotCopy.fresh : SlotCopy :=
  let c : SlotCopy := { gen := 0, state := 0, type := 0, levels := 0, pan := 0, index := 0, block := 0, wrapped := [], crc := 0 }
  { c with crc := crc32 c.body }

/-- The two copies of a slot in MRAM. -/
def Dev.copiesOf (d : Dev) (s : Nat) : SlotCopy × SlotCopy :=
  ((d.ks.copies.find? (fun x => x.1 == s)).map (fun x => x.2)).getD (SlotCopy.fresh, SlotCopy.fresh)

def Dev.setCopies (d : Dev) (s : Nat) (x : SlotCopy × SlotCopy) : Dev :=
  { d with ks := { d.ks with copies := d.ks.copies.filter (fun y => y.1 != s) ++ [(s, x)] } }

/-- A slot as it now stands is written to the copy that does not hold the newer valid generation, its key wrapped under the device key
(R335). -/
def Dev.storeSlot (d : Dev) (s : Nat) : Dev :=
  let c0 : SlotCopy := match d.keySlot s with
    | some k => { gen := k.gen, state := k.state, type := k.type, levels := k.levels, pan := k.pan, index := k.index, block := k.block,
                  wrapped := keyWrap (d.ks.deviceKey.getD []) k.key, crc := 0 }
    | none => { gen := d.slotGen s, state := 0, type := 0, levels := 0, pan := 0, index := 0, block := 0, wrapped := [], crc := 0 }
  let c := { c0 with crc := crc32 c0.body }
  let x := d.copiesOf s
  d.setCopies s (if newerCopy x.1 x.2 = some false then (x.1, c) else (c, x.2))

/-- PAN_SEC settings that name a slot as their GROUP key (R354). -/
def Dev.panSecRefs (d : Dev) (s : Nat) : Nat :=
  ((List.range 128).filter (fun p => d.is (F.SEC_PAN_SEC_GROUP_EN p) && d.get (F.SEC_PAN_SEC_GROUP_KEY p) == s)).length

/-- The GROUP key of a PAN: the slot GROUP_KEY names while GROUP_EN is 1 (R354). -/
def Dev.groupKey (d : Dev) (p : Nat) : Option Nat :=
  if d.is (F.SEC_PAN_SEC_GROUP_EN p) then some (d.get (F.SEC_PAN_SEC_GROUP_KEY p)) else none

/-- Key slot, mode and level with which a frame is secured (R344); level 0 for none. -/
def Dev.securing (d : Dev) (t : Tx) : Option Nat × Nat × Nat :=
  let modeOf := fun (k : Option Nat) => match k with
    | some s => match d.keySlot s with
      | some x => if x.type = 1 then 0 else 1
      | none => 0
    | none => 0
  match t.kind, t.pan with
  | .raw, _ => (none, 0, 0)
  | .ack, _ | .assocResp, _ => (t.key, t.mode, t.level)
  | .beacon, some p => (some (d.panBeaconKey p), 1, d.panBeaconLevel p)
  | .flood, some p => (d.groupKey p, 1, d.get (F.SEC_PAN_SEC_BCAST_LEVEL p))
  | _, some p =>
    let k := match t.dest with
      | some h => match d.validEntry h with
        | some e => d.eKey e
        | none => none
      | none => none
    (k, modeOf k, d.get (F.SEC_PAN_SEC_DATA_LEVEL p))
  | _, none => (none, 0, 0)

/-- Frames in steps 4 and 5 that use a slot (R334): the one with which they are secured, or will be. -/
def Dev.frameRefs (d : Dev) (s : Nat) : Nat :=
  (d.ra.txs.filter (fun t => (t.key == some s || ((d.securing t).1 == some s && (d.securing t).2.2 != 0)) &&
    [TxStage.step4, .awaitNode, .dutyHeld, .occHeld, .backoff, .newRound, .repeating, .step5, .fcntWait, .occHeld5, .budgetHeld].contains
      t.stage)).length

/-- REFS of a slot (R334). -/
def Dev.slotRefs (d : Dev) (s : Nat) : Nat :=
  ((d.keySlot s).map (fun k => k.refs)).getD 0 + d.panSecRefs s + d.frameRefs s

/-- An ACTIVE slot of one of some types, of a PAN. -/
def Dev.activeSlot (d : Dev) (s : Nat) (types : List Nat) (p : Nat) : Bool :=
  match d.keySlot s with
  | some k => k.state == 1 && types.contains k.type && k.pan == p
  | none => false

/-- The GROUP slot of a PAN with a KEY_INDEX that can verify: the ACTIVE one, or else an EXHAUSTED one (R340 row 3,
R349). -/
def Dev.groupByIndex (d : Dev) (p i : Nat) : Option Nat :=
  let find := fun st => d.ks.slots.find? (fun k => k.state == st && k.type == 2 && k.pan == p && k.index == i)
  ((find 1).or (find 2)).map (fun k => k.slot)

/-! ### Outgoing counters (R345 to R349) -/

/-- A tempo in which a frame of the key waits counts once (R347). -/
def Dev.keyStall (d : Dev) (s : Nat) : Dev :=
  match d.keySlot s with
  | none => d
  | some k =>
    if k.stallT = d.tempo + 1 then d
    else ((d.setKeySlot { k with stallT := d.tempo + 1 }).bump F.SEC_FCNT_STAT_STALLS 1).raise 0x0F 10

/-- At a boundary, every key for which a frame still waits counts the tempo that begins (R347). -/
def Dev.stallTick (d : Dev) : Dev :=
  (d.ks.slots.filter (fun k => d.ra.txs.any (fun t => t.stage == .fcntWait && t.key == some k.slot))).foldl
    (fun (x : Dev) k => x.keyStall k.slot) d

/-- The reservation of the next block starts, if it has not (R346). -/
def Dev.reserveStart (d : Dev) (s : Nat) : Dev :=
  match d.keySlot s with
  | none => d
  | some k => if k.reserving || decide (0xFFFF ≤ k.block) then d else d.setKeySlot { k with reserving := true, failed := false }

/-- What a request for an outgoing counter answers: a counter, or a wait for a block, or that the key cannot secure. -/
inductive Counter where
  | take (c : Nat)
  | wait
  | refuse
  deriving DecidableEq, Repr

/-- Takes the next outgoing counter of a key for a level (R345 to R349). -/
def Dev.takeCounter (d : Dev) (s level : Nat) : Dev × Counter :=
  match d.keySlot s with
  | none => (d, .refuse)
  | some k =>
    if k.state ≠ 1 ∨ bit k.levels level = false then (d, .refuse)
    else if (k.block + 1) * 65536 ≤ k.next then ((d.reserveStart s).keyStall s, .wait)
    else
      let k1 := { k with next := k.next + 1, state := if k.next = 0xFFFFFFFE then 2 else 1 }
      let d1 := (d.setKeySlot k1).evt (ev 4 3) 1
      let d2 := if k.next = 0xFFFFFFFE then d1.raise 0x0F 7 else d1
      let d3 := if k.block * 65536 + 61440 ≤ k.next + 1 then d2.reserveStart s else d2
      (d3, .take k.next)

/-- A reservation of block + 1 is written and verified (R346, R349). -/
def Dev.reserveDone (d : Dev) (s : Nat) : Dev :=
  match d.keySlot s with
  | none => d
  | some k =>
    if k.reserving && !k.failed then
      let b := k.block + 1
      let warn := !k.warned && decide (d.get F.SEC_CFG_WARN_BLOCK ≤ b)
      let d1 := (d.setKeySlot { k with block := b, reserving := false, failed := false, gen := (k.gen + 1) % 256,
                                       warned := k.warned || warn }).storeSlot s
      let d2 := (d1.bump F.SEC_FCNT_STAT_RESERVED 1).raise 0x0F 9
      let d3 := d2.evt (ev 4 5) 1
      if warn then d3.raise 0x0F 6 else d3
    else d

/-! ### The CCM* engines (R353) -/

/-- Cycles of a frame with `la` octets authenticated only and `lm` encrypted; at level 4 the CBC-MAC part is left out, of which the
formula's first block, the blocks of `la` and one of the two passes over `lm` are taken to be (DEDUCED, log entry 119). -/
def ccmCycles (level la lm : Nat) : Nat :=
  if level = 4 then 2 * (1 + (lm + 15) / 16) else 2 * (2 + (la + 2 + 15) / 16 + 2 * ((lm + 15) / 16))

/-- The next frame that an engine takes: the oldest acknowledgment, or else the oldest frame. -/
def nextJob (l : List EngJob) : Option EngJob := (l.find? (fun j => j.ack)).or l.head?

/-- The engines up to a moment: each that is free takes the next frame; n bounds the frames. -/
def Engines.upTo (e : Engines) (now : Nat) : Nat → Engines
  | 0 => e
  | n + 1 =>
    let first := e.free.foldl min (e.free.headD 0)
    match nextJob e.queue with
    | some j =>
      if first ≤ now then
        { e with free := setAt e.free (e.free.idxOf first) (max first j.came + j.cycles), queue := e.queue.erase j }.upTo now n
      else e
    | none => e

/-- The engines now. -/
def Dev.engines (d : Dev) : Engines := d.eng.upTo d.monoCycles d.eng.queue.length

/-- SEC.ENGINES.BUSY. -/
def Dev.engBusy (d : Dev) : Nat :=
  ((List.range 4).map (fun e => if d.monoCycles < d.engines.free.getD e 0 then 2 ^ e else 0)).sum

/-- A frame comes to the engines: one that is free takes it at once, or it waits. -/
def Dev.engine (d : Dev) (ack : Bool) (level la lm : Nat) : Dev :=
  let e := d.engines
  let q : Engines := { e with queue := e.queue ++ [⟨ack, d.monoCycles, ccmCycles level la lm⟩] }
  let e1 := q.upTo d.monoCycles q.queue.length
  { d with eng := e1 }.peak F.SEC_ENGINES_QUEUE_PEAK e1.queue.length

/-- The octets of a frame of a level that CCM* only authenticates, and those it encrypts: the private part is encrypted at levels 4
to 7 (R332). -/
def ccmParts (level opened closed : Nat) : Nat × Nat := if 4 ≤ level then (opened, closed) else (opened + closed, 0)

/-- A received frame comes to the engines. -/
def Dev.engineRx (d : Dev) (f : MacFrame) (level : Nat) : Dev :=
  let x := ccmParts level f.mhr.length (f.closed.length - micOctets level)
  d.engine (f.ftype == 2) level x.1 x.2

/-! ### Incoming frames (R340 to R342) -/

/-- A failed check: cause 1 MIC, 2 LEVEL, 3 NO_KEY, 4 COUNTER (R340). -/
def Dev.authFail (d : Dev) (cause handle : Nat) : Dev :=
  let d1 := (d.put F.SEC_LAST_FAIL_CAUSE cause).put F.SEC_LAST_FAIL_HANDLE handle
  let d2 := if cause = 1 then d1.bump F.SEC_AUTH_CNT_MIC 1 else d1.bump F.SEC_AUTH_CNT_POLICY 1
  (d2.evt (ev 4 0) 1).raise 0x0F (cause - 1)

def Dev.replayFail (d : Dev) (handle : Nat) : Dev :=
  let d1 := (d.put F.SEC_LAST_FAIL_CAUSE 5).put F.SEC_LAST_FAIL_HANDLE handle
  ((d1.bump F.SEC_REPLAY_CNT_REPLAY 1).evt (ev 4 1) 1).raise 0x0F 4

/-- How step 4 ends for a frame (R340): it passes or is a duplicate, with its private part in clear, or it stops. -/
inductive Verdict where
  | pass (m : MacFrame)
  | duplicate (m : MacFrame)
  | stop
  deriving DecidableEq, Repr

/-- The key a secured frame names: mode 0 the entry's, mode 1 the PAN's GROUP slot of that index (R340, row 3). -/
def Dev.keyNamed (d : Dev) (p e : Nat) (h : SecHdr) : Option KeySlot :=
  let s := if h.mode = 0 then d.eKey e else d.groupByIndex p h.keyIndex
  match s with
  | some x => match d.keySlot x with
    | some k => if k.state = 1 ∨ k.state = 2 then some k else none
    | none => none
  | none => none

/-- Step 4 for a frame from entry e, of handle h (R340, R321): an EXHAUSTED slot still verifies (R349). Level 4 carries no
MIC, and every condition that needs a verified one is met (R333). -/
def Dev.verify (d : Dev) (h e : Nat) (f : MacFrame) : Dev × Verdict :=
  let p := h / 65536
  match f.sec with
  | none => if d.get (F.SEC_PAN_SEC_MIN_LEVEL p) = 0 then (d, .pass f) else (d.authFail 2 h, .stop)
  | some sh =>
    let k := d.keyNamed p e sh
    let banned := match k with
      | some x => !bit x.levels sh.level
      | none => false
    if decide (sh.level < d.get (F.SEC_PAN_SEC_MIN_LEVEL p)) || !sh.supported || banned then (d.authFail 2 h, .stop)
    else match k with
    | none => (d.authFail 3 h, .stop)
    | some ks =>
      if sh.counter = 0xFFFFFFFF then (d.authFail 4 h, .stop)
      else
        let hwm := d.eHwm e
        let old := match hwm with
          | some w => decide (sh.counter < w) || (sh.counter == w && f.seq != d.eLastSeq e)
          | none => false
        if old then (d.replayFail h, .stop)
        else match f.unseal ks.key (d.eExt e) with
        | none => ((d.engineRx f sh.level).authFail 1 h, .stop)
        | some m =>
          let d1 := (d.engineRx f sh.level).evt (ev 4 4) 1
          if hwm = some sh.counter then
            if m.flood.isSome then (d1, .pass m)
            else ((d1.bump F.SEC_REPLAY_CNT_DUPLICATE 1).evt (ev 4 2) 1, .duplicate m)
          else ((d1.setLineBits e 1 35 4 sh.counter).setLineBits e 0 21 14 f.seq, .pass m)

/-- Step 4 for an Association Request from a source not in the directory (R342); the request in clear where it passes. -/
def Dev.verifyJoin (d : Dev) (p ext : Nat) (f : MacFrame) : Dev × Option MacFrame :=
  match f.sec with
  | none => if d.is (F.SEC_PAN_SEC_JOIN_SECURED p) then (d.authFail 2 0x7FFFFF, none) else (d, some f)
  | some sh =>
    let k := ((d.groupKey p).bind d.keySlot).filter (fun x =>
      sh.mode == 1 && sh.keyIndex == x.index && (x.state == 1 || x.state == 2))
    let banned := match k with
      | some x => !bit x.levels sh.level
      | none => false
    if decide (sh.level < d.get (F.SEC_PAN_SEC_MIN_LEVEL p)) || !sh.supported || banned then (d.authFail 2 0x7FFFFF, none)
    else match k with
    | none => (d.authFail 3 0x7FFFFF, none)
    | some ks =>
      if sh.counter = 0xFFFFFFFF then (d.authFail 4 0x7FFFFF, none)
      else match f.unseal ks.key ext with
      | none => ((d.engineRx f sh.level).authFail 1 0x7FFFFF, none)
      | some m => ((d.engineRx f sh.level).evt (ev 4 4) 1, some m)

/-! ### The owner credential (R337 to R339) -/

/-- Conditions of an owner-authenticated command: a wrong MAC or no owner key; a stale OSEQ (R338). -/
def Dev.ownerConds (d : Dev) (opcode : Nat) (e : Entry) : List (Bool × Nat) :=
  match d.ks.owner with
  | none => [(true, 0x08)]
  | some k =>
    let dist := (e.p2 6 + 65536 - d.ks.oseq) % 65536
    [((aesCmac k (beBytes 2 opcode ++ e.params.take 32)) != (e.params.drop 32), 0x08),
     (!(decide (1 ≤ dist) && decide (dist ≤ 32767)), 0x09)]

/-- OSEQ is stored with the effect of an accepted owner command, and OWNER_CHANGE is set (R338, R351). -/
def Dev.ownerAccept (d : Dev) (e : Entry) : Dev :=
  { d with ks := { d.ks with oseq := e.p2 6 } }.raise 0x0F 8

def Dev.ownerKey (d : Dev) : List Byte := d.ks.owner.getD []

/-! ### Key commands (R350, R351) -/

/-- What refuses each key command (R350, R351). -/
def Dev.keyLoadConds (d : Dev) (e : Entry) : List (Bool × Nat) :=
  let slot := e.p2 0; let type := e.p1 2; let levels := e.p1 3; let pan := e.p1 4; let idx := e.p1 5
  d.ownerConds 0x0400 e ++
    [((keyUnwrap d.ownerKey ((e.params.drop 8).take 24)).isNone, 0x08),
     (decide (4095 < slot) || !(decide (1 ≤ type) && decide (type ≤ 3)) || levels == 0 || bit levels 0 || decide (127 < pan)
        || (if type = 1 then idx != 0 else idx == 0), 0x01),
     ((d.keySlot slot).isSome, 0x03),
     (type != 1 && d.ks.slots.any (fun k => k.state == 1 && k.pan == pan && k.type == type && k.index == idx), 0x03)]

def Dev.keyEraseConds (d : Dev) (e : Entry) : List (Bool × Nat) :=
  let slot := e.p2 0
  [(d.ks.lock, 0x0D),
   (decide (4095 < slot) || !e.zeroFrom 2, 0x01),
   (decide (0 < d.slotRefs slot - d.frameRefs slot), 0x03),
   (decide (0 < d.frameRefs slot), 0x06)]

def Dev.keyBindConds (d : Dev) (e : Entry) : List (Bool × Nat) :=
  let h := e.p4 0
  [(decide (2 ^ 23 ≤ h) || decide (4095 < e.p2 4) || decide (1 < e.p1 6) || !e.zeroFrom 7, 0x01),
   (!d.activeSlot (e.p2 4) [1, 2] (h / 65536), 0x03),
   ((if h < 2 ^ 23 then d.validEntry h else none).isNone, 0x11)]

def keyInfoConds (e : Entry) : List (Bool × Nat) := [(decide (4095 < e.p2 0) || !e.zeroFrom 2, 0x01)]

def Dev.ownerLockConds (d : Dev) (e : Entry) : List (Bool × Nat) :=
  d.ownerConds 0x0404 e
    ++ [(decide (1 < e.p1 0) || !((e.params.drop 1).take 5 ++ (e.params.drop 8).take 24).all (fun b => b == 0), 0x01)]

/-- KEY_LOAD (opcode 0x0400). -/
def Dev.cmdKeyLoad (d : Dev) (src : Src) (e : Entry) : Dev :=
  let slot := e.p2 0; let type := e.p1 2; let levels := e.p1 3; let pan := e.p1 4; let idx := e.p1 5
  let key := keyUnwrap d.ownerKey ((e.params.drop 8).take 24)
  let code := oneCode (d.keyLoadConds e)
  if code ≠ 0 then d.finish src code []
  else
    let g := (d.slotGen slot + 1) % 256
    let d1 := d.setKeySlot { slot := slot, state := 1, type := type, levels := levels, pan := pan, index := idx, gen := g,
                             key := key.getD [], next := 0, block := 0, refs := 0, reserving := false, failed := false,
                             warned := false, stallT := 0, retryT := 0 }
    ((d1.storeSlot slot).ownerAccept e).finish src 0 (beBytes 2 slot ++ beBytes 1 g)

/-- A slot returns to EMPTY; its generation byte stays with its copies. -/
def Dev.eraseSlot (d : Dev) (s : Nat) : Dev :=
  let g := (d.slotGen s + 1) % 256
  { d with ks := { d.ks with slots := d.ks.slots.filter (fun k => k.slot != s)
                             gens := (s, g) :: d.ks.gens.filter (fun x => x.1 != s) } }.storeSlot s

/-- KEY_ERASE (opcode 0x0401). -/
def Dev.cmdKeyErase (d : Dev) (src : Src) (e : Entry) : Dev :=
  let slot := e.p2 0
  let code := oneCode (d.keyEraseConds e)
  if code ≠ 0 then d.finish src code []
  else ((d.eraseSlot slot).raise 0x0F 8).finish src 0 []

/-- KEY_BIND (opcode 0x0402). -/
def Dev.cmdKeyBind (d : Dev) (src : Src) (e : Entry) : Dev :=
  let h := e.p4 0; let slot := e.p2 4; let flags := e.p1 6
  let ent := if h < 2 ^ 23 then d.validEntry h else none
  let code := oneCode (d.keyBindConds e)
  match code, ent with
  | 0, some n =>
    let old := d.eKey n
    let d1 := match old with
      | some k => d.keyRef k false
      | none => d
    let d2 := ((d1.keyRef slot true).setLineBits n 0 33 22 slot).setLineBits n 2 3 3 1
    let d3 := if bit flags 0 then d2.setLineBits n 1 35 4 0xFFFFFFFF else d2
    d3.finish src 0 (beBytes 2 (old.getD 0xFFFF))
  | c, _ => d.finish src c []

/-- KEY_INFO (opcode 0x0403). -/
def Dev.cmdKeyInfo (d : Dev) (src : Src) (e : Entry) : Dev :=
  let code := oneCode (keyInfoConds e)
  if code ≠ 0 then d.finish src code []
  else match d.keySlot (e.p2 0) with
    | none => d.finish src 0 []
    | some k => d.finish src 0 (beBytes 1 k.state ++ beBytes 1 k.type ++ beBytes 1 k.levels ++ beBytes 1 k.pan
        ++ beBytes 1 k.index ++ beBytes 1 k.gen ++ beBytes 2 0 ++ beBytes 4 k.next ++ beBytes 2 k.block ++ beBytes 2 0)

/-- OWNER_LOCK (opcode 0x0404). -/
def Dev.cmdOwnerLock (d : Dev) (src : Src) (e : Entry) : Dev :=
  let code := oneCode (d.ownerLockConds e)
  if code ≠ 0 then d.finish src code []
  else
    let d1 := { d with ks := { d.ks with lock := e.p1 0 == 1 } }
    (d1.ownerAccept e).finish src 0 (beBytes 1 (e.p1 0))

/-! ### Meanings -/

/-- FCNT_RESERVE_RETRY: a failed reservation write is tried again, once per tempo (R347). -/
def execFcntReserveRetry (slot : Fin 4096) (s : State) : Host.Outcome State Fault Refusal :=
  runs s (fun d => match d.keySlot slot with
    | some k => if k.failed && decide (k.retryT ≤ d.tempo) then d.setKeySlot { k with reserving := true, failed := false } else d
    | none => d)

/-- KEY_LOAD: the begun command writes a wrapped key into an EMPTY slot (R351). -/
def execKeyLoad (ring : Fin 8) (hseq : Nat) (s : State) : Host.Outcome State Fault Refusal :=
  runs s (fun d => d.runRow ring hseq 0x0400 Dev.cmdKeyLoad)

/-- KEY_ERASE: the begun command returns a slot to EMPTY (R351). -/
def execKeyErase (ring : Fin 8) (hseq : Nat) (s : State) : Host.Outcome State Fault Refusal :=
  runs s (fun d => d.runRow ring hseq 0x0401 Dev.cmdKeyErase)

/-- KEY_BIND: the begun command points an entry's KEY at a slot (R351). -/
def execKeyBind (ring : Fin 8) (hseq : Nat) (s : State) : Host.Outcome State Fault Refusal :=
  runs s (fun d => d.runRow ring hseq 0x0402 Dev.cmdKeyBind)

/-- KEY_INFO: the begun command reports a slot's attributes (R351). -/
def execKeyInfo (ring : Fin 8) (hseq : Nat) (s : State) : Host.Outcome State Fault Refusal :=
  runs s (fun d => d.runRow ring hseq 0x0403 Dev.cmdKeyInfo)

/-- OWNER_LOCK: the begun command sets or clears the owner lock (R339). -/
def execOwnerLock (ring : Fin 8) (hseq : Nat) (s : State) : Host.Outcome State Fault Refusal :=
  runs s (fun d => d.runRow ring hseq 0x0404 Dev.cmdOwnerLock)

end Sys2Proof.Machine
end

