-- ==== Sys2Proof/Machine/Phy.lean ====
section
/-! DEFINITION. The transmit PHYs, frame lengths and airtime (R195, R248, R271, R277), and the regulatory vault: slot records,
the power limit, and the checks of a commit (R204, R214 to R220). -/

namespace Sys2Proof.Machine

/-! ### PHY codes (R248, R271) -/

/-- Occupied bandwidth B in Hz. -/
def phyBandwidth (phy : Nat) : Nat :=
  match phy with
  | 0x01 => 2000000 | 0x10 => 100000 | 0x11 => 150000 | 0x12 => 225000 | 0x13 => 300000 | 0x14 => 450000 | 0x15 => 400000
  | 0x20 => 12500 | 0x21 => 12500 | 0x22 => 50000 | 0x28 => 200000 | 0x29 => 200000 | _ => 0

/-- Symbols (chips for C1 and T1) per second. -/
def phyRate (phy : Nat) : Nat :=
  match phy with
  | 0x01 => 62500 | 0x10 => 50000 | 0x11 => 100000 | 0x12 => 150000 | 0x13 => 200000 | 0x14 => 300000 | 0x15 => 200000
  | 0x20 => 2400 | 0x21 => 4800 | 0x22 => 9600 | 0x28 => 100000 | 0x29 => 100000 | _ => 1

/-- Whether a PHY is a SUN FSK code. -/
def isSun (phy : Nat) : Bool := decide (0x10 ≤ phy) && decide (phy ≤ 0x15)
def isModeN (phy : Nat) : Bool := decide (0x20 ≤ phy) && decide (phy ≤ 0x22)

/-- Whether a PHY may be sent on a group (R271). -/
def phyOnGroup (phy g : Nat) : Bool :=
  (phy == 0x01 && g == 3) || (isSun phy && (g == 1 || g == 2)) || (isModeN phy && g == 0)

/-- Largest PSDU in octets, and the delay line in µs (R271). -/
def phyMaxPsdu (phy : Nat) : Nat := if phy = 0x01 then 127 else if isSun phy then 2047 else 255
def phyDelayLine (phy : Nat) : Nat := if phy = 0x01 then 24 else if isSun phy then 160 else 1000

/-- Symbol periods of an octet, T_oct of R310: 8, or 4 for 4-FSK. -/
def octetSymbols (phy : Nat) : Nat := if phy = 0x15 then 4 else 8

/-- The monotonic time, in µs to the nearest, that lies `phase` units of 10 symbol periods of a PHY after core cycle m (R307). -/
def phaseUs (phy m phase : Nat) : Nat := (2 * (m * 25 * phyRate phy + phase * 10 ^ 11) + 10000 * phyRate phy) / (20000 * phyRate phy)

/-- Whether n is at most the top of the range, in Hz, of a group and range, and at least its bottom (R195). -/
def rangeEdges (g : Nat) (high : Bool) : Nat × Nat :=
  match g with
  | 0 => (169400000, 169825000)
  | 1 => (433050000, 434790000)
  | 2 => if high then (902000000, 928000000) else (863000000, 876000000)
  | _ => (2400000000, 2483500000)

/-- Hardware power maximum HW_g in 0.25 dB units (R195). -/
def hwMax (g : Nat) : Int := if g = 3 then 80 else 120

/-! ### Lengths and airtime (R277) -/

/-- Octets of the PSDU of a frame the Quatos builds, with a security level and mode and a FCS of `fcs` octets. -/
def framePsdu (f : MacFrame) (level mode fcs : Nat) : Nat :=
  let g := { f with sec := if level = 0 then none else some ⟨level, mode, 0, 0, true⟩ }
  g.openPart.length + g.closedPart.length + micOctets level + fcs

/-- Block CRC octets of an EN 13757-4 frame of n octets, format A or B (PRESUMED: EN 13757-4). -/
def modeNCrc (fmtB : Bool) (n : Nat) : Nat := 2 * (blockLens fmtB n).length

/-- Symbols of a frame on the air: SHR, PHR and a PSDU of n octets (R277). OPTS as in R285. With FEC the PHR and PSDU are
coded at rate 1/2 with tail and padding bits (PRESUMED: IEEE 802.15.4-2020, clause 19). -/
def frameSymbols (phy opts preamble n : Nat) : Nat :=
  if phy = 0x01 then 10 + 2 + 2 * n
  else if isSun phy then
    let body := if bit opts 3 then 2 * (16 + 8 * n + 3 + (if n % 2 = 0 then 13 else 5)) else 16 + 8 * n
    let total := 8 * preamble + 16 + body
    if phy = 0x15 then (total + 1) / 2 else total
  else
    let total := 32 + 8 * n
    if phy = 0x22 then (total + 1) / 2 else total

/-- Airtime in µs, rounded up (R277). -/
def airtimeUs (phy opts preamble n ramp : Nat) : Nat :=
  2 * ramp + (frameSymbols phy opts preamble n * 1000000 + phyRate phy - 1) / phyRate phy

/-! ### Transmit profiles (R288) -/

/-- The storage key of the profile of a group and PHY. -/
def profKey (g phy : Nat) : Nat := R.TXP_PROF_DATA + 2 ^ 20 * (g * 256 + phy + 1)

/-- The profile in force of a group and PHY, as a PROF_DATA word; with none stored, the default of R288 is its reset value. -/
def Dev.profile (d : Dev) (g phy : Nat) : Nat := d.rd (profKey g phy)
def profRamp (w : Nat) : Nat := bits w 12 8

/-! ### The vault (R214, R215) -/

/-- Word j of generation n as OTP holds it: 0 the magic, number and zero byte, 1 to 512 the slot records, 513 the CRC. -/
def Vault.word (v : Vault) (n j : Nat) : Nat := (SMap.get (fun _ => (0 : Reg)) v.words (n * 1024 + j)).toNat

/-- Bytes 0 to 2,051 of a generation, which its CRC covers. -/
def Vault.genBytes (v : Vault) (n : Nat) : List Byte := (List.range 513).flatMap (fun j => beBytes 4 (v.word n j))

/-- Word 0 of a generation: magic 0x5156, its number, 0x00. -/
def genHead (n : Nat) : Nat := 0x51560000 + n % 256 * 256

/-- A generation is valid when its magic, number and CRC are correct (R214). -/
def Vault.valid (v : Vault) (n : Nat) : Bool := v.word n 0 == genHead n && crc32 (v.genBytes n) == v.word n 513

/-- Word k (bytes 4k to 4k + 3) of slot s of generation n. -/
def Dev.genWord (d : Dev) (n s k : Nat) : Nat := d.ra.vault.word n (1 + s * 16 + k)

/-- The fields of a slot record (R215), read from its sixteen words. -/
structure SlotRec where
  words : List Nat

def SlotRec.word (r : SlotRec) (k : Nat) : Nat := r.words.getD k 0
def SlotRec.defined (r : SlotRec) : Bool := bit (r.word 0) 31
def SlotRec.enabled (r : SlotRec) : Bool := bit (r.word 0) 30
def SlotRec.lbtEn (r : SlotRec) : Bool := bit (r.word 0) 29
def SlotRec.group (r : SlotRec) : Nat := bits (r.word 0) 17 16
def SlotRec.high (r : SlotRec) : Bool := bit (r.word 0) 18
def SlotRec.maxCond (r : SlotRec) : Int := toSigned 16 (bits (r.word 0) 15 0)
def SlotRec.fLow (r : SlotRec) : Nat := r.word 1
def SlotRec.fHigh (r : SlotRec) : Nat := r.word 2
def SlotRec.fFirst (r : SlotRec) : Nat := r.word 3
def SlotRec.spacing (r : SlotRec) : Nat := r.word 4
def SlotRec.chanMap (r : SlotRec) : Nat := 2 ^ 32 * r.word 5 + r.word 6
def SlotRec.radMax (r : SlotRec) : Int := toSigned 16 (bits (r.word 7) 31 16)
def SlotRec.gain (r : SlotRec) : Int := toSigned 16 (bits (r.word 7) 15 0)
def SlotRec.lbtThresh (r : SlotRec) : Int := toSigned 16 (bits (r.word 8) 31 16)
def SlotRec.lbtTime (r : SlotRec) : Nat := bits (r.word 8) 15 0
def SlotRec.duty (r : SlotRec) : Nat := bits (r.word 9) 31 16
def SlotRec.dwellMax (r : SlotRec) : Nat := r.word 10
def SlotRec.occMax (r : SlotRec) : Nat := r.word 11
def SlotRec.occWindow (r : SlotRec) : Nat := r.word 12

def Dev.slotRec (d : Dev) (n s : Nat) : SlotRec := ⟨(List.range 16).map (fun k => d.genWord n s k)⟩

/-- Slot s of the generation in force. -/
def Dev.slotInForce (d : Dev) (s : Nat) : Option SlotRec := d.ra.vault.inForce.map (fun n => d.slotRec n s)

/-- Whether port group g, at frequency f, falls in a slot: its group, its range, its edges (R216). -/
def SlotRec.holds (r : SlotRec) (g f : Nat) : Bool :=
  r.defined && r.group == g && (g != 2 || (r.high == decide (902000000 ≤ f))) && decide (r.fLow ≤ f) && decide (f ≤ r.fHigh)

/-- The vault slot of a frequency on a group, in the generation in force. -/
def Dev.slotFor (d : Dev) (g f : Nat) : Option Nat :=
  match d.ra.vault.inForce with
  | none => none
  | some n => (List.range 32).find? (fun s => (d.slotRec n s).holds g f)

/-- The channel index of a frequency in a slot, if the slot permits it (R216, condition 1). -/
def SlotRec.channel (r : SlotRec) (f : Nat) : Option Nat :=
  (List.range 64).find? (fun i => bit r.chanMap i && r.fFirst + i * r.spacing == f)

/-- Whether a bandwidth B around f lies within the slot's edges. -/
def SlotRec.fits (r : SlotRec) (f b : Nat) : Bool :=
  decide (2 * r.fLow + b ≤ 2 * f) && decide (2 * f + b ≤ 2 * r.fHigh)

/-- The busy threshold of listen-before-talk at the ball, 0.25 dB units (R216, R315). -/
def SlotRec.busyAbove (r : SlotRec) : Int := 2 * r.lbtThresh + r.gain

/-! ### The checks of a commit (R218, R219) -/

/-- The first field of a DEFINED slot record that breaks a range, as its offset; none where it breaks none. -/
def SlotRec.rangeFail (r : SlotRec) : Option Nat :=
  let (lo, hi) := rangeEdges r.group r.high
  let chans := (List.range 64).filter (fun i => bit r.chanMap i)
  if !r.defined then none
  else if r.group = 3 ∧ r.high = true then some 1
  else if hwMax r.group < r.maxCond then some 2
  else if r.fLow < lo ∨ hi < r.fLow ∨ r.fHigh ≤ r.fLow then some 4
  else if hi < r.fHigh then some 8
  else if r.spacing = 0 ∧ chans ≠ [] then some 16
  else if chans.any (fun i => decide (r.fFirst + i * r.spacing < r.fLow) || decide (r.fHigh < r.fFirst + i * r.spacing))
  then some 20
  else if 10000 < r.duty then some 36
  else if r.occWindow = 0 ∧ r.occMax ≠ 0 then some 48
  else none

/-- Whether two DEFINED slots of one group and range overlap (R218); bands that only touch at an edge do (DESIGN CHOICE, log entry 129). -/
def SlotRec.overlaps (a b : SlotRec) : Bool :=
  a.defined && b.defined && a.group == b.group && (a.group != 2 || a.high == b.high)
    && decide (a.fLow ≤ b.fHigh) && decide (b.fLow ≤ a.fHigh)

/-- The first field of a slot that loosens the slot in force (R219), as its offset. -/
def SlotRec.loosens (old new : SlotRec) : Option Nat :=
  let lower := fun (o n : Nat) => if o = 0 then false else decide (n = 0) || decide (o < n)
  if old.defined ≠ new.defined then some 0
  else if old.enabled = false ∧ new.enabled = true then some 0
  else if old.lbtEn = true ∧ new.lbtEn = false then some 0
  else if old.group ≠ new.group ∨ old.high ≠ new.high then some 1
  else if old.maxCond < new.maxCond then some 2
  else if new.fLow < old.fLow then some 4
  else if old.fHigh < new.fHigh then some 8
  else if old.fFirst ≠ new.fFirst then some 12
  else if old.spacing ≠ new.spacing then some 16
  else if new.chanMap &&& old.chanMap ≠ new.chanMap then some 20
  else if old.radMax < new.radMax then some 28
  else if new.gain < old.gain then some 30
  else if old.lbtEn = true ∧ old.lbtThresh < new.lbtThresh then some 32
  else if old.lbtEn = true ∧ new.lbtTime < old.lbtTime then some 34
  else if old.duty < new.duty then some 36
  else if lower old.dwellMax new.dwellMax then some 40
  else if lower old.occMax new.occMax then some 44
  else if old.occMax ≠ 0 ∧ new.occWindow < old.occWindow then some 48
  else none

/-- The draft's slot s (R217): kept by slot behind VAULT.DRAFT_k. -/
def draftKey (s k : Nat) : Nat := R.VAULT_DRAFT k + 2 ^ 20 * (s + 1)
def Dev.draftRec (d : Dev) (s : Nat) : SlotRec := ⟨(List.range 16).map (fun k => d.rd (draftKey s k))⟩

/-- The draft's 2,048 bytes. -/
def Dev.draftBytes (d : Dev) : List Byte :=
  (List.range 512).flatMap (fun i => beBytes 4 (d.rd (draftKey (i / 16) (i % 16))))

/-- The first slot and field offset at which a test of each slot fails. -/
def firstFail (f : Nat → Option Nat) : Option (Nat × Nat) :=
  (List.range 32).findSome? (fun s => (f s).map (fun o => (s, o)))

/-- The draft is reloaded from the generation in force (R217); every word 0 where none is. -/
def Dev.reloadDraft (d : Dev) : Dev :=
  (List.range 512).foldl (fun x i =>
    x.wr (draftKey (i / 16) (i % 16)) (match d.ra.vault.inForce with
      | some n => d.genWord n (i / 16) (i % 16)
      | none => 0)) d

end Sys2Proof.Machine
end

