-- ==== Sys2Proof/Machine/Vault.lean ====
section
/-! DEFINITION. Committing the regulatory vault (R214, R217 to R220), and the owner's change of the owner key (R350, R351). -/

namespace Sys2Proof.Machine

/-- The draft's range check (R218): a slot's own ranges, then an overlap with another DEFINED slot, named at F_LOW. -/
def Dev.draftRange (d : Dev) : Option (Nat × Nat) :=
  firstFail (fun s =>
    match (d.draftRec s).rangeFail with
    | some o => some o
    | none => if (List.range 32).any (fun t => t != s && (d.draftRec s).overlaps (d.draftRec t)) then some 4 else none)

/-- The first slot of the draft that loosens the generation in force (R219). -/
def Dev.draftLoosens (d : Dev) : Option (Nat × Nat) :=
  match d.ra.vault.inForce with
  | some n => firstFail (fun s => (d.slotRec n s).loosens (d.draftRec s))
  | none => none

/-- RESULT of VAULT_COMMIT (R217). -/
def Dev.vaultResult (d : Dev) (fail : Option (Nat × Nat)) : List Byte :=
  beBytes 1 (d.ra.vault.inForce.getD 0xFF) ++ beBytes 1 d.ra.vault.bad ++ beBytes 1 ((fail.map (fun x => x.1)).getD 0xFF)
    ++ beBytes 1 ((fail.map (fun x => x.2)).getD 0xFF)

/-- What refuses a VAULT_COMMIT ahead of the order that R218 states for its own rank. -/
def Dev.vaultConds (d : Dev) (e : Entry) : List (Bool × Nat) :=
  let macOk := match d.ks.owner with
    | some k => aesCmac k ([0x51, 0x56, BitVec.ofNat 8 (e.p1 0), 0] ++ d.draftBytes) == (e.params.drop 16).take 16
    | none => false
  let zeros := ((e.params.drop 1).take 15 ++ e.params.drop 32).all (fun b => b == 0)
  [(!macOk, 0x08), (d.ks.lock, 0x0D), (d.is F.PWR_FLAGS_VIN_LOW || d.is F.PWR_FLAGS_VBAK_LOW, 0x0C),
   (d.draftRange.isSome || !zeros, 0x01)]

/-- VAULT_COMMIT (R217, R218): refused, or the burn of the draft begins. -/
def Dev.cmdVaultCommit (d : Dev) (src : Src) (e : Entry) : Dev :=
  let gen := e.p1 0
  let range := d.draftRange
  let early := oneCode (d.vaultConds e)
  let loosens := d.draftLoosens
  if early = 0x01 then d.finish src 0x01 (d.vaultResult range)
  else if early ≠ 0 then d.finish src early (d.vaultResult none)
  else if d.ra.vault.burn.isSome then d.finish src 0x06 (d.vaultResult none)
  else if 8 ≤ d.ra.vault.used then d.finish src 0x12 (d.vaultResult none)
  else if gen ≠ d.ra.vault.used then d.finish src 0x09 (d.vaultResult none)
  else if loosens.isSome then d.finish src 0x0E (d.vaultResult loosens)
  else
    let words := (List.range 512).map (fun i => (i, d.rd (draftKey (i / 16) (i % 16))))
    { d with ra := { d.ra with vault := { d.ra.vault with burn := some { src := src, gen := gen, words := words, verified := false } } } }

/-- The 514 words of a burn: head, slot records, CRC over what goes before it (R214). -/
def VaultBurn.image (b : VaultBurn) : List Nat :=
  let body := genHead b.gen :: b.words.map (fun x => x.2)
  body ++ [crc32 (body.flatMap (fun w => beBytes 4 w))]

/-- The words of a burn written to OTP as a generation, from word j on: its number is used. -/
def Vault.writeWords (v : Vault) (n j : Nat) (ws : List Nat) : Vault :=
  { v with words := ws.zipIdx.foldl (fun m x => SMap.set (fun _ => (0 : Reg)) m (n * 1024 + j + x.2) (BitVec.ofNat 32 x.1)) v.words }
def Vault.written (v : Vault) (b : VaultBurn) : Vault := { v.writeWords b.gen 0 b.image with used := v.used + 1, burn := none }

/-- The newest valid generation (R214). -/
def Vault.newest (v : Vault) : Option Nat := ((List.range v.used).filter (fun n => v.valid n)).getLast?

/-- What Load finds (R214, R220): the newest valid generation, and the used ones that are not valid. -/
def Vault.loaded (v : Vault) : Vault :=
  { v with inForce := v.newest, bad := ((List.range v.used).map (fun n => if v.valid n then 0 else 2 ^ n)).sum }

/-- At the first boundary after verification, the burned generation takes effect and the command completes (R220). -/
def Dev.vaultApply (d : Dev) : Dev :=
  match d.ra.vault.burn with
  | none => d
  | some b =>
    if b.verified then
      let d1 := { d with ra := { d.ra with vault := { (d.ra.vault.written b) with inForce := some b.gen } } }.reloadDraft
      d1.finish b.src 0 (d1.vaultResult none)
    else d

/-- A burn that a cut of power meets (R220): the generation stands where it was verified; otherwise its number is used, its head
is not written, and so it is invalid (DESIGN CHOICE, log entry 102). -/
def Vault.cut (v : Vault) : Vault :=
  match v.burn with
  | none => v
  | some b => if b.verified then v.written b else { v.writeWords b.gen 1 (b.image.drop 1) with used := v.used + 1, burn := none }

/-! ### OWNER_REKEY (R350, R351) -/

/-- What refuses an OWNER_REKEY. -/
def Dev.ownerRekeyConds (d : Dev) (e : Entry) : List (Bool × Nat) :=
  d.ownerConds 0x0405 e ++ [(!(e.params.take 6).all (fun b => b == 0), 0x01),
    ((keyUnwrap d.ownerKey ((e.params.drop 8).take 24)).isNone, 0x08)]

/-- OWNER_REKEY replaces the owner key. -/
def Dev.cmdOwnerRekey (d : Dev) (src : Src) (e : Entry) : Dev × Bool :=
  let k := keyUnwrap d.ownerKey ((e.params.drop 8).take 24)
  let code := oneCode (d.ownerRekeyConds e)
  if code ≠ 0 then (d.finish src code [], false)
  else
    let d1 := d.ownerAccept e
    (({ d1 with ks := { d1.ks with owner := k } }).finish src 0 [], true)

/-! ### Meanings -/

/-- VAULT_COMMIT: the command checks the draft and burns it as the next generation (R218). -/
def execVaultCommit (ring : Fin 8) (hseq : Nat) (s : State) : Host.Outcome State Fault Refusal :=
  runs s (fun d => d.runRow ring hseq 0x0200 Dev.cmdVaultCommit)

/-- VAULT_BURN_DONE: the burned generation is verified (R220). -/
def execVaultBurnDone (s : State) : Host.Outcome State Fault Refusal :=
  runs s (fun d => match d.ra.vault.burn with
    | some b => { d with ra := { d.ra with vault := { d.ra.vault with burn := some { b with verified := true } } } }
    | none => d)

end Sys2Proof.Machine
end

