-- ==== Sys2Proof/Machine/Calib.lean ====
section
/-! DEFINITION. The records of the calibration sequencer and the loss of the spare (R240, R241). -/

namespace Sys2Proof.Machine

def Dev.calg (d : Dev) (g : Nat) : CalGroup := d.cal.getD g CalGroup.reset
def Dev.setCalg (d : Dev) (g : Nat) (c : CalGroup) : Dev := { d with cal := setAt d.cal g c }
def Dev.calState (d : Dev) (g : Nat) : Nat := d.get (F.CAL_GSTAT_STATE g)
def Dev.calChain (d : Dev) (g : Nat) : Nat := d.get (F.CAL_GSTAT_CHAIN g)
def Dev.setCalState (d : Dev) (g v : Nat) : Dev := d.put (F.CAL_GSTAT_STATE g) v

/-- No chain of the group is being calibrated. -/
def Dev.calNone (d : Dev) (g : Nat) : Dev :=
  ((d.put (F.CAL_GSTAT_CHAIN g) 0xF).put (F.CAL_GSTAT_ITEM g) 0xF).put (F.CAL_GSTAT_STEPS_LEFT g) 0

/-- The outcome of the latest attempt on a chain of a group: code and failing item (R243). -/
def Dev.calOutcome (d : Dev) (k code item : Nat) : Dev :=
  (d.put (F.CAL_CHAIN_LAST_CODE k) code).put (F.CAL_CHAIN_FAIL_ITEM k) item

/-- A keyed value of a list replaced, or added at its end. -/
def kvSet (l : List (Nat × Nat)) (k v : Nat) : List (Nat × Nat) := l.filter (fun x => x.1 != k) ++ [(k, v)]

/-- The spare's entry for index i of sector s (R226). -/
def Dev.spareWord (d : Dev) (g s i : Nat) : Nat :=
  ((d.calg g).spareTab.find? (fun x => x.1 == 64 * s + i)).elim (startupPt g i) (fun x => x.2)

/-- Whether a port is lost: held on a spare that has failed (R241). -/
def Dev.portLost (d : Dev) (p : Nat) : Bool :=
  let g := p / 8
  (d.calg g).lost && d.is (F.RFG_CHAIN_MAP_CASTLING g) && d.get (F.RFG_CHAIN_MAP_SECTOR g) == p % 8

end Sys2Proof.Machine
end

