-- ==== Sys2Proof/Machine/Monitor.lean ====
section
/-! DEFINITION. The shaping filter, the spectral-mask monitor and the masks (R271, R274, R278 to R281), in integer arithmetic: cosines
and window in units of 2^-30 and 2^-31, samples in units of 2^-15 of the nominal amplitude (DESIGN CHOICE, log entry 101). -/

namespace Sys2Proof.Machine

/-! ### Rates (R271) -/

/-- Samples per second of the shaping filter: 8 per symbol, or per chip of code 0x01. -/
def phyFilterRate (phy : Nat) : Nat := if phy = 0x01 then 16000000 else 8 * phyRate phy

/-- Samples per second of the mask monitor. -/
def phyMonitorRate (phy : Nat) : Nat := if phy = 0x01 then 16000000 else if isSun phy then 2400000 else 384000

/-- Width of a monitor bin, Hz. -/
def phyBinWidth (phy : Nat) : Nat := phyMonitorRate phy / 256

/-- Length of the delay line, in monitor samples. -/
def delaySamples : Nat := 384

/-! ### The shaping filter (R271, R274, R275) -/

/-- The 64 coefficients of the built-in filter of a PHY. Half-sine and Gaussian taps are free values: the spec gives their shape and
no numbers. -/
def builtinFilter (phy : Nat) : List Int :=
  let taps := if phy = 0x01 then (List.range 16).map Config.halfSineTap
    else if phy = 0x15 then List.replicate 8 1
    else (List.range 32).map Config.gaussianTap
  taps ++ List.replicate (64 - taps.length) 0

/-- The filter's output at sample n, for an input of one impulse per symbol followed by 7 zeros (R274). -/
def filterOut (coef : List Int) (impulses : List Int) (n : Nat) : Int :=
  ((List.range 8).map (fun j =>
    let k := n % 8 + 8 * j
    if n < k then 0 else coef.getD k 0 * impulses.getD ((n - k) / 8) 0)).sum

/-- Frequency deviation of an FSK code at sample n, in units of 1 / (sum of the coefficients) of the nominal deviation: the filter
output over S, the sum of the coefficients over 8 (R274). -/
def deviationAt (coef : List Int) (impulses : List Int) (n : Nat) : Int × Int := (8 * filterOut coef impulses n, coef.sum)

/-- Amplitude of one rail of code 0x01 at sample n: the filter output over the largest coefficient (R274). -/
def railAt (coef : List Int) (chips : List Int) (n : Nat) : Int × Int := (filterOut coef chips n, coef.foldl max 0)

/-- Both rails of code 0x01 at sample n of the filter, by chip and then by sample: even chips on I, odd ones on Q, which is one chip later, as
each rail's impulses are two chips apart (R274). -/
def railsAt (coef : List Int) (chips : List Int) (n : Nat) : (Int × Int) × (Int × Int) :=
  let half := fun (k : Nat) => (List.range chips.length).map (fun i => if i % 2 = k then chips.getD i 0 else 0)
  (railAt coef (half 0) n, railAt coef (half 1) n)

/-! ### Masks (R279) -/

/-- The words of a filter set (kind 0, 64 coefficients) or a mask set (kind 1, 16 segments): their number, and the storage
keys of the set in force (R275, R279, R289). -/
def setLen (kind : Nat) : Nat := if kind = 1 then 16 else 64
def setKey (kind g n i : Nat) : Nat := R.TXP_SET_DATA + 2 ^ 20 * ((kind * 4 + g) * 512 + n * 64 + i + 1)

/-- A segment word and its fields. -/
def segWord (atten : Nat) (lo hi : Int) : Nat := 2 ^ 31 + atten * 2 ^ 16 + ofSigned 8 hi * 2 ^ 8 + ofSigned 8 lo
def segOn (w : Nat) : Bool := bit w 31
def segAtten (w : Nat) : Nat := bits w 23 16
def segHi (w : Nat) : Int := toSigned 8 (bits w 15 8)
def segLo (w : Nat) : Int := toSigned 8 (bits w 7 0)

/-- The built-in mask of a PHY: set 0xF. -/
def builtinMask (phy : Nat) : List Nat :=
  let off := if phy = 0x01 then 3500000 else phyBandwidth phy
  let m : Int := ((off + phyBinWidth phy - 1) / phyBinWidth phy : Nat)
  let atten := if phy = 0x01 then 70 else if isSun phy then 80 else 90
  [segWord atten (-128) (-m), segWord atten m 127]

/-- The bins that a segment covers. -/
def segBins (w : Nat) : List Int :=
  if segOn w then ((List.range 256).map (fun (i : Nat) => (i : Int) - 128)).filter (fun b => decide (segLo w ≤ b) && decide (b ≤ segHi w)) else []

/-! ### The monitor (R278) -/

/-- Cosine of k / 256 of a turn, k = 0 to 64, in units of 2^-30. -/
def cosQuarter : List Int :=
  [1073741824, 1073418433, 1072448455, 1070832474, 1068571464, 1065666786, 1062120190, 1057933813,
   1053110176, 1047652185, 1041563127, 1034846671, 1027506862, 1019548121, 1010975242, 1001793390,
   992008094, 981625251, 970651112, 959092290, 946955747, 934248793, 920979082, 907154608,
   892783698, 877875009, 862437520, 846480531, 830013654, 813046808, 795590213, 777654384,
   759250125, 740388522, 721080937, 701339000, 681174602, 660599890, 639627258, 618269338,
   596538995, 574449320, 552013618, 529245404, 506158392, 482766489, 459083786, 435124548,
   410903207, 386434353, 361732726, 336813204, 311690799, 286380643, 260897982, 235258165,
   209476638, 183568930, 157550647, 131437462, 105245103, 78989349, 52686014, 26350943,
   0]

/-- Cosine and sine of k / 256 of a turn, in units of 2^-30. -/
def cosTurn (k : Nat) : Int :=
  let m := k % 256
  if m ≤ 64 then cosQuarter.getD m 0 else if m ≤ 128 then -cosQuarter.getD (128 - m) 0
  else if m ≤ 192 then -cosQuarter.getD (m - 128) 0 else cosQuarter.getD (256 - m) 0
def sinTurn (k : Nat) : Int := cosTurn (k + 192)

/-- The Hann window at sample n of 256, in units of 2^-31. -/
def hann (n : Nat) : Int := 2 ^ 30 - cosTurn n

/-- Bin b of the 256-point transform of a window of samples, real and imaginary part. -/
def binSum (x : List (Int × Int)) (b : Int) : Int × Int :=
  x.zipIdx.foldl (fun (a : Int × Int) s =>
    let k := ((b * s.2) % 256).toNat
    let c := hann s.2 * cosTurn k; let q := hann s.2 * sinTurn k
    (a.1 + s.1.1 * c + s.1.2 * q, a.2 + s.1.2 * c - s.1.1 * q)) (0, 0)

/-- Power of a bin, where a continuous carrier at the nominal amplitude, centred on the bin, has 2^166 (0 dBr). -/
def binPower (x : List (Int × Int)) (b : Int) : Nat :=
  let s := binSum x b
  (s.1 * s.1 + s.2 * s.2).toNat

/-- Whether P(b) + atten / 2 is above (strictly), or at least, e half-dB units. -/
def binAbove (p atten e : Nat) : Bool := decide (2 ^ 3320 * 10 ^ e < p ^ 20 * 10 ^ atten)
def binAtLeast (p atten e : Nat) : Bool := decide (2 ^ 3320 * 10 ^ e ≤ p ^ 20 * 10 ^ atten)

/-- Whether a window of 256 samples violates a mask (R279). -/
def windowViolates (mask : List Nat) (x : List (Int × Int)) : Bool :=
  mask.any (fun w => (segBins w).any (fun b => binAbove (binPower x b) (segAtten w) 0))

/-- EXCESS of a bin over a segment, in whole half-dB units, at most 0xFF (R281). -/
def binExcess (p atten : Nat) : Nat := ((List.range 255).filter (fun e => binAtLeast p atten (e + 1))).length

/-- Greatest excess of a segment over a window. -/
def segExcess (w : Nat) (x : List (Int × Int)) : Nat :=
  (segBins w).foldl (fun m b => max m (binExcess (binPower x b) (segAtten w))) 0

/-- EXCESS, and the first segment with it among those that a window violates (R281). -/
def worstSegment (mask : List Nat) (x : List (Int × Int)) : Nat × Nat :=
  (mask.zipIdx.foldl (fun (best : Option (Nat × Nat)) s =>
    if (segBins s.1).any (fun b => binAbove (binPower x b) (segAtten s.1) 0) then
      let e := segExcess s.1 x
      match best with
      | some y => if y.1 < e then some (e, s.2) else best
      | none => some (e, s.2)
    else best) none).getD (0, 0)

/-- Window k of a stream: 256 consecutive samples, a new window every 128 (R278). -/
def windowOf (x : List (Int × Int)) (k : Nat) : List (Int × Int) := (x.drop (128 * k)).take 256

/-- The stream holds n whole windows, and each violates the mask: a run (R280). -/
def runViolates (mask : List Nat) (x : List (Int × Int)) (n : Nat) : Bool :=
  x.length == 128 * (n + 1) && (List.range n).all (fun k => windowViolates mask (windowOf x k))

/-- Airtime of a stopped stream: µs from the start of the
ramp-up to the end of the ramp-down, the released stream ending before sample m (R277, R280). -/
def maskAirUs (phy ramp m : Nat) : Nat := ramp + (m * 1000000 + phyMonitorRate phy - 1) / phyMonitorRate phy

end Sys2Proof.Machine
end

