-- ==== Sys2Proof/Machine/Tx.lean ====
section
/-! DEFINITION. Transmissions: the buffer pools they hold, their completion, the RF budget and power choice, step 5, the
transmit slot, the stops of a transmission on air, and blanking and coexistence (R197 to R213, R216, R282 to R287, R404 to
R406). -/

namespace Sys2Proof.Machine

/-! ### Buffer pools (R404 to R406) -/

/-- BUF_LOW is signalled when free cells fall below its level, and re-armed 1,024 above it (R406). -/
def Dev.bufSignal (d : Dev) : Dev :=
  let level := d.get F.QSCH_BUF_LOW_LEVEL
  let free := d.get F.QSCH_BUF_FREE_FREE
  if d.sch.lowSent then
    if level + 1024 ≤ free then { d with sch := { d.sch with lowSent := false } } else d
  else if level ≠ 0 ∧ free < level then { d with sch := { d.sch with lowSent := true } }.raise 0x28 8
  else d

/-- The counts of a pool's cells change; FREE and its least value follow. -/
def Dev.setHeld (d : Dev) (down up : Nat) : Dev :=
  let free := 192512 - down - up
  let d1 := (d.put F.QSCH_BUF_HELD_DOWN_CELLS down).put F.QSCH_BUF_HELD_UP_CELLS up
  let d2 := (d1.put F.QSCH_BUF_FREE_FREE free).least F.QSCH_BUF_MIN_FREE free
  { d2 with tab := { d2.tab with telemBufMin := min d2.tab.telemBufMin free } }.bufSignal

def Dev.heldDown (d : Dev) : Nat := d.get F.QSCH_BUF_HELD_DOWN_CELLS
def Dev.heldUp (d : Dev) : Nat := d.get F.QSCH_BUF_HELD_UP_CELLS

/-- Whether n cells are admitted to pool DOWN (true) or UP (R405). -/
def Dev.cellsFit (d : Dev) (down : Bool) (n : Nat) : Bool :=
  let x := if down then d.heldDown else d.heldUp
  let y := if down then d.heldUp else d.heldDown
  let rx := d.get (if down then F.QSCH_BUF_RES_DOWN_CELLS else F.QSCH_BUF_RES_UP_CELLS)
  let ry := d.get (if down then F.QSCH_BUF_RES_UP_CELLS else F.QSCH_BUF_RES_DOWN_CELLS)
  let free := 192512 - d.heldDown - d.heldUp
  decide (x + n ≤ rx) || decide (n + (ry - y) ≤ free)

def Dev.takeCells (d : Dev) (down : Bool) (n : Nat) : Dev :=
  let d1 := d.fillCells 4096 192512 n
  if down then d1.setHeld (d.heldDown + n) d.heldUp else d1.setHeld d.heldDown (d.heldUp + n)
def Dev.freeCells (d : Dev) (down : Bool) (n : Nat) : Dev :=
  if down then d.setHeld (d.heldDown - n) d.heldUp else d.setHeld d.heldDown (d.heldUp - n)

/-- Cells of a frame of n bytes: at least one (R404). -/
def cellsFor (n : Nat) : Nat := max 1 ((n + 255) / 256)

/-! ### The list of transmissions -/

def Dev.tx (d : Dev) (id : Nat) : Option Tx := d.ra.txs.find? (fun t => t.id == id)
def Dev.setTxs (d : Dev) (l : List Tx) : Dev := { d with ra := { d.ra with txs := l } }
def Dev.txUpd (d : Dev) (id : Nat) (f : Tx → Tx) : Dev := d.setTxs (d.ra.txs.map (fun t => if t.id == id then f t else t))
/-- A transmission changes and takes the last place: the list's order is that of arrival at the present step. -/
def Dev.txLast (d : Dev) (id : Nat) (f : Tx → Tx) : Dev :=
  match d.tx id with
  | some t => d.setTxs (d.ra.txs.filter (fun t => t.id != id) ++ [f t])
  | none => d
def Dev.txDrop (d : Dev) (id : Nat) : Dev := d.setTxs (d.ra.txs.filter (fun t => t.id != id))

/-- A transmission of nothing, to fill in. -/
def Tx.blank : Tx :=
  { id := 0, src := .none, kind := .raw, stage := .step2, port := 0, phy := 0, opts := 0, preamble := 0, freq := 0, power := 0,
    cls := 0, flow := 0, measure := 0, airtime := 0, due := 0, latest := 0, notify := false, dest := none, hop := none,
    pan := none, entry := 0, chan := 0, frame := none, bytes := [], key := none, keyBytes := [], level := 0, mode := 0, secured := false,
    timed := false, planned := 0, window := 0, be := 0, nb := 0, rounds := 0, retries := 0, dutyRes := 0, occRes := [], occNext := 0,
    heldNo := 0, vslot := 0, vchan := 0, index := none, load := 0, counted := false, clamped := false, vgen := 0,
    lockWaited := false, denied := false, chain := 0, rampStart := 0, admitT := 0, cells := 0, profile := none,
    filter := [], mask := [], codes := 0, filling := false, pawn := none, dueT := 0, readyT := 0, pkt := 0, sent := false, sentIndex := none, sentAir := 0, anchor := 0 }

/-- A transmission enters the path: it takes the next number. -/
def Dev.txAdd (d : Dev) (t : Tx) : Dev :=
  { d with ra := { d.ra with txs := d.ra.txs ++ [{ t with id := d.ra.nextTx }], nextTx := d.ra.nextTx + 1 } }

/-- Group and sector of a device port (R195, R196). -/
def Tx.group (t : Tx) : Nat := t.port / 8
def portGroup (p : Nat) : Nat := p / 8
def portSector (p : Nat) : Nat := p % 8

/-- A frame is held: it takes the next place in the order of first holding, unless it has one. -/
def Dev.holdTx (d : Dev) (t : Tx) (stage : TxStage) : Dev :=
  if t.heldNo = 0 then
    let n := d.ra.nextHeld + 1
    { d with ra := { d.ra with nextHeld := n } }.txUpd t.id (fun x => { x with stage := stage, heldNo := n })
  else d.txUpd t.id (fun x => { x with stage := stage })

/-- A frame is held for occupancy until a later window of its slot begins; `w` is the window's length in ms (R216). -/
def Dev.holdOcc (d : Dev) (t : Tx) (stage : TxStage) (w : Nat) : Dev :=
  (d.holdTx t stage).txUpd t.id (fun x => { x with occNext := d.monoUs / (w * 1000) + 1 })

/-- Transmissions in some stage, in the order in which they were first held. -/
def Dev.heldList (d : Dev) (stage : TxStage) : List Tx :=
  (d.ra.txs.filter (fun t => t.stage == stage)).foldl
    (fun acc t => acc.takeWhile (fun x => decide (x.heldNo ≤ t.heldNo)) ++ [t]
      ++ acc.dropWhile (fun x => decide (x.heldNo ≤ t.heldNo))) []

/-! ### Ports and chains (R195 to R198) -/

/-- Whether a port is in service (R197). -/
def Dev.inService (d : Dev) (p : Nat) : Bool :=
  d.enabled (0x10 + portGroup p) && bit (d.get (F.RFG_PORT_EN_EN (portGroup p))) (portSector p)

/-- Whether a frequency lies in an enabled range of group g: group 2's ranges are enabled one by one (R197). -/
def Dev.rangeOn (d : Dev) (g f : Nat) : Bool :=
  g != 2 || d.is (if 902000000 ≤ f then F.RFG_PORT_EN_RANGE_2H 2 else F.RFG_PORT_EN_RANGE_2L 2)

/-- The chain, 0 to 8 within its group, that carries a sector's duty (R33, R196). -/
def Dev.chainOf (d : Dev) (p : Nat) : Nat :=
  let g := portGroup p
  if d.is (F.RFG_CHAIN_MAP_CASTLING g) ∧ d.get (F.RFG_CHAIN_MAP_SECTOR g) = portSector p then 8 else portSector p

/-- Device-wide chain number: 8g + s, and 32 + g for the spare (R196). -/
def deviceChain (g c : Nat) : Nat := if c = 8 then 32 + g else 8 * g + c
def chainGroup (k : Nat) : Nat := if k < 32 then k / 8 else k - 32
def chainInGroup (k : Nat) : Nat := if k < 32 then k % 8 else 8

def Dev.chainState (d : Dev) (g c : Nat) : Nat := bits (d.rd (R.RFG_CHAIN_STATE g)) (3 * c + 2) (3 * c)
def Dev.setChainState (d : Dev) (g c v : Nat) : Dev := d.put ⟨R.RFG_CHAIN_STATE g, 3 * c + 2, 3 * c⟩ v
def Dev.txLocked (d : Dev) (g c : Nat) : Bool := bit (d.rd (R.RFG_LOCK g)) c
def Dev.setTxLock (d : Dev) (g c : Nat) (b : Bool) : Dev := d.put ⟨R.RFG_LOCK g, c, c⟩ (b2n b)
def Dev.setRxLock (d : Dev) (g c : Nat) (b : Bool) : Dev := d.put ⟨R.RFG_LOCK g, 16 + c, 16 + c⟩ (b2n b)
def Dev.synthAt (d : Dev) (k : Nat) : Nat := d.ra.synth.getD k 0
def Dev.tune (d : Dev) (k f : Nat) : Dev := { d with ra := { d.ra with synth := setAt d.ra.synth k f } }

/-- The state that a chain with the duty of a port takes by R197 and R198: SLEEP, STBY in IDLE, and in RUN RX, or SYNTH until its
receive LO has locked. -/
def Dev.dutyState (d : Dev) (p : Nat) : Nat :=
  if !d.inService p then 0
  else if d.pw.phase = .run then (if bit (d.rd (R.RFG_LOCK (portGroup p))) (16 + d.chainOf p) then 3 else 2)
  else if d.pw.phase = .idle then 1 else 0

/-- Whether a transmission is on the air of its port: released, or stopped with its ramp-down still to end. -/
def Tx.onPort (t : Tx) : Bool := t.stage == .onAir || t.stage == .rampDown

/-- The transmission in a port's slot, on air included; the one on air; and the one on air or ramping down after a stop. -/
def Dev.slotTx (d : Dev) (p : Nat) : Option Tx := d.ra.txs.find? (fun t => t.port == p && (t.stage == .slot || t.onPort))
def Dev.onAirTx (d : Dev) (p : Nat) : Option Tx := d.ra.txs.find? (fun t => t.port == p && t.stage == .onAir)
def Dev.airTx (d : Dev) (p : Nat) : Option Tx := d.ra.txs.find? (fun t => t.port == p && t.onPort)

/-! ### Blanking (R207 to R210) and coexistence (R211 to R213) -/

/-- A ramp-down of port q ended at most so many core cycles ago. -/
def Dev.rampedWithin (d : Dev) (q cycles : Nat) : Bool :=
  let e := d.ra.rampDown.getD q 0
  e != 0 && decide (d.monoCycles < e + cycles)

/-- Whether port q's transmission blanks its neighbours now: from PRE_US before the planned ramp start, also of a command still in the slot,
until POST_US after the ramp-down ends (R208). -/
def Dev.blanksNeighbours (d : Dev) (q : Nat) : Bool :=
  let g := portGroup q
  (match d.slotTx q with
    | some t => decide (t.planned ≤ d.monoUs + d.get (F.RFG_NBR_BLANK_PRE_US g))
    | none => false)
    || d.rampedWithin q (400 * d.get (F.RFG_NBR_BLANK_POST_US g))

/-- A group's samples are blanked from outside now (R209). -/
def Dev.blankedOutside (d : Dev) (g : Nat) : Bool := d.ra.blankExt.getD g false || d.ra.blankTail.getD g false

/-- Whether a port's receiver is blanked: its chain has left for TX, or its ramp-down ended less than 5 µs ago (R207); a neighbour of
the configured offsets transmits (R208); or its group is blanked from outside (R209). -/
def Dev.portBlanked (d : Dev) (p : Nat) : Bool :=
  let g := portGroup p
  (d.airTx p).isSome || d.rampedWithin p 2000
    || (List.range 8).any (fun k => k != 0 && bit (d.rd (R.RFG_NBR_BLANK g)) k
        && d.blanksNeighbours (8 * g + (portSector p + 8 - k) % 8))
    || d.blankedOutside g

/-- A port of a frame in reception has samples of weight 0; with `forever`, from now on (R259, R261, R264). -/
def Ctx.loses (c : Ctx) (forever : Bool) (hit : Nat → Bool) : Ctx :=
  if c.latch.isSome && c.members.any (fun m => hit m.1) then
    { c with blanked := true, lost := if forever then c.lost ++ ((c.members.map (fun m => m.1)).filter hit) else c.lost }
  else c

/-- Frames in reception on a port that is blanked now have samples of weight 0, a combined one from now on (R259, R261, R264). It is looked at
when a transmission is released and when one has left the air, when blanking from outside changes, and when the frame is decided. -/
def Dev.markBlanked (d : Dev) : Dev :=
  { d with rx := { d.rx with ctxs := d.rx.ctxs.map (fun (c : Ctx) => c.loses c.combined d.portBlanked) } }

/-- Frames in reception of which a port's stream is lost from now on have weight 0 for it (R261). -/
def Dev.markLost (d : Dev) (p : Nat) : Dev :=
  { d with rx := { d.rx with ctxs := d.rx.ctxs.map (fun (c : Ctx) => c.loses true (fun q => q == p)) } }

/-- BLANK_g is high and honoured (R209). -/
def Dev.blankActive (d : Dev) (g : Nat) : Bool := d.pins.blank.getLsbD g && bit (d.get F.COEX_BLANK_CFG_EN) g

/-- After a change of BLANK_g or EN: each start raises BLANK_EXT, each end begins the extension (R209). -/
def Dev.blankUpdate (d : Dev) : Dev :=
  ((List.range 4).foldl (fun (x : Dev) g =>
    let now := x.blankActive g
    if now && !x.ra.blankExt.getD g false then
      { x with ra := { x.ra with blankExt := setAt x.ra.blankExt g true, blankTail := setAt x.ra.blankTail g false } }.raise (0x10 + g) 3
    else if !now && x.ra.blankExt.getD g false then
      { x with ra := { x.ra with blankExt := setAt x.ra.blankExt g false,
                                 blankTail := setAt x.ra.blankTail g (decide (0 < x.get F.COEX_BLANK_CFG_EXT_US)) } }
    else x) d).markBlanked

/-- A covered transmission (R211). -/
def Dev.covered (d : Dev) (t : Tx) : Bool := d.enabled 0x0A && bit (d.get F.COEX_CFG_GROUPS) t.group

/-- COEX_REQ: a covered transmission is due in its slot or on air (R211). -/
def Dev.coexReq (d : Dev) : Bool :=
  d.ra.txs.any (fun t => d.covered t && (t.onPort || (t.stage == .slot && t.filling)))

/-- COEX_PRI: one of them has a class of at least PRI_CLASS, or is an acknowledgment or beacon with PRI_CTRL (R211). -/
def Dev.coexPri (d : Dev) : Bool :=
  d.ra.txs.any (fun t => d.covered t && (t.onPort || (t.stage == .slot && t.filling)) &&
    (decide (d.get F.COEX_CFG_PRI_CLASS ≤ t.cls) || (d.is F.COEX_CFG_PRI_CTRL && (t.kind == .ack || t.kind == .beacon))))

/-! ### The RF budget and power (R203 to R206) -/

/-- Load counted now, mW: of transmissions, and of calibration steps (R206, R227). -/
def Dev.rfLoad (d : Dev) : Nat :=
  ((d.ra.txs.filter (fun t => t.counted)).map (fun t => t.load)).sum + (d.cal.map (fun c => c.load)).sum

/-- ⌈10^(out / 40)⌉: the least W with W^40 ≥ 10^out (R206). -/
def loadMw (out : Int) : Nat :=
  if out < 0 then 1
  else
    let n := 10 ^ out.toNat
    (List.range 45).foldl (fun r b => let r' := r + 2 ^ (44 - b); if r' ^ 40 < n then r' else r) 0 + 1

/-- The power-table entry of a port. -/
def ptKey (g s i : Nat) : Nat := R.RFG_PT_DATA g + 2 ^ 20 * (s * 64 + i + 1)
def Dev.ptWord (d : Dev) (p i : Nat) : Nat := d.rd (ptKey (portGroup p) (portSector p) i)
def ptValid (w : Nat) : Bool := bit w 15
def ptOut (w : Nat) : Int := toSigned 10 (bits w 9 0)

/-- A trim in force of a group's chain, by its key: as measured, or a free value of start-up calibration (R224, R229). -/
def Dev.trim (d : Dev) (g key : Nat) : Nat :=
  ((d.calg g).trims.find? (fun x => x.1 == key)).elim (Config.freeByte (d.calg g).trimSeed key).toNat (fun x => x.2)

/-- BIAS and GAIN codes with which the chain that carries a port realises entry i at a frequency (R203, R224, R226): the port's own, or the
spare's for its sector, and in range 2H with the chain's gain-code offset of the entry added (DESIGN CHOICE, log entry 133). -/
def Dev.entryCodes (d : Dev) (p i f : Nat) : Nat :=
  let g := portGroup p
  let c := d.chainOf p
  let w := (if c = 8 then d.spareWord g (portSector p) i else d.ptWord p i) / 2 ^ 16
  if g = 2 ∧ 902000000 ≤ f then
    w / 256 * 256 + (w % 256 + d.trim g (1000 * c + 100 + (if c = 8 then 64 * portSector p + i else i))) % 256
  else w

/-- The VALID entry with the greatest OUT not above a target, lowest index first (R205). -/
def Dev.chooseIndex (d : Dev) (p : Nat) (target : Int) : Option Nat :=
  ((List.range 64).foldl (fun (best : Option (Nat × Int)) i =>
    let w := d.ptWord p i
    if ptValid w && decide (ptOut w ≤ target) then
      match best with
      | some b => if b.2 < ptOut w then some (i, ptOut w) else best
      | none => some (i, ptOut w)
    else best) none).map (fun b => b.1)

/-- The power limit L (R204). -/
def Dev.powerLimit (d : Dev) (p : Nat) (r : SlotRec) : Int :=
  min (min r.maxCond (r.radMax - r.gain)) (min (hwMax (portGroup p)) (d.ra.derate.getD (portGroup p) 120))

/-- Counts a transmission against the budget, if it fits (R206). -/
def Dev.countLoad (d : Dev) (t : Tx) : Dev :=
  let d1 := d.txUpd t.id (fun x => { x with counted := true, stage := .granted })
  let d2 := d1.peak F.VAULT_RF_LOAD_PEAK_MW d1.rfLoad
  { d2 with tab := { d2.tab with telemRf := max d2.tab.telemRf d2.rfLoad } }

def Dev.fitsBudget (d : Dev) (w : Nat) : Bool := decide (d.rfLoad + w ≤ d.get F.VAULT_RF_LIMIT_LIMIT_MW)

/-- Held commands are checked again, in the order in which they were first held (R206). While grants are refused (R90), or TXP is
disabled (R284), one that fits goes back to step 5, where it is refused. -/
def Dev.recheckBudget (d : Dev) : Dev :=
  (d.heldList .budgetHeld).foldl (fun x t =>
    if x.fitsBudget t.load then
      if x.is F.CLK_STAT_TX_HELD || !x.enabled 0x16 then x.txUpd t.id (fun (y : Tx) => { y with stage := .step5 }) else x.countLoad t
    else x) d

/-! ### Occupancy windows (R216) -/

/-- The parts of an interval, in monotonic µs, in windows of w µs: window number and µs. -/
def occParts (start air w : Nat) : List (Nat × Nat) :=
  if w = 0 then []
  else (List.range (air / w + 2)).map (fun i =>
      let n := start / w + i
      (n, min (start + air) ((n + 1) * w) - max start (n * w))) |>.filter (fun x => x.2 != 0)

/-- Airtime counted or reserved in a window of a slot's channel, other than by one transmission. -/
def Dev.occUsed (d : Dev) (s ch n self : Nat) : Nat :=
  ((d.ra.occ.filter (fun o => o.vslot == s && o.chan == ch && o.window == n)).map (fun o => o.us)).sum
    + ((d.ra.txs.filter (fun t => t.id != self && t.vslot == s && t.vchan == ch)).map
        (fun t => ((t.occRes.filter (fun x => x.1 == n)).map (fun x => x.2)).sum)).sum

/-- Whether a transmission passes the occupancy check, with the parts it would reserve. -/
def Dev.occCheck (d : Dev) (r : SlotRec) (s ch start air self : Nat) : Bool × List (Nat × Nat) :=
  if r.occMax = 0 then (true, [])
  else
    let parts := occParts start air (r.occWindow * 1000)
    (parts.all (fun x => decide (d.occUsed s ch x.1 self + x.2 ≤ r.occMax)), parts)

/-- Actual airtime counted in the windows where it lay. -/
def Dev.occCount (d : Dev) (t : Tx) (start air : Nat) : Dev :=
  match d.slotInForce t.vslot with
  | none => d
  | some r =>
    if r.occMax = 0 then d
    else
      let add := (occParts start air (r.occWindow * 1000)).map (fun x => (OccBin.mk t.vslot t.vchan x.1 x.2))
      { d with ra := { d.ra with occ := d.ra.occ ++ add } }

/-! ### Completion (R286) -/

/-- RESULT of a transmit completion (R286). -/
def txResult (cause : Nat) (index chain : Option Nat) (air ramp : Nat) : List Byte :=
  beBytes 1 cause ++ beBytes 1 (index.getD 0xFF) ++ beBytes 1 (chain.getD 0xFF) ++ beBytes 1 0 ++ beBytes 4 air ++ beBytes 8 ramp

/-- A VAULT completion updates VAULT.REFUSE (R216, R223). -/
def Dev.vaultRefuse (d : Dev) (slot : Option Nat) (cause : Nat) : Dev :=
  ((d.bump F.VAULT_REFUSE_COUNT 1).put F.VAULT_REFUSE_LAST_SLOT (slot.getD 0xFF)).put F.VAULT_REFUSE_LAST_CAUSE cause

/-- Time into TX from the chain's state, in ns: 30 µs from SYNTH, 40 µs from RX, and the coexistence lead (R198, R200, R211). -/
def Dev.turnaroundNs (d : Dev) (t : Tx) : Nat :=
  (if d.chainState t.group (d.chainOf t.port) = 2 then 30000 else 40000) + (if d.covered t then 50000 else 0)

/-- Whether the chain that carries a frame's port is locked on the frame's channel (R200). -/
def Dev.tunedFor (d : Dev) (t : Tx) : Bool :=
  let c := d.chainOf t.port
  decide (d.synthAt (deviceChain t.group c) = t.freq) && d.txLocked t.group c

/-- The earliest moment, in monotonic µs, at which R200 can release a frame: after any retune of 45 µs and the turnaround, and one
delay-line time from now unless the delay line fills already (R283). -/
def Dev.earliestUs (d : Dev) (t : Tx) : Nat :=
  let ready := (if d.tunedFor t then 0 else 45) + (d.turnaroundNs t + 999) / 1000
  d.monoUs + (if t.filling then ready else max ready (phyDelayLine t.phy))

/-- Planned ramp start, in monotonic µs: the later of DUE (or the planned start of a timed frame) and the earliest moment (R283). -/
def Dev.planUs (d : Dev) (t : Tx) : Nat :=
  let dueUs := if t.timed then t.planned else if t.due ≤ d.sysNs then 0 else d.monoUs + (t.due - d.sysNs + 999) / 1000
  max dueUs (d.earliestUs t)

/-- A retune of the chain that carries a frame's port starts, unless it is on the frame's channel; waiting for lock is counted once
per command (R199, R200). -/
def Dev.slotTune (d : Dev) (t : Tx) : Dev :=
  let c := d.chainOf t.port
  let k := deviceChain t.group c
  let d1 := if d.synthAt k = t.freq then d else (d.tune k t.freq).setTxLock t.group c false
  let d2 := if !d.tunedFor t && !t.lockWaited then d1.bump (F.RFG_TX_CNT_LOCK_WAITS t.group) 1 else d1
  d2.txUpd t.id (fun x => { x with chain := k, lockWaited := x.lockWaited || !d.tunedFor t })

/-- Why a port takes no command: cause 5 out of service, lost, or in a range that is off; 2 with its PA stopped (R197, R202, R241). -/
def Dev.slotRefuses (d : Dev) (t : Tx) : Option Nat :=
  if !d.inService t.port || d.portLost t.port || !d.rangeOn t.group t.freq then some 5
  else if bit (d.get (F.RFG_PORT_FAULT_PA t.group)) (portSector t.port) then some 2
  else none

/-- A command takes its port's slot: it is planned, and any retune starts (R199, R200, R283). -/
def Dev.slotPlan (d : Dev) (t : Tx) : Dev :=
  (d.slotTune t).txUpd t.id (fun x => { x with stage := .slot, denied := false, planned := d.planUs t })

/-- SYSTIME has stepped, and with it the DUE of the commands that wait in a slot (R285, R454): each is planned again, where its delay line fills
already no earlier than before. A timed frame keeps its window in monotonic time. -/
def Dev.dueMoved (d : Dev) : Dev :=
  let dueUs := fun (t : Tx) => if t.due ≤ d.sysNs then 0 else d.monoUs + (t.due - d.sysNs + 999) / 1000
  { d with ra := { d.ra with txs := d.ra.txs.map (fun (t : Tx) =>
      if t.stage = .slot ∧ t.timed = false ∧ t.due ≠ 0 then
        { t with planned := max (dueUs t) (if t.filling then t.planned else min t.planned (d.earliestUs t)) }
      else t) } }

/-- An acknowledgment or Association Response that is not sent (R295, R319). -/
def Dev.ackMissed (d : Dev) (g : Nat) : Dev :=
  ((d.bump (F.MAC_COUNT_ACK_MISSED g) 1).evt (ev 3 (8 + g)) 1).raise (0x18 + g) 8

/-- An Association Response has been sent: its status is counted (R294, R328). -/
def Dev.assocSent (d : Dev) (t : Tx) : Dev :=
  match t.frame with
  | some f => d.bump (if f.payload.getD 2 0 == 0 then F.MAC_ASSOC_STAT_GRANTED t.group else F.MAC_ASSOC_STAT_DENIED t.group) 1
  | none => d

/-- A pawn frame has ended (R504, R508): a chain's SETUP starts the retry wait, and a BLOCK that was sent is counted. -/
def Dev.pawnEnded (d : Dev) (t : Tx) (sent : Bool) : Dev :=
  let block := match t.frame with
    | some f => f.payload.getD 1 0 == 1
    | none => false
  let d1 := if block then d else
    { d with pn := { d.pn with chains := d.pn.chains.map (fun (c : Chain) =>
        if t.pawn = some (c.image, c.number) then { c with waited := 0 } else c) } }
  if block && sent then d1.bump F.PAWN_COUNT_BLOCKS 1 else d1

/-- What a kind of frame counts at the completion of its transmission: beacons, acknowledgments, Association Responses, relays and pawn blocks,
sent in full or not. -/
def Dev.txCounted (d : Dev) (t : Tx) (code : Nat) (emitted : Bool) : Dev :=
  match t.kind with
    | .beacon =>
      if emitted ∧ code = 0 then (d.bump (F.MAC_BEACON_STAT_SENT t.group) 1).evt (ev 3 (12 + t.group)) 1
      else if emitted then d
      else (d.bump (F.MAC_BEACON_STAT_SKIPPED t.group) 1).raise (0x18 + t.group) 5
    | .ack => if emitted ∧ code = 0 then (d.bump (F.MAC_COUNT_ACK_SENT t.group) 1).evt (ev 3 (4 + t.group)) 1
              else d.ackMissed t.group
    | .assocResp => if emitted ∧ code = 0 then d.assocSent t else if emitted then d else d.ackMissed t.group
    | .flood => if emitted ∧ code = 0 then (d.bump F.SHEET_COUNT_B_RELAYED 1).evt (ev 5 2) 1 else d
    | .pawn => d.pawnEnded t (emitted && code == 0)
    | _ => d

/-- A transmission completes: its cells, its reservations and its load are released, its airtime is counted if it was emitted,
and its command completes (R206, R216, R286, R313, R404). `air` is its actual airtime. A frame that waited for its
acknowledgment has had its airtime counted when it ended. -/
def Dev.txComplete (d : Dev) (t : Tx) (code cause : Nat) (emitted : Bool) (air : Nat) : Dev :=
  let d1 := (d.txDrop t.id)
  let d2 := if t.cells = 0 then d1 else d1.freeCells true t.cells
  let d3 := if emitted ∧ t.stage = .onAir then
      (({ d2 with ra := { d2.ra with dutyEnded := setAt d2.ra.dutyEnded t.vslot (d2.ra.dutyEnded.getD t.vslot 0 + air) } }).occCount t
        t.planned air)
    else d2
  let d4 := d3.finish t.src code
    (if emitted then txResult cause t.index (some t.chain) air t.rampStart
     else if t.sent then txResult cause t.sentIndex (some t.chain) t.sentAir t.rampStart
     else txResult cause t.index none 0 0)
  let d5 := if t.notify then d4.raise 0x16 0 else d4
  let d6 := match t.kind, t.dest with
    | .release, some h => d5.removeEntry h
    | _, _ => d5
  d6.txCounted t code emitted

/-- A frame displaced by a fixed-instant frame returns to the slot, to be planned again, or completes where the port takes none
(R200, R202). -/
def Dev.restoreSlot (d : Dev) (p : Nat) : Dev :=
  if (d.slotTx p).isSome then d
  else match d.ra.txs.find? (fun t => t.port == p && t.stage == .displaced) with
    | some t => match d.slotRefuses t with
      | some cause => d.txComplete t 0x03 cause false 0
      | none => d.slotPlan { t with filling := false }
    | none => d

/-- A transmission is over: its slot goes to a displaced command, and its load to held ones (R200, R206). -/
def Dev.txFinish (d : Dev) (t : Tx) (code cause : Nat) (emitted : Bool) (air : Nat) : Dev :=
  ((d.txComplete t code cause emitted air).restoreSlot t.port).recheckBudget

/-- LATE at release or in a wait (R200): TX_LATE is raised. -/
def Dev.txLate (d : Dev) (t : Tx) : Dev := ((d.evt (ev 2 5) 1).raise 0x16 2).txFinish t 0x0F 8 false 0

/-- The cause of a passed latest start is that of the wait in which the frame stood (R310, R313, R317). -/
def Dev.txLatestPassed (d : Dev) (t : Tx) : Dev :=
  match t.stage with
  | .awaitNode => d.txFinish t 0x0F 13 false 0
  | .dutyHeld | .occHeld | .occHeld5 => d.txFinish t 0x0F 12 false 0
  | _ => d.txLate t

/-! ### Step 5 (R204 to R206, R216, R344, R345) -/

/-- Secures a frame (R344, R345): the Bool says that it is secured, or needs no securing; the other that it waits. -/
def Dev.secureTx (d : Dev) (t : Tx) : Dev × Bool × Bool :=
  let (k, mode, level) := d.securing t
  if t.secured ∨ level = 0 then (d, true, false)
  else match k with
    | none => (d, false, false)
    | some s =>
      match d.takeCounter s level with
      | (d1, .refuse) => (d1, false, false)
      | (d1, .wait) => (d1.txUpd t.id (fun x => { x with stage := .fcntWait, key := some s }), false, true)
      | (d1, .take c) =>
        let idx := ((d1.keySlot s).map (fun x => x.index)).getD 0
        let part := match t.frame with
          | some f =>
            let g := { f with sec := some ⟨level, mode, idx, c, true⟩ }
            ccmParts level g.openPart.length g.closedPart.length
          | none => (0, 0)
        ((d1.engine (t.kind == .ack) level part.1 part.2).txUpd t.id (fun x => { x with
          secured := true, key := some s, keyBytes := ((d1.keySlot s).map (fun y => y.key)).getD [], level := level, mode := mode,
          frame := x.frame.map (fun f => { f with sec := some ⟨level, mode, idx, c, true⟩ }) }), true, false)

/-- Frames that reached step 5 before one of the same key, on any port, take their counters first (R345). -/
def Dev.secureAhead (d : Dev) (t : Tx) : Dev :=
  let s := d.securing t
  if t.secured ∨ s.2.2 = 0 then d
  else
    let ahead := (d.ra.txs.takeWhile (fun x => x.id != t.id)).filter (fun x =>
      x.stage == .step5 && !x.secured && (d.securing x).1 == s.1 && (d.securing x).2.2 != 0)
    ahead.foldl (fun (y : Dev) x =>
      let r := y.secureTx x
      if r.2.2 && (x.kind == .ack || x.kind == .assocResp) then r.1.txUpd x.id (fun z => { z with stage := .step5 }) else r.1) d

/-- The power part of step 5, and of a recheck at release (R205): limit, chosen entry, clamping; none where no entry fits. -/
def Dev.powerStep (d : Dev) (t : Tx) (r : SlotRec) : Option (Nat × Bool) :=
  let l := d.powerLimit t.port r
  (d.chooseIndex t.port (min t.power l)).map (fun i => (i, decide (l < t.power)))

/-- A frame that passed the vault's checks meets the budget of R206; the clamp of one that goes on, or is held, is counted (R205). -/
def Dev.budgetStep (d : Dev) (t : Tx) (w : Nat) (clamp fixed : Bool) : Dev :=
  let d1 := if clamp then d.bump F.VAULT_HELD_CLAMPED 1 else d
  if d.is F.CLK_STAT_TX_HELD then d.txFinish t 0x03 0 false 0
  else if d.fitsBudget w then d1.countLoad t
  else if fixed then d.txFinish t 0x07 8 false 0
  else (d1.bump F.VAULT_HELD_BUDGET 1).holdTx t .budgetHeld

/-- The vault's dwell and occupancy checks, once a power step is chosen (R216). -/
def Dev.dwellStep (d : Dev) (t : Tx) (r : SlotRec) (n s ch i : Nat) (clamp fixed : Bool) : Dev :=
  if r.dwellMax ≠ 0 ∧ r.dwellMax < t.airtime then
    (d.vaultRefuse (some s) 3).txFinish { t with index := some i } 0x0E 7 false 0
  else
    let start := if fixed then t.planned else d.planUs t
    let occ := d.occCheck r s ch start t.airtime t.id
    if !occ.1 then
      if fixed then d.txFinish t 0x0F 12 false 0
      else ((d.txUpd t.id (fun x => { x with vslot := s })).raise (0x18 + t.group) 0).holdOcc t .occHeld5 r.occWindow
    else
      let w := loadMw (ptOut (d.ptWord t.port i))
      (d.txUpd t.id (fun x => { x with vslot := s, vchan := ch, index := some i, load := w, vgen := n,
                                       clamped := clamp, planned := start, occRes := occ.2 })).budgetStep t w clamp fixed

/-- A power step is chosen for a frame within a slot's channel (R205). -/
def Dev.powerChoice (d : Dev) (t : Tx) (r : SlotRec) (n s ch : Nat) (fixed : Bool) : Dev :=
  match d.powerStep t r with
  | none => (d.vaultRefuse (some s) 2).txFinish t 0x0E 7 false 0
  | some x => d.dwellStep t r n s ch x.1 x.2 fixed

/-- A frame on a channel of a slot: the slot must be enabled and the channel fit (R205). -/
def Dev.chanStep (d : Dev) (t : Tx) (r : SlotRec) (n s ch : Nat) (fixed : Bool) : Dev :=
  if !r.enabled || !r.fits t.freq (phyBandwidth t.phy) then (d.vaultRefuse (some s) 1).txFinish t 0x0E 7 false 0
  else d.powerChoice t r n s ch fixed

/-- A frame whose frequency lies in slot s of the generation in force (R205). -/
def Dev.slotStep (d : Dev) (t : Tx) (r : SlotRec) (n s : Nat) (fixed : Bool) : Dev :=
  match r.channel t.freq with
  | none => (d.vaultRefuse (some s) 1).txFinish t 0x0E 7 false 0
  | some ch => d.chanStep t r n s ch fixed

/-- The slot of a frame's frequency in the generation in force (R205). -/
def Dev.vaultFind (d : Dev) (t : Tx) (n : Nat) (fixed : Bool) : Dev :=
  match d.slotFor t.group t.freq with
  | none => (d.vaultRefuse none 1).txFinish t 0x0E 7 false 0
  | some s => d.slotStep t (d.slotRec n s) n s fixed

/-- The vault and budget checks of step 5, for a secured frame. A fixed-instant frame that would be held is missed instead
(R205, R206, R216, R295, R319). -/
def Dev.vaultStep (d : Dev) (t : Tx) : Dev :=
  match d.ra.vault.inForce with
  | none => (d.vaultRefuse none 4).txFinish t 0x0E 7 false 0
  | some n => d.vaultFind t n (t.kind == .ack || t.kind == .assocResp)

/-- STEP5_CHECK for one frame (R284, R345, then the vault). -/
def Dev.step5 (d : Dev) (t : Tx) : Dev :=
  if !d.enabled 0x16 then d.txFinish t 0x03 6 false 0
  else
    let (d1, ok, wait) := (d.secureAhead t).secureTx t
    if wait then d1
    else if !ok then d1.txFinish t 0x07 14 false 0
    else match d1.tx t.id with
      | some t1 => d1.vaultStep t1
      | none => d1

/-- Frames that wait for a key's counters proceed, in order (R347). -/
def Dev.wakeFcnt (d : Dev) (s : Nat) : Dev :=
  (d.ra.txs.filter (fun t => t.stage == .fcntWait && t.key == some s)).foldl (fun x t => x.step5 { t with stage := .step5 }) d

/-! ### The transmit slot (R200) -/

/-- A voted command enters its port's slot, or completes where the port takes none (R197, R200, R202). -/
def Dev.slotEnter (d : Dev) (t : Tx) : Dev :=
  match d.slotRefuses t with
  | some cause => d.txFinish t 0x03 cause false 0
  | none => d.slotPlan t

/-- Octets of FCS that a frame of some OPTS carries. -/
def fcsLen (phy opts : Nat) : Nat := if isSun phy && bit opts 1 then 4 else 2

/-- PSDU octets of a transmission: a TX_RAW's bytes with any generated FCS or CRCs; otherwise those of its MAC frame with the
security it has, or will have. -/
def Dev.txPsdu (d : Dev) (t : Tx) : Nat :=
  match t.frame with
  | none => t.bytes.length + (if bit t.opts 0 then (if isModeN t.phy then modeNCrc (bit t.opts 5) t.bytes.length else fcsLen t.phy t.opts)
      else 0)
  | some f =>
    if t.kind = .ack then framePsdu f t.level t.mode 2
    else if t.secured then framePsdu f t.level t.mode (fcsLen t.phy t.opts)
    else
      let (_, mode, level) := d.securing t
      framePsdu f level mode (fcsLen t.phy t.opts)

/-- The octets of a transmission's PSDU, with its FCS; of a mode N frame, its blocks with their CRCs. TX_RAW sends what the host supplies,
with FCS or CRCs only where FCS_GEN asks for them (R285). An acknowledgment has the 2-octet FCS. -/
def Dev.psduOctets (d : Dev) (t : Tx) : List Byte :=
  match t.frame with
  | none =>
    if !bit t.opts 0 then t.bytes
    else if isModeN t.phy then withBlockCrcs (blockLens (bit t.opts 5) t.bytes.length) t.bytes
    else t.bytes ++ fcsOf (isSun t.phy && bit t.opts 1) t.bytes
  | some f =>
    let o := f.octets t.keyBytes
    o ++ fcsOf (isSun t.phy && bit t.opts 1 && t.kind != .ack) o

/-- The modulator of a port starts for a frame: the delay line fills, with the profile, filter set and mask set in force, and the
airtime is that of its ramps (R277, R282, R283). What another frame of the port left in the delay line is gone. -/
def Dev.modulatorStart (d : Dev) (t : Tx) : Dev :=
  let g := t.group
  let w := d.profile g t.phy
  let filter := if bits w 3 0 = 0xF then builtinFilter t.phy
    else (List.range 64).map (fun i => toSigned 18 (d.rd (setKey 0 g (bits w 3 0) i)))
  let mask := if bits w 7 4 = 0xF then builtinMask t.phy else (List.range 16).map (fun i => d.rd (setKey 1 g (bits w 7 4) i))
  d.setTxs (d.ra.txs.map (fun (x : Tx) =>
    if x.id == t.id then
      { x with filling := true, denied := false, profile := some w, filter := filter, mask := mask,
               airtime := airtimeUs x.phy x.opts x.preamble (d.txPsdu x) (profRamp w) }
    else if x.port == t.port && !x.onPort then { x with filling := false } else x))

/-- What a release finds on the air and at COEX_GRANT: by sector of the port's group the channel power in the frame's bandwidth, in 0.25 dB units
at the ball, averaged over the LBT_TIME µs that end at the release instant with the samples blanked by R207 and R208 left out (none where
every sample is left out), and the grant high throughout. -/
structure AirSense where
  power : List (Option Int)
  grant : Bool

/-- Ports on which the channel is measured (R315). -/
def Dev.sensePorts (d : Dev) (t : Tx) : List Nat :=
  if d.is (F.MAC_LBT_SENSE_ALL t.group) then (List.range 8).map (fun k => 8 * t.group + k) |>.filter d.inService else [t.port]

/-- The channel of a frame for a slot is busy (R315): samples were blanked from outside, or on some port that is measured the power exceeds
the threshold or every sample was left out (one busy port of several: DEDUCED, log entry 131). -/
def Dev.airBusy (d : Dev) (t : Tx) (r : SlotRec) (power : List (Option Int)) : Bool :=
  d.blankedOutside t.group || (d.sensePorts t).any (fun p => match power.getD (portSector p) none with
    | some x => decide (r.busyAbove < x)
    | none => true)

/-- The command is released, and its ramp starts so many ns later: it is on air (R200). A modulator whose delay line is shorter than
that starts within it. The frame leaves as its bits. -/
def Dev.rampStart (d : Dev) (t : Tx) (lead : Nat) : Dev :=
  let g := t.group
  let c := d.chainOf t.port
  let d0 := if t.filling then d else d.modulatorStart t
  let d1 := d0.txUpd t.id (fun x => { x with
    stage := .onAir, chain := deviceChain g c, rampStart := d.sysNs + lead, filling := true,
    codes := d.entryCodes t.port (x.index.getD 0) t.freq, planned := (d.monoCycles * 5 + 2 * lead + 1000) / 2000 })
  let d2 := (((d1.setChainState g c 4).bump (F.TXP_ONAIR_COUNT g) 1).evt (ev 2 g) 1).markBlanked
  d2.emit (.air t.port (deviceChain g c) t.freq (airBits t.phy t.opts t.preamble (d.psduOctets t)) (((d0.tx t.id).map (fun x => x.filter)).getD []))

/-- A failed round of listen-before-talk (R316): reservations and load are released. -/
def Dev.lbtRoundFail (d : Dev) (t : Tx) : Dev :=
  let g := t.group
  let d1 := (d.bump (F.MAC_COUNT_LBT_FAIL g) 1).raise (0x18 + g) 1
  if d.get (F.MAC_LBT_MAX_ROUNDS g) ≤ t.rounds + 1 then
    (if t.kind = .beacon ∨ t.kind = .flood then d1.txFinish { t with src := .none } 0x06 9 false 0 else d1.txFinish t 0x06 9 false 0)
  else
    ((d1.txUpd t.id (fun x => { x with stage := .newRound, rounds := x.rounds + 1, nb := 0, dutyRes := 0, occRes := [], occNext := 0, readyT := d1.tempo + 1,
                                       counted := false, filling := false })).restoreSlot t.port).recheckBudget

/-- A busy channel: a further backoff, with what the delay line holds, or the round fails (R283, R315). -/
def Dev.lbtBusy (d : Dev) (t : Tx) : Dev :=
  let g := t.group
  let d1 := (d.bump (F.MAC_COUNT_LBT_BUSY g) 1).evt (ev 3 g) 1
  if d.get (F.MAC_LBT_MAX_BACKOFFS g) < t.nb + 1 then d1.lbtRoundFail { t with nb := t.nb + 1 }
  else (d1.txUpd t.id (fun x => { x with stage := .backoff, nb := x.nb + 1,
                                         be := min (x.be + 1) (d.get (F.MAC_LBT_MAX_BE g)) })).restoreSlot t.port

/-- Release of the command in a slot (R200, R212, R315): latest start, then the vault again if a commit took effect since
step 5 (the slot's enable and the channel with the power: DESIGN CHOICE, log entry 129), then the channel, then the grant, then the ramp, so many ns after the release. -/
def Dev.release (d : Dev) (t : Tx) (a : AirSense) (lead : Nat) : Dev :=
  if t.latest ≠ 0 ∧ t.latest < d.sysNs + lead then d.txLate t
  else
    let rec2 : Option (Option (Nat × Bool)) := match d.ra.vault.inForce with
      | some n =>
        if n = t.vgen then none
        else match d.slotFor t.group t.freq with
          | some s =>
            let r := d.slotRec n s
            if r.enabled ∧ (r.channel t.freq).isSome ∧ r.fits t.freq (phyBandwidth t.phy) = true then some (d.powerStep t r)
            else some none
          | none => some none
      | none => some none
    let chanOk := match d.ra.vault.inForce, d.slotFor t.group t.freq with
      | some n, some s =>
        let r := d.slotRec n s
        r.enabled && (r.channel t.freq).isSome && r.fits t.freq (phyBandwidth t.phy)
      | _, _ => false
    match rec2 with
    | some none => (d.vaultRefuse (d.slotFor t.group t.freq) (if chanOk then 2 else 1)).txFinish t 0x0E 7 false 0
    | _ =>
      let t1 := match rec2 with
        | some (some (i, cl)) => { t with index := some i, clamped := cl, load := loadMw (ptOut (d.ptWord t.port i)) }
        | _ => t
      let d0 := if t1.clamped && !t.clamped then d.bump F.VAULT_HELD_CLAMPED 1 else d
      let d1 := d0.txUpd t.id (fun x => { x with index := t1.index, clamped := t1.clamped, load := t1.load })
      let busy := match d1.slotInForce t.vslot with
        | some r => r.lbtEn && t.kind != TxKind.ack && d1.airBusy t1 r a.power
        | none => false
      if busy then d1.lbtBusy t1
      else if d1.covered t1 && !a.grant then
        let d2 := (d1.bump F.COEX_COUNT_DENIED 1).raise 0x0A 0
        if t.kind = TxKind.ack ∨ t.kind = TxKind.assocResp then d2.txFinish t1 0x03 4 false 0
        else d2.txUpd t.id (fun x => { x with denied := true, filling := false,
                                              planned := max x.planned (d.monoUs + phyDelayLine x.phy) })
      else d1.rampStart t1 lead

/-! ### The end of a transmission -/

/-- Actual airtime of a transmission stopped now: from its ramp start to the end of its ramp-down, rounded up (R277). -/
def Dev.stoppedAir (d : Dev) (t : Tx) : Nat :=
  (d.sysNs - t.rampStart + 999) / 1000 + profRamp (t.profile.getD 0)

/-- The chain of an ended transmission returns to RX, or to its R197 state (R198); the instant is kept for blanking (R207, R208). -/
def Dev.chainBack (d : Dev) (t : Tx) : Dev :=
  let g := t.group
  let c := chainInGroup t.chain
  let d0 := d.markBlanked
  let d1 := { d0 with ra := { d0.ra with rampDown := setAt d.ra.rampDown t.port d.monoCycles } }
  if d1.chainState g c = 4 then d1.setChainState g c (d1.dutyState t.port) else d1

/-- What is left of a stopped and completed transmission until its ramp-down ends: its load, its chain and its port (R206, R287). -/
def Tx.remains (t : Tx) : Tx :=
  { Tx.blank with
    id := t.id, kind := t.kind, stage := .rampDown, port := t.port, phy := t.phy, freq := t.freq, cls := t.cls, chain := t.chain, load := t.load,
    counted := t.counted, planned := t.planned, rampStart := t.rampStart, profile := t.profile }

/-- A transmission on air is stopped with a cause 1 to 5: its command completes with its actual airtime, and its ramp-down begins
(R280, R287); TXP.ABORT records causes 1 to 4. -/
def Dev.txStopAt (d : Dev) (t : Tx) (cause excess segment air : Nat) (emitted : Bool) : Dev :=
  let d1 := if cause ≤ 4 then
      (((d.put F.TXP_ABORT_EXCESS (min excess 0xFF)).put F.TXP_ABORT_SEGMENT segment).put F.TXP_ABORT_PORT t.port).put
        F.TXP_ABORT_CAUSE cause
    else d
  let d2 := d1.txComplete t 0x03 cause emitted air
  d2.setTxs (d2.ra.txs ++ [t.remains])

/-- A stop at this instant, with the airtime up to the end of the ramp-down; nothing is emitted before the ramp has started. -/
def Dev.txStop (d : Dev) (t : Tx) (cause : Nat) : Dev :=
  if d.sysNs ≤ t.rampStart then d.txStopAt t cause 0 0 0 false else d.txStopAt t cause 0 0 (d.stoppedAir t) true

/-- The ramp-down of a stopped transmission ends: its load is released, and its chain returns (R198, R206). -/
def Dev.rampEnd (d : Dev) (t : Tx) : Dev := (((d.chainBack t).txDrop t.id).restoreSlot t.port).recheckBudget

/-- The ramp-down of a completed transmission ends (R198, R286, R320). -/
def Dev.txEnd (d : Dev) (t : Tx) : Dev :=
  let d1 := d.chainBack t
  let wantsAck : Bool := match t.frame with
    | some f => f.ackReq && (t.kind == .data || t.kind == .release || t.kind == .packet)
    | none => false
  if wantsAck then
    let d2 := { d1 with ra := { d1.ra with dutyEnded := setAt d1.ra.dutyEnded t.vslot (d1.ra.dutyEnded.getD t.vslot 0 + t.airtime) } }
    let d3 := d2.occCount t t.planned t.airtime
    ((d3.txUpd t.id (fun x => { x with
      stage := .ackWait, counted := false, dutyRes := 0, occRes := [], sent := true, sentIndex := x.index, sentAir := x.airtime })).restoreSlot t.port).recheckBudget
  else d1.txFinish t 0 0 true t.airtime

/-- A castled chain prepares to return (R234): it goes to SYNTH, listens through the tap and tunes its transmit synthesiser as the spare did, to
the channel of the command in its port's slot, or to the spare's last transmit channel; neither of its synthesisers is in lock yet. -/
def Dev.returnTune (d : Dev) (g c : Nat) : Dev :=
  let f := match d.slotTx (8 * g + c) with
    | some t => t.freq
    | none => d.synthAt (32 + g)
  (((d.setChainState g c 2).tune (8 * g + c) f).setTxLock g c false).setRxLock g c false

/-- The spare loses lock, or its port's PA stops on it (R241): while CASTLED, the chain gives up its calibration and returns,
and SPARE_BAD follows the swap back; while HELD, the port is lost. -/
def Dev.spareLost (d : Dev) (g : Nat) : Dev :=
  let c := d.calg g
  if d.calState g = 2 then
    let s := d.calChain g
    let d1 := (d.setCalg g { c with staged := [], stagedTrims := [], badAfter := true, settled := false, again := false }).setCalState g 4
    let d2 := (d1.put (F.CAL_GSTAT_ITEM g) 0xF).put (F.CAL_GSTAT_STEPS_LEFT g) 0
    (d2.calOutcome (8 * g + s) 3 0xF).returnTune g s
  else if d.calState g = 7 then d.setCalg g { c with lost := true }
  else d

/-- The spare of a group is lost (R241): commands in the slot of a port that is held on it complete with STATE. -/
def Dev.loseSpare (d : Dev) (g : Nat) : Dev :=
  let d1 := d.spareLost g
  (d1.ra.txs.filter (fun t => t.stage == .slot && d1.portLost t.port)).foldl (fun x t => x.txFinish t 0x03 5 false 0) d1

/-! ### Fixed-instant frames (R200, R295, R318, R319) -/

/-- The slot's command, if it is not yet released, gives way (R200). -/
def Dev.displace (d : Dev) (p : Nat) : Dev :=
  match d.slotTx p with
  | some t => if t.stage = .slot then d.txUpd t.id (fun x => { x with stage := .displaced, filling := false }) else d
  | none => d

/-! ### Meanings -/

/-- STEP5_CHECK: the oldest frame at step 5 of a port is secured and checked (R205). A fixed-instant frame passes step 5 as
part of its own command. -/
def execStep5Check (port : Fin 32) (s : State) : Host.Outcome State Fault Refusal :=
  runs s (fun d => match d.ra.txs.find? (fun t => t.port == port.val && t.stage == .step5
      && t.kind != TxKind.ack && t.kind != TxKind.assocResp) with
    | some t => if d.noGrants then d else d.step5 t
    | none => d)

/-- FCNT_RESERVE_DONE: the write of a block reservation ends, verified or failed (R346, R347). -/
def execFcntReserveDone (slot : Fin 4096) (verified : Bool) (s : State) : Host.Outcome State Fault Refusal :=
  runs s (fun d =>
    if d.paused then d
    else if verified then (d.reserveDone slot).wakeFcnt slot
    else match d.keySlot slot with
      | some k => if k.reserving && !k.failed then d.setKeySlot { k with reserving := true, failed := true, retryT := d.tempo + 1 } else d
      | none => d)

/-- SLOT_COMMAND: the oldest voted command of a port enters its free slot (R200). -/
def execSlotCommand (port : Fin 32) (s : State) : Host.Outcome State Fault Refusal :=
  runs s (fun d =>
    if (d.slotTx port).isSome || d.paused then d
    else match d.ra.txs.find? (fun t => t.port == port.val && t.stage == .voted) with
      | some t => d.slotEnter t
      | none => d)

/-- The fixed-instant frame that waits for its instant on a port, its modulator not started (R295, R318). -/
def Dev.fixedUnfilled (d : Dev) (p : Nat) : Option Tx :=
  d.ra.txs.find? (fun t => t.port == p && t.stage == .step5 && (t.kind == .ack || t.kind == .assocResp) && !t.filling)

/-- The modulator of the command in a slot is to start: one delay-line time before the planned ramp start, if it has not; of one released
before its delay line had to fill, at that instant within its turnaround (R283). -/
def Dev.fillDue (d : Dev) (t : Tx) : Bool :=
  (t.stage == .slot && !t.filling && decide (t.planned ≤ d.monoUs + phyDelayLine t.phy))
    || (t.stage == .onAir && decide (t.planned = d.monoUs + phyDelayLine t.phy))

/-- The modulator of the command in a slot starts; the ramp is planned no earlier than the delay line is full (R283). -/
def Dev.fillSlot (d : Dev) (t : Tx) : Dev :=
  (d.modulatorStart t).txUpd t.id (fun x => { x with planned := max x.planned (d.monoUs + phyDelayLine x.phy) })

/-- DELAY_LINE_FILL: the modulator of a port's command starts, with the profile, filter and mask set then in force (R282, R283). Where no command
of the slot is to start, that of the fixed-instant frame which waits on the port does, and what the port's delay line held is gone (R200). -/
def execDelayLineFill (port : Fin 32) (s : State) : Host.Outcome State Fault Refusal :=
  runs s (fun d => match (d.slotTx port).filter d.fillDue, d.fixedUnfilled port with
    | some t, _ => d.fillSlot t
    | none, some t => d.modulatorStart t
    | none, none => d)

/-- Whether the command in a slot may be released now (R200, R283): its chain locked on its channel, its ramp due a turnaround from now,
and its delay line filling, unless that takes less than the turnaround. -/
def Dev.releasable (d : Dev) (t : Tx) : Bool :=
  let turn := d.turnaroundNs t
  t.stage == .slot && !d.paused && d.tunedFor t && decide (t.due ≤ d.sysNs + turn) && decide (t.planned ≤ d.monoUs + (turn + 999) / 1000)
    && (t.filling || decide (1000 * phyDelayLine t.phy ≤ turn))

/-- COEX_GRANT as sampled at the release of a covered transmission (R212, R222). -/
def Dev.sampleGrant (d : Dev) (t : Tx) (grant : Bool) : Dev :=
  if d.covered t then { d with pins := { d.pins with coexGrant := grant } } else d

/-- TX_RELEASE: the command in the slot is released at its due time (R200, R212, R283, R315). -/
def execTxRelease (port : Fin 32) (power : List (Option Int)) (grant : Bool) (s : State) : Host.Outcome State Fault Refusal :=
  runs s (fun d => match d.slotTx port with
    | some t => if d.releasable t then (d.sampleGrant t grant).release t ⟨power, grant⟩ (d.turnaroundNs t) else d
    | none => d)

/-- TX_END: the ramp-down of the transmission on air, or of one that was stopped, ends (R198). -/
def execTxEnd (port : Fin 32) (s : State) : Host.Outcome State Fault Refusal :=
  runs s (fun d => match d.airTx port with
    | some t => if t.stage = .onAir then d.txEnd t else d.rampEnd t
    | none => d)

/-- TX_UNLOCK_ABORT: the transmit synthesiser leaves lock after the ramp has begun (R201). -/
def execTxUnlockAbort (port : Fin 32) (s : State) : Host.Outcome State Fault Refusal :=
  runs s (fun d => match d.onAirTx port with
    | some t =>
      let g := t.group
      let d1 := ((d.setTxLock g (chainInGroup t.chain) false).bump (F.RFG_TX_CNT_ABORTS g) 1).raise (0x10 + g) 1
      let d2 := d1.txStop t 1
      if 32 ≤ t.chain then d2.loseSpare g else d2
    | none => d)

/-- PA_PROTECT: return loss below 6 dB for 10 µs stops the transmission and faults the port (R202). -/
def execPaProtect (port : Fin 32) (s : State) : Host.Outcome State Fault Refusal :=
  runs s (fun d => match d.onAirTx port with
    | some t =>
      let g := t.group
      let s' := portSector t.port
      let d1 := ((d.put ⟨R.RFG_PORT_FAULT g, s', s'⟩ 1).raise (0x10 + g) 2).txStop t 2
      if 32 ≤ t.chain then d1.loseSpare g else d1
    | none => d)

/-- A mask violation is recorded and stops the stream before sample m; nothing is emitted where m is the first sample, or the command
has not been released; with OBSERVE = 1 it is only counted (R280, R281). -/
def Dev.maskStop (d : Dev) (t : Tx) (m excess segment : Nat) : Dev :=
  if bit (t.profile.getD 0) 20 then
    let d1 := (d.bump F.TXP_COUNT_MASK_OBSERVED 1).put F.TXP_ABORT_EXCESS (min excess 0xFF)
    ((d1.put F.TXP_ABORT_SEGMENT segment).put F.TXP_ABORT_PORT t.port).put F.TXP_ABORT_CAUSE 3
  else
    let d1 := ((d.bump F.TXP_COUNT_MASK_ABORTS 1).evt (ev 2 4) 1).raise 0x16 1
    if t.stage = .onAir ∧ m ≠ 0 then d1.txStopAt t 3 excess segment (maskAirUs t.phy (profRamp (t.profile.getD 0)) m) true
    else d1.txStopAt t 3 excess segment 0 false

/-- MASK_VIOLATION: the monitor judges the samples that the modulator produced for CONSEC consecutive windows, of which `window` is
the last; if each violates the mask latched at its start, the stream stops, or with OBSERVE = 1 is only counted (R278 to R281). -/
def execMaskViolation (port : Fin 32) (window : Nat) (samples : List (Int × Int)) (s : State) : Host.Outcome State Fault Refusal :=
  runs s (fun d => match d.slotTx port with
    | some t =>
      let n := bits (t.profile.getD 0) 19 16
      if t.stage ≠ .rampDown ∧ t.filling = true ∧ 0 < n ∧ n ≤ window + 1 ∧ runViolates t.mask samples n = true then
        let worst := worstSegment t.mask (windowOf samples (n - 1))
        d.maskStop t (128 * window) worst.1 worst.2
      else d
    | none => d)

/-- COEX_GRANT_LOSS: COEX_GRANT falls; a covered transmission on air loses its grant (R213). -/
def execCoexGrantLoss (s : State) : Host.Outcome State Fault Refusal :=
  runs s (fun d =>
    let d1 := { d with pins := { d.pins with coexGrant := false } }
    let hit := d1.ra.txs.filter (fun t => t.stage == .onAir && d1.covered t)
    if hit.isEmpty then d1
    else
      let d2 := (d1.bump F.COEX_COUNT_LOST 1).raise 0x0A 1
      if d1.is F.COEX_CFG_ABORT_ON_LOSS then hit.foldl (fun x t => x.txStop t 4) d2 else d2)

/-- Whether a chain of a group carries the duty of a port in service, and so goes on to RX (R197). -/
def Dev.onDuty (d : Dev) (g c : Nat) : Bool :=
  if c = 8 then d.is (F.RFG_CHAIN_MAP_CASTLING g) && d.inService (8 * g + d.get (F.RFG_CHAIN_MAP_SECTOR g))
  else d.inService (8 * g + c) && d.chainOf (8 * g + c) == c

/-- CHAIN_LOCK: the receive LO or the transmit synthesiser of a chain locks, or both, and in RUN the chain of a port moves on: from STBY
to SYNTH, and from SYNTH with its receive LO locked to RX (R198, R199). -/
def execChainLock (locks : ChainLocks) (s : State) : Host.Outcome State Fault Refusal :=
  runs s (fun d =>
    let g := chainGroup locks.chain; let c := chainInGroup locks.chain
    let d1 := if locks.rx then d.setRxLock g c true else d
    let d2 := if locks.tx then d1.setTxLock g c true else d1
    if d.pw.phase ≠ .run ∨ d2.onDuty g c = false then d2
    else if d2.chainState g c = 1 then d2.setChainState g c 2
    else if d2.chainState g c = 2 ∧ bit (d2.rd (R.RFG_LOCK g)) (16 + c) = true then d2.setChainState g c 3
    else d2)

/-- The port whose duty a chain carries. -/
def Dev.portOfChain (d : Dev) (g c : Nat) : Nat := 8 * g + (if c = 8 then d.get (F.RFG_CHAIN_MAP_SECTOR g) else c)

/-- RX_LO_UNLOCK: the receive LO of a chain loses lock: reception on its port stops until relock (R199); a spare that carries a port is
lost (R241). -/
def execRxLoUnlock (chain : Fin 36) (s : State) : Host.Outcome State Fault Refusal :=
  runs s (fun d =>
    let g := chainGroup chain; let c := chainInGroup chain
    let d1 := (d.setRxLock g c false).raise (0x10 + g) 0
    let d2 := if d.onDuty g c then d1.markLost (d.portOfChain g c) else d1
    if 32 ≤ chain.val then d2.loseSpare g else d2)

/-- LOCK_FAIL: a synthesiser has not locked within twice its time; the lock is tried again at once (R201). -/
def execLockFail (chain : Fin 36) (s : State) : Host.Outcome State Fault Refusal :=
  runs s (fun d => d.raise (0x10 + chainGroup chain) 0)

/-- BLANK_PIN: BLANK_g takes a level (R209). -/
def execBlankPin (g : Fin 4) (level : Bool) (s : State) : Host.Outcome State Fault Refusal :=
  runs s (fun d =>
    let d1 := { d with pins := { d.pins with blank := if level then d.pins.blank ||| BitVec.ofNat 4 (2 ^ g.val)
                                                     else d.pins.blank &&& ~~~(BitVec.ofNat 4 (2 ^ g.val)) } }
    if d1.awake then d1.blankUpdate else d1)

/-- BLANK_EXT_EXPIRY: EXT_US after BLANK_g or EN ceased, the group's blanking ends (R209). -/
def execBlankExtExpiry (g : Fin 4) (s : State) : Host.Outcome State Fault Refusal :=
  runs s (fun d => { d with ra := { d.ra with blankTail := setAt d.ra.blankTail g false } })

end Sys2Proof.Machine
end

