-- ==== Sys2Proof/Machine/Qsch.lean ====
section
/-! DEFINITION. Traffic scheduling (14): flow records, admission at step 2, buckets, weighted fair queueing, selection,
pending configuration, the pass and the samples of a boundary, egress queues, errors and reset (R400 to R432). -/

namespace Sys2Proof.Machine

/-! ### Flow records (R423) and parameters (R429) -/

def flowAddr (f w : Nat) : Nat := 0x03800000 + 8 * f + w

def Dev.fTag (d : Dev) (f : Nat) : Nat := d.mem (flowAddr f 0)
def Dev.fC (d : Dev) (f : Nat) : Int := toSigned 36 (d.mem (flowAddr f 1))
def Dev.fP (d : Dev) (f : Nat) : Int := toSigned 36 (d.mem (flowAddr f 2))
def Dev.fDepth (d : Dev) (f : Nat) : Nat := d.memBits (flowAddr f 4) 35 20
def Dev.fCells (d : Dev) (f : Nat) : Nat := d.memBits (flowAddr f 4) 19 2
def Dev.fHwm (d : Dev) (f : Nat) : Nat := d.memBits (flowAddr f 5) 35 20
def Dev.fAlarmed (d : Dev) (f : Nat) : Bool := d.memBits (flowAddr f 5) 19 19 == 1
def Dev.fSent (d : Dev) (f : Nat) : Nat := d.memBits (flowAddr f 6) 31 16
def Dev.fDropped (d : Dev) (f : Nat) : Nat := d.memBits (flowAddr f 6) 15 0
def Dev.setTag (d : Dev) (f v : Nat) : Dev := d.setMem (flowAddr f 0) (v % 2 ^ 36)
def Dev.setC (d : Dev) (f : Nat) (v : Int) : Dev := d.setMem (flowAddr f 1) (ofSigned 36 v)
def Dev.setP (d : Dev) (f : Nat) (v : Int) : Dev := d.setMem (flowAddr f 2) (ofSigned 36 v)

def Dev.flowPort (d : Dev) (f : Nat) : Nat := d.get (F.QFLOW_CFG_PORT.at f)
def Dev.flowClass (d : Dev) (f : Nat) : Nat := d.get (F.QFLOW_CFG_CLASS.at f)
def Dev.flowPc (d : Dev) (f : Nat) : Nat := 8 * d.flowPort f + d.flowClass f
def Dev.flowMode (d : Dev) (f : Nat) : Nat := d.get (F.QFLOW_CFG_MODE.at f)
def Dev.flowWeight (d : Dev) (f : Nat) : Nat := d.get (F.QFLOW_CFG_WEIGHT.at f)

/-- Frames queued in a flow, head first. -/
def Dev.flowFrames (d : Dev) (f : Nat) : List Tx := d.ra.txs.filter (fun t => t.stage == .queued && t.flow == f)

/-- Frames queued in the flows of a port-class. -/
def Dev.pcDepth (d : Dev) (q : Nat) : Nat := (d.ra.txs.filter (fun t => t.stage == .queued && d.flowPc t.flow == q)).length

/-- The latest alarm or drop, with the bit of IRQ_RAW it sets (R420, R427). -/
def Dev.qEvent (d : Dev) (kind index bit : Nat) : Dev :=
  ((d.put F.QSCH_LAST_EVENT_KIND kind).put F.QSCH_LAST_EVENT_INDEX index).raise 0x28 bit

/-- A flow's depth and cells change: the high-water mark and the alarm follow (R420). -/
def Dev.setDepth (d : Dev) (f n cells : Nat) : Dev :=
  let d1 := d.setMem (flowAddr f 4) (n * 2 ^ 20 + cells * 4)
  let alarm := d.get (F.QFLOW_LIMIT_ALARM.at f)
  let d2 := if d.fHwm f < n then d1.setMemBits (flowAddr f 5) 35 20 n else d1
  if alarm ≠ 0 ∧ alarm ≤ n ∧ d.fDepth f < n ∧ d.fAlarmed f = false then (d2.setMemBits (flowAddr f 5) 19 19 1).qEvent 1 f 0
  else if n ≤ alarm / 2 then d2.setMemBits (flowAddr f 5) 19 19 0
  else d2

/-! ### Virtual time (R414, R415) -/

/-- before(a, b): times compared modulo 2^36 over half the range. -/
def before (a b : Nat) : Bool :=
  let x := (b + 2 ^ 36 - a % 2 ^ 36) % 2 ^ 36
  decide (0 < x) && decide (x < 2 ^ 35)

/-- A frame's increment. -/
def wfqInc (l w : Nat) : Nat := (256 * l + w - 1) / w

def Dev.vtime (d : Dev) (q : Nat) : Nat := d.getPair (F.QPCLS_VTIME_LO_V.at q) (F.QPCLS_VTIME_HI_V.at q)
def Dev.setVtime (d : Dev) (q v : Nat) : Dev := d.putPair (F.QPCLS_VTIME_LO_V.at q) (F.QPCLS_VTIME_HI_V.at q) (v % 2 ^ 36)
def Dev.credit (d : Dev) (q : Nat) : Int := toSigned 36 (d.getPair (F.QPCLS_CREDIT_LO_CREDIT.at q) (F.QPCLS_CREDIT_HI_CREDIT.at q))
def Dev.setCredit (d : Dev) (q : Nat) (v : Int) : Dev :=
  d.putPair (F.QPCLS_CREDIT_LO_CREDIT.at q) (F.QPCLS_CREDIT_HI_CREDIT.at q) (ofSigned 36 v)

def Dev.pcState (d : Dev) (q : Nat) : PcState := (d.sch.pcs.find? (fun x => x.q == q)).getD ⟨q, 0, 0, 0⟩
def Dev.setPcState (d : Dev) (x : PcState) : Dev :=
  { d with sch := { d.sch with pcs := x :: d.sch.pcs.filter (fun y => y.q != x.q) } }

/-- The tag of a flow after a frame of measure l enters it. -/
def Dev.enqueueTag (d : Dev) (f l : Nat) : Nat :=
  let v := d.vtime (d.flowPc f)
  ((if before v (d.fTag f) then d.fTag f else v) + wfqInc l (d.flowWeight f)) % 2 ^ 36

/-! ### Admission (R401 to R411) -/

/-- The flow a frame for port p enters when it names flow f (R401). -/
def Dev.flowFor (d : Dev) (f p : Nat) : Nat := if d.is (F.QFLOW_CFG_SPREAD.at f) then f - f % 32 + p else f

/-- CODE of a refusal cause (R407, R286). -/
def causeCode (cause : Nat) : Nat :=
  match cause with
  | 6 => 0x03 | 8 => 0x0F | 11 => 0x11 | 15 => 0x06 | 16 => 0x12 | 17 => 0x07 | 18 => 0x01 | 19 => 0x03 | 20 => 0x03
  | _ => 0x03

/-- A frame refused at step 2 ends with its cause, holding no cells; a flood copy follows R325 too. -/
def Dev.refuseTx (d : Dev) (t : Tx) (cause : Nat) : Dev :=
  let d1 := d.txFinish { t with cells := 0 } (causeCode cause) cause false 0
  match t.kind with
  | .flood => d1.raise 0x1C 1
  | _ => d1

/-- Frames refused at a check: the records of R407, then each frame ends. -/
def Dev.refuseAll (d : Dev) (ts : List Tx) (f cause : Nat) : Dev :=
  let n := ts.length
  let dropped := fun (x : Dev) => x.setMemBits (flowAddr f 6) 15 0 (min (x.fDropped f + n) 0xFFFF)
  let d1 := match cause with
    | 15 => ((dropped d).bump F.QSCH_POLICE_RED 1).qEvent 8 f 7 |>.evt (ev 8 4) 1
    | 16 => ((dropped d).bump F.QSCH_DROP_A_FLOW_FULL n).qEvent 4 f 3
    | 17 => ((dropped d).bump F.QSCH_DROP_A_BUF_FULL n).qEvent 5 f 4
    | _ => d
  ts.foldl (fun x t => x.refuseTx t cause) (d1.evt (ev 8 1) n)

/-- The last check passes: frames are charged and appended to the flow (R407, R411, R415). -/
def Dev.appendAll (d : Dev) (ts : List Tx) (f : Nat) (chargeC chargeP : Bool) : Dev :=
  let l := (ts.map (fun t => t.measure)).sum
  let d1 := if chargeC then d.setC f (d.fC f - l * 4096) else d
  let d2 := if chargeP then d1.setP f (d1.fP f - l * 4096) else d1
  let q := d2.flowPc f
  let d3 := if d2.pcDepth q = 0 then d2.setPcState { d2.pcState q with filledT := d2.tempo } else d2
  ts.foldl (fun x t =>
    let y := if x.fDepth f = 0 then x.setTag f (x.enqueueTag f t.measure) else x
    let moved := { t with stage := .queued, flow := f, cls := y.flowClass f, admitT := y.tempo }
    let z := y.setTxs (y.ra.txs.filter (fun u => u.id != t.id) ++ [moved])
    ((z.setDepth f (z.fDepth f + 1) (z.fCells f + t.cells)).takeCells true t.cells).evt (ev 8 0) 1) d3

/-- Step 2 for the frames of one command or packet, whose port is resolved (R407). -/
def Dev.admitAll (d : Dev) (ts : List Tx) : Dev :=
  match ts with
  | [] => d
  | t :: _ =>
    if !d.enabled 0x28 then d.refuseAll ts t.flow 6
    else
      let f := d.flowFor t.flow t.port
      if d.flowPort f ≠ t.port then d.refuseAll ts f 18
      else
        let police := d.flowMode f == 1
        let c := decide (0 ≤ d.fC f)
        let p := decide (0 ≤ d.fP f)
        if police && !p then d.refuseAll ts f 15
        else if d.get (F.QFLOW_LIMIT_LIMIT.at f) < d.fDepth f + ts.length then d.refuseAll ts f 16
        else if !d.cellsFit true ((ts.map (fun t => t.cells)).sum) then d.refuseAll ts f 17
        else
          let d1 := if police && !c then (d.bump F.QSCH_POLICE_YELLOW 1).evt (ev 8 5) 1 else d
          d1.appendAll ts f (police && c) police

/-! ### Leaving a queue -/

/-- A queued frame leaves its flow; the tag is given by the caller. -/
def Dev.leaveFlow (d : Dev) (t : Tx) : Dev :=
  d.setDepth t.flow (d.fDepth t.flow - 1) (d.fCells t.flow - t.cells)

/-- A queued frame ends with a cause: it leaves its flow, and its cells return to the pool. -/
def Dev.endQueued (d : Dev) (t : Tx) (cause : Nat) : Dev :=
  let d1 := d.leaveFlow t
  (if t.cells = 0 then d1 else d1.freeCells true t.cells).refuseTx t cause

/-- Every frame of a flow completes with a cause and leaves it. -/
def Dev.flushFlow (d : Dev) (f cause : Nat) : Dev :=
  (d.flowFrames f).foldl (fun x t => x.endQueued t cause) d

/-- Heads whose latest start has passed are removed (R419): no charge, and the tag stays. -/
def Dev.dropLate (d : Dev) (f : Nat) : Nat → Dev
  | 0 => d
  | n + 1 =>
    match d.flowFrames f with
    | [] => d
    | t :: _ =>
      if t.latest ≠ 0 ∧ t.latest < d.sysNs then
        (((d.leaveFlow t).evt (ev 2 5) 1).txFinish t 0x0F 8 false 0).dropLate f n
      else d

/-! ### Selection (R412, R415, R417, R418) -/

/-- Whether a frame to its next hop will be timed (R312). -/
def Dev.willTime (d : Dev) (t : Tx) : Bool :=
  match t.hop, t.pan with
  | some _, some p => decide (0 < d.panWakePeriod p)
  | _, _ => false

/-- Stages in which a selected frame has neither reached its ramp start nor completed. -/
def preAir (s : TxStage) : Bool :=
  [TxStage.step4, .awaitNode, .dutyHeld, .occHeld, .backoff, .newRound, .step5, .fcntWait, .occHeld5, .budgetHeld, .granted,
   .voted, .displaced, .slot].contains s

/-- Frames that waited in a flow queue. -/
def selectedKind (k : TxKind) : Bool := k == .raw || k == .data || k == .release || k == .flood || k == .packet

/-- A frame that waits at stage 1 for a window whose planned ramp start is more than one tempo ahead (R418). One that waits for its next hop's
next frame has no window planned. -/
def Dev.waitsAtStage1 (d : Dev) (t : Tx) : Bool :=
  t.stage == .step4 && t.timed && decide (d.monoUs + 250 < t.planned)

def Dev.waitingOf (d : Dev) (p : Nat) : Nat :=
  (d.ra.txs.filter (fun t => t.port == p && selectedKind t.kind && t.retries == 0 && d.waitsAtStage1 t)).length
def Dev.stagedOf (d : Dev) (p : Nat) : Nat :=
  (d.ra.txs.filter (fun t => t.port == p && selectedKind t.kind && t.retries == 0 && preAir t.stage && !d.waitsAtStage1 t)).length

/-- Eligibility of a flow's head: 0 none, 1 excess, 2 committed (R411, R412, R418). -/
def Dev.eligible (d : Dev) (f : Nat) (t : Tx) : Nat :=
  if d.willTime t ∧ d.get F.QSCH_CFG_WINDOW_LIMIT ≤ d.waitingOf t.port then 0
  else if d.flowMode f = 2 then
    if d.fP f < 0 then 0 else if d.fC f < 0 then 1 else 2
  else 2

/-- The flow of a list whose tag is before every other's; ties go to the lower number. -/
def Dev.firstTag (d : Dev) (fs : List Nat) : Option Nat :=
  fs.foldl (fun (best : Option Nat) f => match best with
    | none => some f
    | some b => if before (d.fTag f) (d.fTag b) || (d.fTag f == d.fTag b && decide (f < b)) then some f else some b) none

/-- The flows of port p that hold frames. -/
def Dev.flowsOf (d : Dev) (p : Nat) : List Nat :=
  ((d.ra.txs.filter (fun t => t.stage == .queued && t.port == p)).map (fun t => t.flow)).eraseDups

def Dev.headOf (d : Dev) (f : Nat) : Option Tx := (d.flowFrames f).head?

/-- The flow from which port-class q selects (R415), with whether its head is committed. -/
def Dev.pickFlow (d : Dev) (p q : Nat) : Option (Nat × Bool) :=
  let fs := (d.flowsOf p).filter (fun f => d.flowPc f == q)
  let at' := fun n => fs.filter (fun f => match d.headOf f with
    | some t => d.eligible f t == n
    | none => false)
  match d.firstTag (at' 2) with
  | some f => some (f, true)
  | none => (d.firstTag (at' 1)).map (fun f => (f, false))

/-- Whether a port-class's credit allows it (R417). -/
def Dev.creditOk (d : Dev) (q : Nat) : Bool := !d.is (F.QPCLS_CFG_SHAPE_EN.at q) || decide (0 ≤ d.credit q)

/-- The highest class that is eligible and holds an eligible flow. -/
def Dev.pickClass (d : Dev) (p : Nat) : Option (Nat × Nat × Bool) :=
  ((List.range 8).map (fun i => 8 * p + (7 - i))).findSome? (fun q =>
    if d.creditOk q then (d.pickFlow p q).map (fun x => (q, x.1, x.2)) else none)

/-- The frame at the head of flow f is selected (R412, R415): charges, V, tag, counts. -/
def Dev.takeHead (d : Dev) (q f : Nat) (committed : Bool) (t : Tx) : Dev :=
  let l : Int := t.measure * 4096
  let d1 := d.setVtime q (d.fTag f)
  let d2 := if d.flowMode f = 2 then
      let x := d1.setP f (d1.fP f - l)
      if committed then x.setC f (x.fC f - l) else x
    else d1
  let d3 := if d.is (F.QPCLS_CFG_SHAPE_EN.at q) then d2.setCredit q (d2.credit q - l) else d2
  let d4 := (d3.leaveFlow t).txLast t.id (fun x => { x with stage := .step4 })
  let d5 := match d4.headOf f with
    | some h => d4.setTag f (d4.fTag f + wfqInc h.measure (d4.flowWeight f))
    | none => d4
  let d6 := d5.setMemBits (flowAddr f 6) 31 16 (min (d5.fSent f + 1) 0xFFFF)
  let s := d6.pcState q
  let d7 := d6.setPcState { s with maxWait := max s.maxWait (d6.tempo - t.admitT), lastSelT := d6.tempo }
  let d8 := d7.bump (F.QPCLS_COUNT_SELECTED.at q) 1
  let p := q / 8
  let d9 := { d8 with sch := { d8.sch with selected := setAt d8.sch.selected p (d8.sch.selected.getD p 0 + 1) } }
  let n := ((d9.tab.telemSelected.find? (fun x => x.1 == q)).map (fun x => x.2)).getD 0
  { d9 with tab := { d9.tab with
      telemSelected := (q, min (n + 1) (2 ^ 28 - 1)) :: d9.tab.telemSelected.filter (fun x => x.1 != q) } }.evt (ev 8 2) 1

/-- Whether port p may select (R418). -/
def Dev.maySelect (d : Dev) (p : Nat) : Bool :=
  !d.noGrants && d.inService p && decide (d.stagedOf p < d.get F.QSCH_CFG_STAGE_LIMIT)
    && decide (d.sch.selected.getD p 0 < 64)

/-- One selection by port p. -/
def Dev.selectFrame (d : Dev) (p : Nat) : Dev :=
  if d.maySelect p then
    let d1 := (d.flowsOf p).foldl (fun x f => x.dropLate f (x.fDepth f)) d
    match d1.pickClass p with
    | some (q, f, c) => match d1.headOf f with
      | some t => (d1.takeHead q f c t).dropLate f (d1.fDepth f)
      | none => d1
    | none => d1
  else d

/-! ### Egress queues (R421, R422): queue e = 64 × port + queue -/

def Dev.egrLevel (d : Dev) (e : Nat) : Int := toSigned 36 (d.getPair (F.QEGR_LEVEL_LO_LEVEL.at e) (F.QEGR_LEVEL_HI_LEVEL.at e))
def Dev.setEgrLevel (d : Dev) (e : Nat) (v : Int) : Dev :=
  d.putPair (F.QEGR_LEVEL_LO_LEVEL.at e) (F.QEGR_LEVEL_HI_LEVEL.at e) (ofSigned 36 v)
def Dev.egrTag (d : Dev) (e : Nat) : Nat := d.getPair (F.QEGR_TAG_LO_TAG.at e) (F.QEGR_TAG_HI_TAG.at e)
def Dev.setEgrTag (d : Dev) (e v : Nat) : Dev := d.putPair (F.QEGR_TAG_LO_TAG.at e) (F.QEGR_TAG_HI_TAG.at e) (v % 2 ^ 36)
/-- A backhaul port's virtual time, kept with its queue 0. -/
def Dev.egrV (d : Dev) (n : Nat) : Nat := d.getPair (F.QEGR_VTIME_LO_V.at (64 * n)) (F.QEGR_VTIME_HI_V.at (64 * n))
def Dev.setEgrV (d : Dev) (n v : Nat) : Dev :=
  d.putPair (F.QEGR_VTIME_LO_V.at (64 * n)) (F.QEGR_VTIME_HI_V.at (64 * n)) (v % 2 ^ 36)

def Dev.egrFrames (d : Dev) (e : Nat) : List EgrFrame := d.sch.egress.filter (fun x => x.queue == e)
def Dev.egrCells (d : Dev) (e : Nat) : Nat := ((d.egrFrames e).map (fun x => x.cells)).sum

/-- A frame for an egress queue, of len bytes on the wire, is admitted or dropped (R422). -/
def Dev.egrAdmit (d : Dev) (e len : Nat) (body : EgrBody) : Dev :=
  let cells := cellsFor len
  if d.get (F.QEGR_LIMIT_CELLS.at e) < d.egrCells e + cells ∨ d.cellsFit false cells = false then
    let full := decide (d.get (F.QEGR_LIMIT_CELLS.at e) < d.egrCells e + cells)
    let d1 := if full then d else (d.bump F.QSCH_DROP_A_BUF_FULL 1).raise 0x28 4
    (((d1.bump F.QSCH_DROP_B_EGRESS_FULL 1).bump (F.QEGR_COUNT_DROPPED.at e) 1).qEvent 6 e 5).evt (ev 8 3) 1
  else
    let d1 := if (d.egrFrames e).isEmpty then
        let v := d.egrV (e / 64)
        let s := if before v (d.egrTag e) then d.egrTag e else v
        d.setEgrTag e (s + wfqInc len (d.get (F.QEGR_CFG_WEIGHT.at e)))
      else d
    let d2 := { d1 with sch := { d1.sch with egress := d1.sch.egress ++ [EgrFrame.mk e len cells body] } }
    (d2.takeCells false cells).peak (F.QEGR_HWM_PEAK.at e) (d2.egrCells e)

/-- Whether a frame's Brioz Link session has sent fewer than PACE datagrams in this tempo; others wait (R449). -/
def Dev.paceOk (d : Dev) (n : Nat) (x : EgrFrame) : Bool :=
  match x.body with
  | .ip _ => true
  | .datagram uid _ _ _ => match d.sessions.find? (fun s => s.uid == uid) with
    | some s => decide (s.paced < d.get (F.BHL_BRZ_CFG_PACE n))
    | none => true

/-- The queue a backhaul port serves next: the lowest PRIO queue that may send, or else by R415 among the others. With
the scheduler disabled, queue BRZ_QUEUE alone, unshaped (R408). -/
def Dev.egrPick (d : Dev) (n : Nat) : Option Nat :=
  let held := (List.range 64).map (fun q => 64 * n + q) |>.filter (fun e => match (d.egrFrames e).head? with
    | some x => d.paceOk n x
    | none => false)
  if d.enabled 0x28 then
    let ok := held.filter (fun e => d.get (F.QEGR_SHAPER_RATE.at e) == 0 || decide (0 ≤ d.egrLevel e))
    match ok.find? (fun e => d.is (F.QEGR_CFG_PRIO.at e)) with
    | some e => some e
    | none => ok.foldl (fun (best : Option Nat) e => match best with
        | none => some e
        | some b => if before (d.egrTag e) (d.egrTag b) then some e else some b) none
  else held.find? (fun e => e == 64 * n + d.get F.QMAP_CTRL_BRZ_QUEUE)

/-- The head of egress queue e is selected and leaves: charge, V, tag, count (R415, R422). -/
def Dev.egrTake (d : Dev) (e : Nat) (x : EgrFrame) : Dev :=
  let rest := match d.sch.egress.findIdx? (fun y => y.queue == e) with
    | some i => d.sch.egress.eraseIdx i
    | none => d.sch.egress
  let shaped := d.enabled 0x28 && d.get (F.QEGR_SHAPER_RATE.at e) != 0
  let d1 := if shaped then d.setEgrLevel e (d.egrLevel e - x.len) else d
  let d2 := if d.is (F.QEGR_CFG_PRIO.at e) then d1 else d1.setEgrV (e / 64) (d1.egrTag e)
  let d3 := { d2 with sch := { d2.sch with egress := rest } }
  let d4 := match (d3.egrFrames e).head? with
    | some h => d3.setEgrTag e (d3.egrTag e + wfqInc h.len (d3.get (F.QEGR_CFG_WEIGHT.at e)))
    | none => d3
  (d4.freeCells false x.cells).bump (F.QEGR_COUNT_SENT.at e) 1

/-! ### The boundary pass (R413, R416, R417, R423) -/

/-- Entries with pending changes: page and entry. -/
def Dev.pendEntries (d : Dev) : List (Nat × Nat) := (d.sch.pending.map (fun x => (keyPage x.1, keyEntry x.1))).eraseDups

def Dev.forgives (d : Dev) (k : Nat) : Bool := d.sch.forgive.contains k

/-- One entry's pending changes take effect together, and are saved. -/
def Dev.applyEntry (d : Dev) (pg i : Nat) : Dev :=
  let ch := d.sch.pending.filter (fun x => keyPage x.1 == pg && keyEntry x.1 == i)
  let old := d.rd (F.QFLOW_CFG_PORT.at i).addr
  let d1 := ch.foldl (fun x c => (x.wr c.1 c.2).save c.1) d
  if pg = 0x29 then
    let new := d1.rd (F.QFLOW_CFG_PORT.at i).addr
    let moved := bits old 20 16 ≠ bits new 20 16 ∨ bits old 26 24 ≠ bits new 26 24 ∨ bit old 31 ≠ bit new 31
    let d2 := if moved then
        let fl := (d.flowFrames i).foldl (fun x t => x.endQueued t 19) d1
        fl.setTag i (fl.vtime (fl.flowPc i))
      else d1
    let d3 := if d.forgives (F.QFLOW_SHAPER_CIR.at i).addr ∧ d2.fC i < 0 then d2.setC i 0 else d2
    if d.forgives (F.QFLOW_SHAPER_P_PIR.at i).addr ∧ d3.fP i < 0 then d3.setP i 0 else d3
  else if pg = 0x2A then
    if d.forgives (F.QPCLS_SHAPER_IDLE.at i).addr ∧ d1.credit i < 0 then d1.setCredit i 0 else d1
  else if d.forgives (F.QEGR_SHAPER_RATE.at i).addr ∧ d1.egrLevel i < 0 then d1.setEgrLevel i 0 else d1

/-- Step 2 of R39: every pending change takes effect. -/
def Dev.applyPending (d : Dev) : Dev :=
  let d1 := d.pendEntries.foldl (fun x p => x.applyEntry p.1 p.2) d
  { d1 with sch := { d1.sch with pending := [], forgive := [] } }

/-- Flows whose record or parameters differ from what an untouched flow holds. -/
def Dev.liveFlows (d : Dev) : List Nat :=
  ((d.tab.mem.filter (fun (x : Nat × Word) => decide (0x03800000 ≤ x.1) && decide (x.1 < 0x03820000))).map (fun (x : Nat × Word) => (x.1 - 0x03800000) / 8)
    ++ (d.regs.filter (fun (x : Nat × Reg) => keyPage x.1 == 0x29 && decide (2 ^ 20 ≤ x.1))).map (fun (x : Nat × Reg) => keyEntry x.1)).eraseDups

/-- Entries of a window page with a listed register. -/
def Dev.liveEntries (d : Dev) (pg : Nat) : List Nat :=
  ((d.regs.filter (fun (x : Nat × Reg) => keyPage x.1 == pg && decide (2 ^ 20 ≤ x.1))).map (fun (x : Nat × Reg) => keyEntry x.1)).eraseDups

/-- The refill of one bucket (R410). -/
def refill (level rate burst : Int) : Int := min (level + rate) burst

/-- The refill and the tag clamp of one flow. -/
def Dev.flowPass (d : Dev) (f : Nat) : Dev :=
  let d1 := d.setC f (refill (d.fC f) (d.get (F.QFLOW_SHAPER_CIR.at f)) (d.get (F.QFLOW_BURST_CBS.at f) * 4096))
  let d2 := d1.setP f (refill (d1.fP f) (d.get (F.QFLOW_SHAPER_P_PIR.at f)) (d.get (F.QFLOW_BURST_P_PBS.at f) * 4096))
  let v := d2.vtime (d2.flowPc f)
  if d2.fDepth f = 0 ∧ before (d2.fTag f) v = true then d2.setTag f v else d2

/-- The refill of a port-class's credit (R417). -/
def Dev.pcPass (d : Dev) (q : Nat) : Dev :=
  if d.is (F.QPCLS_CFG_SHAPE_EN.at q) then
    if 0 < d.pcDepth q ∨ d.credit q < 0 then
      d.setCredit q (refill (d.credit q) (d.get (F.QPCLS_SHAPER_IDLE.at q)) (d.get (F.QPCLS_CFG_HI.at q) * 4096))
    else d.setCredit q 0
  else d.setCredit q 0

/-- The refill and the tag clamp of an egress queue (R416, R422). -/
def Dev.egrPass (d : Dev) (e : Nat) : Dev :=
  let d1 := d.setEgrLevel e (refill (d.egrLevel e) (d.get (F.QEGR_SHAPER_RATE.at e)) (d.get (F.QEGR_BURST_BYTES.at e)))
  let v := d1.egrV (e / 64)
  if (d1.egrFrames e).isEmpty ∧ before (d1.egrTag e) v = true then d1.setEgrTag e v else d1

/-- The flows that the default mapping gives port-class q: block 8k + class, port p (R401). -/
def pcFlows (q : Nat) : List Nat := (List.range 64).map (fun k => 32 * (8 * k + q % 8) + q / 8)

/-- Flows whose port-class's virtual time has left 0: even an untouched flow's tag is clamped to it (R416). -/
def Dev.clampFlows (d : Dev) : List Nat := ((List.range 256).filter (fun q => d.vtime q != 0)).flatMap pcFlows

/-- Egress queues of a port whose virtual time has left 0. -/
def Dev.clampQueues (d : Dev) : List Nat := (List.range 128).filter (fun e => d.egrV (e / 64) != 0)

/-- Step 3 of R39: the refill of every flow, port-class and egress queue, with the tag clamp. -/
def Dev.refillAll (d : Dev) : Dev :=
  let d1 := (d.liveFlows ++ d.clampFlows).eraseDups.foldl (fun x f => x.flowPass f) d
  let d2 := (d1.liveEntries 0x2A).foldl (fun x q => x.pcPass q) d1
  (d2.liveEntries 0x2B ++ d2.clampQueues).eraseDups.foldl (fun x e => x.egrPass e) d2

/-- The sample of one port-class (R420), at the boundary that begins tempo `t`. -/
def Dev.samplePc (d : Dev) (t q : Nat) : Dev :=
  let s := d.pcState q
  let depth := min (d.pcDepth q) 0xFFFF
  let held := if 0 < d.pcDepth q ∧ s.filledT + 1 < t then t - max s.lastSelT s.filledT else 0
  let delay := min (max s.maxWait held) 0xFFFF
  let alarm := fun (x : Dev) (lvl was now kind b : Nat) =>
    if lvl ≠ 0 ∧ was < lvl ∧ lvl ≤ now then x.qEvent kind q b else x
  let d1 := alarm d (d.get (F.QPCLS_ALARM_DEPTH.at q)) (d.get (F.QPCLS_SAMPLE_DEPTH.at q)) depth 2 1
  let d2 := alarm d1 (d.get (F.QPCLS_ALARM_DELAY.at q)) (d.get (F.QPCLS_SAMPLE_DELAY.at q)) delay 3 2
  let d3 := (d2.put (F.QPCLS_SAMPLE_DEPTH.at q) depth).put (F.QPCLS_SAMPLE_DELAY.at q) delay
  let d4 := (d3.peak (F.QPCLS_HWM_DEPTH.at q) depth).peak (F.QPCLS_HWM_DELAY.at q) delay
  d4.setPcState { s with maxWait := 0 }

/-- Step 5 of R39: every port-class is sampled, and PORT_STAT takes the frames selected in the ended tempo. -/
def Dev.sampleAll (d : Dev) (t : Nat) : Dev :=
  let qs := ((d.ra.txs.filter (fun x => x.stage == .queued)).map (fun x => d.flowPc x.flow) ++ d.sch.pcs.map (fun x => x.q)
    ++ d.liveEntries 0x2A).eraseDups
  let d1 := qs.foldl (fun x q => x.samplePc t q) d
  let d2 := (List.range 32).foldl (fun x p => x.put (F.QSCH_PORT_STAT_SELECTED p) (d.sch.selected.getD p 0)) d1
  { d2 with sch := { d2.sch with selected := List.replicate 32 0 } }

/-! ### Errors and reset (R424, R425) -/

/-- A flow record with its levels at burst, TAG = V, and its counts 0. -/
def Dev.freshFlow (d : Dev) (f tag : Nat) : Dev :=
  let d1 := (d.setTag f tag).setC f (d.get (F.QFLOW_BURST_CBS.at f) * 4096)
  (d1.setP f (d.get (F.QFLOW_BURST_P_PBS.at f) * 4096)).setMems (flowAddr f 3) [0, 0, 0, 0, 0]

/-- A flow record in error: its frames are discarded with BUF_ERROR and the record is rewritten (R424). The cells return by
the scan that CELL_SCAN ends: until then they count as held. -/
def Dev.flowRecordError (d : Dev) (f : Nat) : Dev :=
  let lost := ((d.flowFrames f).map (fun t => t.cells)).sum
  let d1 := (d.flowFrames f).foldl (fun x t => x.refuseTx { t with cells := 0 } 20) d
  let d2 := { d1 with sch := { d1.sch with orphanCells := d1.sch.orphanCells + lost } }
  d2.freshFlow f (d2.vtime (d2.flowPc f))

/-- Every level at its burst, as at release and after a soft reset (R410). -/
def Dev.burstLevels (d : Dev) : Dev :=
  let d1 := d.liveFlows.foldl (fun x f => x.freshFlow f 0) d
  (List.range 128).foldl (fun x e => x.setEgrLevel e (x.get (F.QEGR_BURST_BYTES.at e))) d1

/-- The soft reset of the QSCH page (R425): queues emptied, virtual times, tags and credits 0, pending changes discarded, and
the windows' configuration reloaded. The page's own registers are reloaded by the common part of a soft reset. -/
def Dev.qschReset (d : Dev) : Dev :=
  let d1 := (d.ra.txs.filter (fun t => t.stage == .queued)).foldl (fun x t => x.endQueued t 19) d
  let d2 := d1.sch.egress.foldl (fun x f => x.freeCells false f.cells) d1
  let d3 := { d2 with sch := { d2.sch with egress := [], pending := [], forgive := [], pcs := [] } }
  let d4 := (d3.liveEntries 0x2A).foldl (fun x q =>
    (((x.setVtime q 0).setCredit q 0).wr (F.QPCLS_SAMPLE_DEPTH.at q).addr 0).wr (F.QPCLS_HWM_DEPTH.at q).addr 0) d3
  let d5 := (d4.liveEntries 0x2B).foldl (fun x e => ((x.setEgrTag e 0).setEgrV (e / 64) 0).put (F.QEGR_HWM_PEAK.at e) 0) d4
  (((d5.reloadPage 0x29).reloadPage 0x2A).reloadPage 0x2B).burstLevels

/-! ### Commands -/

/-- What refuses a QSCH_FLUSH. -/
def qschFlushConds (e : Entry) : List (Bool × Nat) := [(decide (16383 < e.p2 0) || !e.zeroFrom 2, 0x01)]

/-- QSCH_FLUSH (opcode 0x0600): every frame of a flow completes with FLUSHED; the tag stays (R426). -/
def Dev.cmdQschFlush (d : Dev) (src : Src) (e : Entry) : Dev :=
  let f := e.p2 0
  let code := oneCode (qschFlushConds e)
  if code ≠ 0 then d.finish src code []
  else (d.flushFlow f 19).finish src 0 (beBytes 4 (d.flowFrames f).length)

/-- QSCH_FLUSH (R426). -/
def execQschFlush (ring : Fin 8) (hseq : Nat) (s : State) : Host.Outcome State Fault Refusal :=
  runs s (fun d => d.runRow ring hseq 0x0600 Dev.cmdQschFlush)

/-- FRAME_SELECTION: a port selects its next frame, by class priority and weighted fair queueing (R418). -/
def execFrameSelection (port : Fin 32) (s : State) : Host.Outcome State Fault Refusal :=
  runs s (fun d => d.selectFrame port)

/-- CELL_SCAN: the scan of cell headers after a flow-record error returns the flow's cells to the pool (R424). -/
def execCellScan (s : State) : Host.Outcome State Fault Refusal :=
  runs s (fun d => { d.freeCells true d.sch.orphanCells with sch := { (d.freeCells true d.sch.orphanCells).sch with orphanCells := 0 } })

end Sys2Proof.Machine
end

