-- ==== Sys2Proof/Machine/MacTx.lean ====
section
/-! DEFINITION. Downlink frames in the MAC: next hop, predicted airtime, admission, window placement, channel access,
listen-before-talk, repeats, acknowledgments and the rolling hour (R305 to R321, R376, R402, R403). -/

namespace Sys2Proof.Machine

/-! ### Listen entries in force (R247) -/

/-- Word k of listen entry i of group g, in force. -/
def listenKey (g i k : Nat) : Nat := R.RXP_LDATA k + 2 ^ 20 * (g * 16 + i + 1)
def Dev.leWord (d : Dev) (g i k : Nat) : Nat := d.rd (listenKey g i k)
def Dev.leEn (d : Dev) (g i : Nat) : Bool := bit (d.leWord g i 0) 31
def Dev.leDeliver (d : Dev) (g i : Nat) : Nat := bits (d.leWord g i 0) 29 28
def Dev.lePhy (d : Dev) (g i : Nat) : Nat := bits (d.leWord g i 0) 15 8
def Dev.leCount (d : Dev) (g i : Nat) : Nat := bits (d.leWord g i 3) 6 0
def Dev.leFreq (d : Dev) (g i c : Nat) : Nat := d.leWord g i 1 + c * d.leWord g i 2

/-! ### Frames of a PAN (R277, R311, R403) -/

/-- OPTS of R285 from DL_OPTS, for a PHY (R311). -/
def dlOpts (phy dl : Nat) : Nat :=
  if !isSun phy then 0 else 2 * (if phy = 0x15 then dl % 4 else dl % 16)

/-- The airtime predicted for a frame as it stands (R277). -/
def Dev.predictUs (d : Dev) (t : Tx) : Nat :=
  airtimeUs t.phy t.opts t.preamble (d.txPsdu t) (profRamp (d.profile t.group t.phy))

/-- The least preamble of a PAN's frames, in octets (R291). -/
def Dev.panLeastPreamble (d : Dev) (p : Nat) : Nat := if d.panPreamble p = 0 then 8 else d.panPreamble p

/-! ### The next hop (R310, R311) -/

/-- What the next-hop rule finds for a destination: hop, its entry, and the path's sector, listen entry and channel. -/
structure Hop where
  handle : Nat
  entry : Nat
  path : Path

/-- The next hop of a destination handle; none where its PAN is disabled or the hop is not in the directory. -/
def Dev.nextHop (d : Dev) (h : Nat) : Dev × Option Hop :=
  let p := h / 65536
  if !d.panEn p then (d, none)
  else
    let (d1, path) := d.fwdLookup (d.panGroup p) h
    match path with
    | some x => (d1, (d1.validEntry x.relay).map (fun e => ⟨x.relay, e, x⟩))
    | none => (d1, (d1.validEntry h).map (fun e => ⟨h, e, ⟨h, d1.eSector e, d1.eEntry e, d1.eChan e⟩⟩))

/-- Whether a path's listen entry can carry a downlink (R311). -/
def Dev.pathUsable (d : Dev) (g : Nat) (x : Path) : Bool :=
  d.leEn g x.entry && d.leDeliver g x.entry == 0 && decide (x.chan < d.leCount g x.entry)

/-- A unicast frame takes the port, PHY, frequency, options and power of its path (R311); where the listen entry cannot be
used yet, the PAN's PHY stands in for the prediction of R403. -/
def Dev.onPath (d : Dev) (t : Tx) (x : Hop) : Tx :=
  let p := t.pan.getD 0
  let g := d.panGroup p
  let phy := if d.pathUsable g x.path then d.lePhy g x.path.entry else d.panPhy p
  { t with
    hop := some x.handle, port := 8 * g + x.path.sector, entry := x.path.entry, chan := x.path.chan, phy := phy,
    freq := d.leFreq g x.path.entry x.path.chan, opts := dlOpts phy (d.panDlOpts p),
    preamble := if isSun phy then d.panLeastPreamble p else 0, power := d.panTxPower p }

/-- Measure and cells of a frame at step 2 (R403, R404). -/
def Dev.sized (d : Dev) (t : Tx) : Tx :=
  let a := d.predictUs t
  { t with airtime := a, measure := min a 1048575, cells := cellsFor (d.txPsdu t) }

/-- Step 2 for the frames of one command or packet: their port is resolved, then they are admitted (R402, R407). -/
def Dev.admission (d : Dev) (ts : List Tx) : Dev :=
  match ts with
  | [] => d
  | t :: _ =>
    match t.dest with
    | none => d.admitAll (ts.map (fun x => d.sized x))
    | some h =>
      if !d.enabled 0x28 then d.admitAll ts
      else
        let (d1, hop) := d.nextHop h
        match hop with
        | none => d1.refuseAll ts t.flow 11
        | some x => d1.admitAll (ts.map (fun y => d1.sized (d1.onPath y x)))

/-! ### Windows (R308 to R310) -/

/-- One wake period, in 10^-8 µs, with the node's drift. -/
def Dev.periodUnits (d : Dev) (p e : Nat) : Nat :=
  ((d.panWakePeriod p * 1000 : Nat) * (100000000 + (d.eDrift e).getD 0)).toNat

/-- u + JITTER_US of R308 for a PHY, in µs times the PHY's symbol rate: u is 10 symbol periods. -/
def Dev.slackRate (d : Dev) (p phy : Nat) : Nat := 10 ^ 7 + d.panJitter p * phyRate phy

/-- du(x) of R308, in 0.01 ppm rounded up. A SPAN of 0 leaves the rule's quotient open. -/
def Dev.driftUnc (d : Dev) (p e phy : Nat) : Nat :=
  if (d.eDrift e).isNone || d.eAdrift e then 4000
  else
    let x := 200 * d.slackRate p phy
    let y := phyRate phy * d.eSpan e
    let q := if y = 0 then Config.duZeroSpan x else (x + y - 1) / y
    max (d.get (F.MAC_TIMING_U_MIN (d.panGroup p))) q

/-- The guard of window k, in µs rounded up (R308). -/
def Dev.guardUs (d : Dev) (p e phy k : Nat) : Nat :=
  let y := phyRate phy * 10 ^ 16
  (d.slackRate p phy * 10 ^ 16 + d.driftUnc p e phy * (k * d.periodUnits p e) * phyRate phy + y - 1) / y

/-- Start of window k after ANCHOR, in µs rounded up. -/
def Dev.windowUs (d : Dev) (p e k : Nat) : Nat := (k * d.periodUnits p e + 99999999) / 100000000

/-- µs since ANCHOR, 0 while it is ahead; and µs until one that is ahead. -/
def Dev.sinceAnchor (d : Dev) (a : Nat) : Nat := (sub36 d.monoUs a).toNat
def Dev.untilAnchor (d : Dev) (a : Nat) : Nat := (-sub36 d.monoUs a).toNat

/-- A window chosen: its number, the planned ramp start in monotonic µs, the preamble in octets, and the ANCHOR it counts from. -/
structure Placed where
  k : Nat
  planned : Nat
  preamble : Nat
  anchor : Nat

/-- The first window from k on whose planned ramp start, in µs after ANCHOR, is not before `early` (R310, steps 2 to 4). -/
def Dev.placeFrom (d : Dev) (p e phy ramp early k : Nat) : Nat → Option (Nat × Nat × Nat)
  | 0 => none
  | n + 1 =>
    let g := d.guardUs p e phy k
    let w := d.windowUs p e k
    let fsk := phy != 0x01
    if (fsk && decide (early + g + ramp ≤ w)) || (!fsk && decide (early + ramp ≤ w + g)) then
      let l := max (d.panLeastPreamble p) ((2 * g * phyRate phy + octetSymbols phy * 10 ^ 6 - 1) / (octetSymbols phy * 10 ^ 6) + 4)
      if fsk then (if l ≤ 1000 then some (k, w - g - ramp, l) else none)
      else if 2 * g + 160 ≤ d.panWindowUs p then some (k, w + g - ramp, 0) else none
    else d.placeFrom p e phy ramp early (k + 1) n

/-- The earliest usable window of a next hop, from window kmin on (R310). -/
def Dev.pickWindow (d : Dev) (t : Tx) (e kmin : Nat) : Option Placed :=
  match d.eAnchor e with
  | none => none
  | some a =>
    let p := t.pan.getD 0
    let since := d.sinceAnchor a
    let early := since + (d.earliestUs t - d.monoUs) - d.untilAnchor a
    let k0 := early * 100000000 / d.periodUnits p e
    let ramp := profRamp (d.profile t.group t.phy)
    (d.placeFrom p e t.phy ramp early (max (max 1 kmin) k0) 200).map
      (fun x => ⟨x.1, d.monoUs + d.untilAnchor a + x.2.1 - since, x.2.2, a⟩)

/-- The number that a frame's window bears now: a later frame of the node may have moved ANCHOR by whole wake periods (R307, R310). -/
def Dev.windowNow (d : Dev) (t : Tx) (e : Nat) : Nat :=
  match d.eAnchor e with
  | some a =>
    let unit := d.periodUnits (t.pan.getD 0) e
    if unit = 0 then t.window else t.window - (2 * (sub36 a t.anchor).toNat * 100000000 + unit) / (2 * unit)
  | none => t.window

/-- R309 for a node: found adrift, it is flagged, recorded and raised once. The Bool says that it is newly adrift. -/
def Dev.adriftCheck (d : Dev) (h e : Nat) : Dev × Bool :=
  let p := h / 65536
  let d0 := d.touchTiming e
  let old := match d0.eLastAge e with
    | none => true
    | some a => decide (3 * d0.panCheckin p < a * 64)
  if 0 < d0.panCheckin p ∧ old = true ∧ d0.eAdrift e = false then
    let g := d0.panGroup p
    let d1 := d0.setLineBits e 0 34 34 1
    (((d1.bump (F.MAC_ADRIFT_LAST_COUNT g) 1).put (F.MAC_ADRIFT_LAST_HANDLE g) h).raise (0x18 + g) 2, true)
  else (d0, false)

/-! ### The rolling hour (R313) -/

def Dev.dutyHour (d : Dev) (s : Nat) : Nat := (d.ra.duty.getD s []).sum
def Dev.dutyReserved (d : Dev) (s self : Nat) : Nat :=
  ((d.ra.txs.filter (fun t => t.id != self && t.vslot == s)).map (fun t => t.dutyRes)).sum
def SlotRec.budgetUs (r : SlotRec) : Nat := r.duty * 360000

/-! ### Channel access (R312 to R316) -/

/-- Stage 3 begins: an initial backoff for an untimed frame of an LBT slot, else step 5 (R315). -/
def Dev.stage3 (d : Dev) (t : Tx) (lbt : Bool) : Dev :=
  if lbt then
    if t.timed then d.txLast t.id (fun x => { x with stage := .step5, be := 0, nb := 0 })
    else d.txUpd t.id (fun x => { x with stage := .backoff, be := d.get (F.MAC_LBT_MIN_BE t.group), nb := 0 })
  else d.txLast t.id (fun x => { x with stage := .step5 })

/-- Stage 2: duty and occupancy, with their reservations (R216, R313). -/
def Dev.stage2 (d : Dev) (t : Tx) : Dev :=
  match d.ra.vault.inForce, d.slotFor t.group t.freq with
  | some n, some s =>
    let r := d.slotRec n s
    let keep := d.get (F.MAC_DUTY_CFG_ACK_RESERVE t.group) * 360000
    let start := if t.timed then t.planned else d.planUs t
    let ch := (r.channel t.freq).getD 64
    let d0 := d.txUpd t.id (fun x => { x with vslot := s, vchan := ch })
    if r.budgetUs < d.dutyHour s + d.dutyReserved s t.id + t.airtime + keep then
      ((d0.bump (F.MAC_COUNT_MISC_DUTY_HELD t.group) 1).raise (0x18 + t.group) 0).holdTx t .dutyHeld
    else
      let occ := d.occCheck r s ch start t.airtime t.id
      if occ.1 then
        (d0.txUpd t.id (fun x => { x with dutyRes := t.airtime, occRes := occ.2 })).stage3 t r.lbtEn
      else (d0.raise (0x18 + t.group) 0).holdOcc t .occHeld r.occWindow
  | _, _ => d.stage3 t false

/-- A BLOCK of the pawn chain, which is never timed (R503). -/
def isPawnBlock (t : Tx) : Bool :=
  t.kind == .pawn && (match t.frame with
    | some f => f.payload.getD 1 0 == 1
    | none => false)

/-- Stage 1 for a unicast frame: its next hop again, then its window (R310, R311, R376); its port is that of step 2 (R402; log entry
122). `kmin` is the first window it may
take; the Bool of the answer says that it goes on. -/
def Dev.stage1 (d : Dev) (t : Tx) (kmin : Nat) : Dev × Option Tx :=
  match t.dest with
  | none =>
    let t1 := { t with airtime := d.predictUs t }
    (d.txUpd t.id (fun x => { x with airtime := t1.airtime, stage := .step4 }), some { t1 with stage := .step4 })
  | some h =>
    let (d1, hop) := d.nextHop h
    match hop with
    | none => (d1.txFinish t 0x11 11 false 0, none)
    | some x =>
      let p := h / 65536
      let d2 := (d1.adriftCheck x.handle x.entry).1
      let held := (d2.txUpd t.id (fun y => { y with stage := .awaitNode, hop := some x.handle }), (none : Option Tx))
      if !d2.eHeard x.entry || (!t.sent && !d2.pathUsable (d2.panGroup p) x.path) then held
      else
        let t1 := if t.sent then { t with hop := some x.handle } else { d2.onPath t x with port := t.port }
        if d2.panWakePeriod p = 0 ∨ isPawnBlock t = true then
          let t2 := { t1 with airtime := d2.predictUs t1, timed := false, stage := .step4 }
          (d2.txUpd t.id (fun _ => t2), some t2)
        else match d2.pickWindow t1 x.entry kmin with
          | none => held
          | some w =>
            let t2 := { t1 with timed := true, planned := w.planned, window := w.k, preamble := w.preamble, anchor := w.anchor, stage := .step4 }
            let t3 := { t2 with airtime := d2.predictUs t2 }
            let d3 := d2.txUpd t.id (fun _ => t3)
            if d2.monoUs + 250 < w.planned then (d3, none) else (d3, some t3)

/-- CHANNEL_ACCESS for one frame: stages 1 and 2, and the start of stage 3. -/
def Dev.channelAccess (d : Dev) (t : Tx) : Dev :=
  let (d1, t1) := d.stage1 t 0
  match t1 with
  | some x => d1.stage2 x
  | none => d1

/-- The next hop has been heard: frames that wait for it are placed again (R310, steps 1 and 5; R376). -/
def Dev.nodeHeard (d : Dev) (h : Nat) : Dev :=
  (d.ra.txs.filter (fun t => t.stage == .awaitNode && t.hop == some h)).foldl (fun x t => x.channelAccess t) d

/-- Frames held for duty are checked again, in the order first held (R313). -/
def Dev.recheckDuty (d : Dev) : Dev :=
  (d.heldList .dutyHeld).foldl (fun x t =>
    match x.ra.vault.inForce, x.slotFor t.group t.freq with
    | some n, some s =>
      let r := x.slotRec n s
      if r.budgetUs < x.dutyHour s + x.dutyReserved s t.id + t.airtime + x.get (F.MAC_DUTY_CFG_ACK_RESERVE t.group) * 360000 then x
      else x.channelAccess t
    | _, _ => x.channelAccess t) d

/-- A later occupancy window of a held frame's slot has begun. -/
def Dev.occLater (d : Dev) (t : Tx) : Bool :=
  match d.slotInForce t.vslot with
  | some r => decide (t.occNext ≤ d.monoUs / (r.occWindow * 1000))
  | none => true

/-- Frames held for occupancy are checked again at the start of each later window (R216). -/
def Dev.recheckOcc (d : Dev) : Dev :=
  let d1 := ((d.heldList .occHeld).filter (fun t => d.occLater t)).foldl (fun (x : Dev) t => x.channelAccess t) d
  ((d1.heldList .occHeld5).filter (fun t => d1.occLater t)).foldl (fun (x : Dev) t => x.step5 { t with stage := .step5 }) d1

/-- Step 4 of R39: airtime of the ended tempo is added to the current bins, and held frames are checked again (R313). -/
def Dev.dutyClose (d : Dev) : Dev :=
  let add := (List.range 32).map (fun s =>
    let b := d.ra.duty.getD s []
    setAt b 0 (b.getD 0 0 + d.ra.dutyEnded.getD s 0))
  ({ d with ra := { d.ra with duty := add, dutyEnded := List.replicate 32 0 } }).recheckDuty

/-- Minute boundaries within a SLEEP age the bins (R314). -/
def Dev.dutyAge (d : Dev) (n : Nat) : Dev :=
  { d with ra := { d.ra with duty := d.ra.duty.map (fun b => (List.replicate (min n 60) 0 ++ b).take 60) } }

/-! ### Meanings -/

/-- MINUTE_BIN_ROLL: at the closure of a tempo whose T meets (T + 1) mod 240,000 = 0, once, the oldest bin of every slot is
dropped and a new one begins (R313). -/
def execMinuteBinRoll (s : State) : Host.Outcome State Fault Refusal :=
  runs s (fun d => if d.awake ∧ d.tempo % 240000 = 0 ∧ d.ra.rolledT < d.tempo then
      { d with ra := { d.ra with duty := d.ra.duty.map (fun b => (0 :: b).take 60), rolledT := d.tempo } }
    else d)

/-- OCC_WINDOW_START: frames held for occupancy are checked again at the start of a window (R216). -/
def execOccWindowStart (s : State) : Host.Outcome State Fault Refusal := runs s (fun d => d.recheckOcc)

/-- BACKOFF_EXPIRY: a backoff ends. The initial one leads to step 5; a later one leads back to release, with another check of the
channel, for a timed frame in a later window (R315). A frame whose delay line has gone to another meanwhile fills it again (R283). -/
def execBackoffExpiry (id : Nat) (power : List (Option Int)) (grant : Bool) (s : State) : Host.Outcome State Fault Refusal :=
  runs s (fun d => match d.tx id with
    | some t =>
      if t.stage ≠ .backoff then d
      else if t.nb = 0 then d.txLast id (fun x => { x with stage := .step5 })
      else if t.timed then
        let (n, d1) := d.draw
        let b := Config.freeNat n % 2 ^ t.be
        match t.hop.bind d1.validEntry with
        | none => d1.txFinish t 0x11 11 false 0
        | some e => match d1.pickWindow t e (d1.windowNow t e + 1 + b) with
          | none => d1.txUpd id (fun x => { x with stage := .awaitNode, filling := false })
          | some w =>
            d1.txUpd id (fun x => { x with stage := .voted, planned := w.planned, window := w.k, preamble := w.preamble, anchor := w.anchor,
                                           filling := false })
      else if (d.slotTx t.port).isSome then d.txUpd id (fun x => { x with stage := .voted })
      else
        let d1 := d.slotEnter t
        match d1.tx id with
        | some u => if d1.releasable u then (d1.sampleGrant u grant).release u ⟨power, grant⟩ (d1.turnaroundNs u) else d1
        | none => d1
    | none => d)

/-- LBT_NEW_ROUND: after 1 tempo, or at the next usable window, a new round starts at stage 2, with the airtime of the preamble that its window
needs (R313, R316). -/
def execLbtNewRound (id : Nat) (s : State) : Host.Outcome State Fault Refusal :=
  runs s (fun d => match d.tx id with
    | some t =>
      if t.stage ≠ .newRound ∨ (t.timed = false ∧ d.tempo < t.readyT) then d
      else if t.timed then
        match t.hop.bind d.validEntry with
        | none => d.txFinish t 0x11 11 false 0
        | some e => match d.pickWindow t e (d.windowNow t e + 1) with
          | none => d.txUpd id (fun x => { x with stage := .awaitNode })
          | some w =>
            let t1 := { t with planned := w.planned, window := w.k, preamble := w.preamble, anchor := w.anchor, stage := .step4 }
            let t2 := { t1 with airtime := d.predictUs t1 }
            (d.txUpd id (fun _ => t2)).stage2 t2
      else d.stage2 t
    | none => d)

/-- Whether a received frame is an acknowledgment that a transmission waits for (R320). -/
def Tx.awaits (t : Tx) (f : RxFrame) : Bool :=
  t.stage == .ackWait && f.frame.ftype == 2 && t.port == f.port && t.freq == f.freq && (match t.frame with
    | some x => x.seq == f.frame.seq
    | none => false)

/-- A secured acknowledgment that arrived within the wait stands in its pipeline for step 4 (R320, R341). -/
def Dev.ackQueued (d : Dev) (t : Tx) : Bool := (d.rx.queues.getD t.group []).any (fun f => t.awaits f)

/-- ACK_WAIT_EXPIRY: no acknowledgment came; the frame is repeated, or completes with NO_ACK (R320). An Association Response
is never repeated. -/
def execAckWaitExpiry (id : Nat) (s : State) : Host.Outcome State Fault Refusal :=
  runs s (fun d => match d.tx id with
    | some t =>
      if t.stage ≠ .ackWait ∨ d.ackQueued t = true then d
      else if d.get (F.MAC_ACK_MAX_RETRIES t.group) ≤ t.retries then d.txFinish t 0x03 10 true t.airtime
      else d.txUpd id (fun x => { x with stage := .repeating, retries := x.retries + 1, rounds := 0, nb := 0, index := none, readyT := d.tempo + 1 })
    | none => d)

end Sys2Proof.Machine
end

