-- ==== Sys2Proof/Machine/Mac.lean ====
section
/-! DEFINITION. Medium access, association and flooding (11): observation of nodes, association, beacons, peers, the
Scoresheet, floods and the commands of R327, with TX_RAW (R285). -/

namespace Sys2Proof.Machine

/-! ### Observation of a node (R306, R307) -/

/-- a / b rounded to the nearest integer. -/
def roundDiv (a : Int) (b : Nat) : Int := if b = 0 then 0 else (2 * a + b) / (2 * b : Nat)

/-- ANCHOR written, in µs. -/
def Dev.setAnchor (d : Dev) (e s : Nat) : Dev := (d.setMem (timingAddr e) (s % 2 ^ 36)).setMemBits (timingAddr e + 1) 7 7 1
def Dev.dropDrift (d : Dev) (e : Nat) : Dev := d.setLineBits e 3 12 0 0x1000

/-- restart(x, s) of R307. -/
def Dev.restartTiming (d : Dev) (g e s : Nat) : Dev :=
  ((d.setAnchor e s).dropDrift e).bump (F.MAC_TIMING_STAT_RESETS g) 1

/-- An observation of window start s, in µs, of the node at entry e, from a frame of a PHY (R307). One before ANCHOR counts no window since it. -/
def Dev.observe (d : Dev) (p e phy s : Nat) : Dev :=
  let g := d.panGroup p
  let p0 := d.panWakePeriod p * 1000
  match d.eAnchor e with
  | none => (d.setAnchor e s).dropDrift e
  | some a =>
    let dt := (sub36 s a).toNat
    let d0 : Int := (d.eDrift e).getD 0
    let unit : Nat := ((p0 : Int) * (100000000 + d0)).toNat
    let n := (2 * dt * 100000000 + unit) / (2 * unit)
    if n = 0 then d.setAnchor e s
    else if p0 * 100000000 ≤ 2 * d.driftUnc p e phy * dt then d.restartTiming g e s
    else
      let num : Int := ((dt : Int) - (n * p0 : Nat)) * 100000000
      let den := n * p0
      if 4000 * den < num.natAbs then d.restartTiming g e s
      else
        let d1 := match d.eDrift e with
          | none =>
            (d.setLineBits e 3 12 0 (ofSigned 13 (roundDiv num den))).setMemBits (timingAddr e + 1) 35 20 (dt / 1000000)
          | some old =>
            let sp := d.eSpan e * 1000000
            let new := roundDiv (old * (den * (sp + dt) : Nat) + (num - old * (den : Nat)) * dt) (den * (sp + dt))
            (d.setLineBits e 3 12 0 (ofSigned 13 new)).setMemBits (timingAddr e + 1) 35 20
              (min ((sp + dt) / 1000000) (d.get (F.MAC_TIMING_SPAN_MAX g)))
        d1.setAnchor e s

/-- Step 7 of R27 for a frame of the node at entry e, of handle h: LAST, PORT and CHANNEL, ADRIFT, and its observation if it
carries a CSL IE. `m` is the monotonic time of the frame, in core cycles. -/
def Dev.nodeSeen (d : Dev) (h e sector entry chan phy m : Nat) (csl : Option (Nat × Nat)) : Dev :=
  let p := h / 65536
  let d0 := d.touchTiming e
  let d1 := (((d0.setLineBits e 0 34 34 0).setLineBits e 0 5 0 chan).setLineBits e 1 3 0 entry).setLineBits e 2 2 0 sector
  let d2 := (d1.setMemBits (timingAddr e + 1) 19 8 (m / 25600000000 % 4095)).setMemBits (timingAddr e + 1) 6 6 1
  match csl with
  | none => d2
  | some (phase, period) =>
    let u := 10 ^ 10
    let w := d2.panWakePeriod p * 1000000 * phyRate phy
    if w = 0 then d2
    else if u < period * u - w ∨ u < w - period * u then d2.bump (F.MAC_TIMING_STAT_PERIOD_MISMATCH (d2.panGroup p)) 1
    else d2.observe p e phy (phaseUs phy m phase)

/-- The Time Correction of an Enh-Ack to a node with an ANCHOR: observed window start minus predicted, in µs, clamped (R318, R378). The
rule states no value for a frame without a CSL IE (log entry 123). -/
def Dev.timeCorrection (d : Dev) (p e phy m : Nat) (csl : Option (Nat × Nat)) : Option Int :=
  match (d.touchTiming e).eAnchor e, csl with
  | some a, some (phase, _) =>
    let unit := d.periodUnits p e
    let dt := sub36 (phaseUs phy m phase) a
    let x : Int := dt - roundDiv (roundDiv (dt * 100000000) unit * unit) 100000000
    some (max (-2047) (min 2047 x))
  | some _, none => some (max (-2047) (min 2047 (Config.timeCorrNoCsl e m)))
  | none, _ => none

/-! ### Sequence numbers -/

def Dev.nextMacSeq (d : Dev) (p : Nat) : Nat × Dev :=
  let s := d.ra.macSeq.getD p 0
  (s, { d with ra := { d.ra with macSeq := setAt d.ra.macSeq p ((s + 1) % 256) } })
def Dev.nextBeaconSeq (d : Dev) (p : Nat) : Nat × Dev :=
  let s := d.ra.beaconSeq.getD p 0
  (s, { d with ra := { d.ra with beaconSeq := setAt d.ra.beaconSeq p ((s + 1) % 256) } })

/-! ### Association (R128 to R130, R294) -/

/-- retry_after of R130, in seconds. -/
def retryAfter (x : Nat) : Nat :=
  1 + (bits x 63 48 ^^^ bits x 47 32 ^^^ bits x 31 16 ^^^ bits x 15 0) % 30

/-- The Opening (R127). -/
def Dev.opening (d : Dev) : Bool := decide (d.tempo < 4000)

/-- A request denied: the new address, status and retry time of its response. -/
def Dev.assocDeny (d : Dev) (st : Nat) (r : Option Nat) : Dev × Nat × Nat × Option Nat :=
  (d.evt (ev 3 17) 1, 0xFFFF, st, r)

/-- A request granted. -/
def Dev.assocGrant (d : Dev) (g h : Nat) : Dev × Nat × Nat × Option Nat :=
  (((d.put (F.MAC_ASSOC_LAST_HANDLE g) h).raise (0x18 + g) 4).evt (ev 3 16) 1,
    h % 65536, 0, none)

/-- A node created during an opening counts against ADMIT (R128, R131). -/
def Dev.assocCount (d : Dev) : Dev :=
  if d.opening then { d with ra := { d.ra with admitUsed := d.ra.admitUsed + 1 } }.bump F.SYS_OPEN_STAT_ADMITTED 1 else d

/-- A directory entry is created for a requester at the address allocated, or the request is denied (R293, R294). -/
def Dev.assocCreate (d : Dev) (p x a : Nat) (e : NewEntry) : Dev × Nat × Nat × Option Nat :=
  let x1 := d.createEntry e
  if x1.2 ≠ 0 then x1.1.assocDeny 1 (some (retryAfter x))
  else (x1.1.setCursor p a).assocCount.assocGrant (d.panGroup p) (p * 65536 + a)

/-- The requester is new: ADMIT of its PAN and of the opening, then an address (R128, R131, R293). -/
def Dev.assocNew (d : Dev) (p x : Nat) (heard : Nat × Nat × Nat) (key : Option Nat) (hwm : Option Nat) (seq : Nat) :
    Dev × Nat × Nat × Option Nat :=
  if d.panAdmit p = 0 then d.assocDeny 2 none
  else if d.is F.SYS_OPENING_HOLD_ASSOC ∨ (d.opening ∧ d.ra.admitLimit ≤ d.ra.admitUsed) then
    (d.bump F.SYS_OPEN_STAT_REFUSED 1).assocDeny 1 (some (retryAfter x))
  else if !d.enabled 0x20 then (d.dirFull 1 0x7FFFFF).assocDeny 1 (some (retryAfter x))
  else match d.nextAddr p with
    | none => (d.dirFull 4 0x7FFFFF).assocDeny 1 (some (retryAfter x))
    | some a => d.assocCreate p x a
      { handle := p * 65536 + a, ext := x, key := key, keyBits := key.getD 0, hwm := hwm, lastSeq := seq, heard := some heard }

/-- The handle of a node already in the directory under its extended address. -/
def Dev.knownHandle (d : Dev) (p x : Nat) : Option Nat :=
  (if d.enabled 0x20 then (d.lookupExt p x).1 else none).bind d.handleOf

/-- An Association Request of extended address x to PAN p (R294): short address, status, retry-after, in that order; the
handle's directory entry is created where the table says so. -/
def Dev.associate (d : Dev) (p x : Nat) (heard : Nat × Nat × Nat) (key : Option Nat) (hwm : Option Nat) (seq : Nat) :
    Dev × Nat × Nat × Option Nat :=
  match d.knownHandle p x with
  | some h => d.assocGrant (d.panGroup p) h
  | none => d.assocNew p x heard key hwm seq

/-! ### Beacons (R297 to R300) -/

/-- The beacon of a PAN (R298, R299). -/
def Dev.beaconFrame (d : Dev) (p : Nat) : Dev × MacFrame :=
  let (s, d1) := d.nextBeaconSeq p
  let flags := b2n d.opening + 2 * b2n (d.panAdmit p == 1) + 4 * d.get F.SYS_OPENING_HOLD_ASSOC
  let ie : BeaconIe := { flags := flags, brId := Config.brId.toNat, interval := d.panBeaconInt p, blocks := d.panBlocks p }
  (d1, { MacFrame.blank with ftype := 0, seq := s, panId := d.panId p, src := .short 0, ies := ie.octets ++ ieEnd })

/-- A broadcast-channel transmission of a PAN on a port. -/
def Dev.panTx (d : Dev) (p port : Nat) (kind : TxKind) (stage : TxStage) (f : MacFrame) : Tx :=
  { Tx.blank with
    kind := kind, stage := stage, port := port, phy := d.panPhy p, opts := dlOpts (d.panPhy p) (d.panDlOpts p),
    preamble := if isSun (d.panPhy p) then d.panLeastPreamble p else 0, freq := d.panBeaconFreq p, power := d.panTxPower p,
    pan := some p, frame := some f, dueT := d.tempo }

/-- A beacon of PAN p enters step 4 on a port. -/
def Dev.sendBeacon (d : Dev) (p port : Nat) : Dev :=
  let (d1, f) := d.beaconFrame p
  d1.txAdd { d1.sized (d1.panTx p port .beacon .step4 f) with cells := 0 }

/-- An Enhanced Beacon Request or Beacon Request heard on a port: each PAN of its sector sends one more beacon, at most once
in 40 tempos (R300). -/
def Dev.beaconRequest (d : Dev) (port : Nat) : Dev :=
  (List.range 128).foldl (fun x p =>
    if x.panEn p ∧ x.panGroup p = portGroup port ∧ bit (x.panPorts p) (portSector port) = true ∧ !x.noGrants
        ∧ !(x.ra.extraBeacons.any (fun b => b.1 == p && b.2.1 == port && decide (x.tempo < b.2.2 + 40))) then
      { x with ra := { x.ra with extraBeacons :=
          (p, port, x.tempo) :: x.ra.extraBeacons.filter (fun b => !(b.1 == p && b.2.1 == port)) } }.sendBeacon p port
    else x) d

/-! ### Peers (R301 to R304) -/

def Dev.setPeer (d : Dev) (x : Peer) : Dev :=
  { d with ra := { d.ra with peers := x :: d.ra.peers.filter (fun y => y.index != x.index) } }
def Dev.peer (d : Dev) (i : Nat) : Option Peer := d.ra.peers.find? (fun x => x.index == i)

/-- The enabled PAN that a peer's blocks concern. -/
def Dev.peerPan (d : Dev) (x : Peer) : Option Nat := d.panOf x.group x.panId

/-- A peer's beacon creates or refreshes its record where one is free, and its blocks are checked whenever it arrives (R301, R304). -/
def Dev.peerBeacon (d : Dev) (g panId : Nat) (b : BeaconIe) : Dev :=
  let conflict := fun (x : Dev) =>
    match x.panOf g panId with
    | some p => if x.panBlocks p &&& b.blocks ≠ 0 then x.raise (0x18 + g) 6 else x
    | none => x
  if b.brId = Config.brId.toNat then d
  else match d.ra.peers.find? (fun x => x.brId == b.brId && x.panId == panId) with
    | some x => conflict (d.setPeer { x with group := g, interval := b.interval, blocks := b.blocks, heardT := d.tempo, state := 1 })
    | none =>
      match (List.range 64).find? (fun i => (d.peer i).isNone) with
      | none => conflict (d.bump (F.MAC_PEER_SEL_FULL g) 1)
      | some i => conflict (d.setPeer { index := i, brId := b.brId, panId := panId, group := g, interval := b.interval,
                                        blocks := b.blocks, heardT := d.tempo, state := 1, absentT := 0 })

/-- Adoption (R303): the peer's blocks join the PAN's, and the descriptor is saved. -/
def Dev.adopt (d : Dev) (x : Peer) (p : Nat) : Dev :=
  let m := d.panBlocks p ||| x.blocks
  let d1 := (d.setPanWord p 7 (m / 2 ^ 32)).setPanWord p 8 (m % 2 ^ 32)
  let key := fun k => R.MAC_PAN_DATA 0 k + 2 ^ 20 * (p + 1)
  let d2 := (List.range 9).foldl (fun y k => y.save (key k)) d1
  d2.setPeer { x with state := 4 }

/-! ### The Scoresheet and floods (R322 to R326) -/

def sheetAddr (i e : Nat) : Nat := 0x01A00000 + 4 * i + 2 * e
def sheetLine (h : FloodHdr) : Nat := (h.originPan * 2 ^ 32 + h.originShort * 2 ^ 16 + h.fseq) % 524287
def Dev.stampNow (d : Dev) : Nat := d.tempo / 4000 % 32768
def Dev.sheetAge (d : Dev) (a : Nat) : Nat := (d.stampNow + 32768 - d.memBits (a + 1) 14 0) % 32768
def Dev.sheetLive (d : Dev) (a : Nat) : Bool := d.memBits a 35 35 == 1 && decide (d.sheetAge a < d.get F.SHEET_CFG_HOLD_S)
def Dev.sheetMatch (d : Dev) (a : Nat) (h : FloodHdr) : Bool :=
  d.sheetLive a && d.memBits a 31 16 == h.originPan && d.memBits a 15 0 == h.originShort && d.memBits (a + 1) 35 20 == h.fseq

/-- Whether a Flood Header is one of R322. -/
def FloodHdr.ok (h : FloodHdr) : Bool := h.flags / 16 == 1 && h.flags % 8 == 0 && decide (h.ttl ≤ 31)
def FloodHdr.down (h : FloodHdr) : Bool := bit h.flags 3

/-- The Scoresheet's answer to a flood (R324): the entry written, or none where it was seen. -/
def Dev.sheetCheck (d : Dev) (h : FloodHdr) : Dev × Option Nat :=
  let a0 := sheetAddr (sheetLine h) 0
  let a1 := sheetAddr (sheetLine h) 1
  match [a0, a1].find? (fun a => d.sheetMatch a h) with
  | some a =>
    ((((d.setMemBits a 34 32 (min (d.memBits a 34 32 + 1) 7)).bump F.SHEET_COUNT_A_SEEN 1).evt (ev 5 1) 1), none)
  | none =>
    let free := [a0, a1].find? (fun a => !d.sheetLive a)
    let slot := free.getD (if d.sheetAge a0 < d.sheetAge a1 then a1 else a0)
    let d1 := if free.isNone then d.bump F.SHEET_COUNT_C_EVICT 1 else d
    let d2 := (d1.setMem slot (2 ^ 35 + h.originPan * 2 ^ 16 + h.originShort)).setMem (slot + 1)
      (h.fseq * 2 ^ 20 + h.ttl * 2 ^ 15 + d1.stampNow)
    ((d2.bump F.SHEET_COUNT_A_NEW 1).evt (ev 5 0) 1, some slot)

/-- Copies of a flood, its payload IEs and payload given, enter step 2 on each port of a PAN (R325); the answer holds the number
queued. -/
def Dev.floodCopies (d : Dev) (p : Nat) (ies payload : List Byte) : Dev × Nat :=
  ((List.range 8).filter (fun s => bit (d.panPorts p) s)).foldl (fun (x : Dev × Nat) s =>
    let (q, d1) := x.1.nextMacSeq p
    let f := { MacFrame.blank with seq := q, panId := d1.panId p, dst := .short 0xFFFF, src := .short 0, ies := ies, payload := payload }
    let t := { d1.panTx p (8 * d1.panGroup p + s) .flood .step2 f with flow := d1.get F.SHEET_RELAY_FLOW_FLOW }
    let id := d1.ra.nextTx
    let d2 := d1.txAdd t
    let d3 := d2.admitAll [d2.sized { t with id := id }]
    (d3, x.2 + b2n (d3.tx id).isSome)) (d, 0)

/-- A relay is scheduled, its delay drawn from 0 to MAX_US (R325). -/
def Dev.scheduleRelay (d : Dev) (g : Nat) (pan : Option Nat) (h : FloodHdr) (f : MacFrame) (slot : Nat) : Dev :=
  let (n, d1) := d.draw
  let us := Config.freeNat n % (d1.get F.SHEET_RELAY_JITTER_MAX_US + 1)
  { d1 with ra := { d1.ra with
      relays := d1.ra.relays ++ [Relay.mk d1.ra.nextRelay g pan h f slot us], nextRelay := d1.ra.nextRelay + 1 } }

/-! ### Commands (R285, R327) -/

/-- Whether a buffer of n packed bytes lies in the host-defined region. -/
def bufOk (buf n : Nat) : Bool := inHostRegion buf (packedWords n)

/-- A unicast MAC frame of PAN p for short address a. -/
def Dev.dataFrame (d : Dev) (p a seq : Nat) (ack : Bool) (payload : List Byte) : MacFrame :=
  { MacFrame.blank with
    ackReq := ack, seq := seq, panId := d.panId p, dst := .short a, src := .short 0, payload := payload }

/-- Octets of a MAC_SEND frame with the security its node's PAN sets. -/
def Dev.dataPsdu (d : Dev) (h n : Nat) : Nat :=
  let p := h / 65536
  let t := { Tx.blank with kind := .data, pan := some p, dest := some h, phy := d.panPhy p,
                           opts := dlOpts (d.panPhy p) (d.panDlOpts p),
                           frame := some (d.dataFrame p (h % 65536) 0 false (List.replicate n 0)) }
  d.txPsdu t

/-- A transmit command that is refused: its completion, and DONE with NOTIFY set (R286). -/
def Dev.txRefused (d : Dev) (src : Src) (code cause : Nat) (notify : Bool) : Dev :=
  let d1 := d.finish src code (txResult cause none none 0 0)
  if notify then d1.raise 0x16 0 else d1

/-- What refuses a MAC_SEND (R327). -/
def Dev.macSendConds (d : Dev) (e : Entry) : List (Bool × Nat) :=
  let h := e.p4 0; let len := e.p2 6
  let p := h / 65536
  [(decide (2 ^ 23 ≤ h) || decide (16383 < e.p2 4) || len == 0 || decide (phyMaxPsdu (d.panPhy p) < d.dataPsdu h len)
      || !bufOk (e.p4 8) len || decide (3 < e.p1 12) || !e.zeroFrom 13, 0x01),
   (!d.panEn p, 0x03),
   ((d.validEntry h).isNone, 0x11)]

/-- What refuses a command whose PARAMS are the handle of a node: NODE_RELEASE and NODE_TIMING (R327). -/
def Dev.nodeConds (d : Dev) (e : Entry) : List (Bool × Nat) :=
  let h := e.p4 0
  [(decide (2 ^ 23 ≤ h) || !e.zeroFrom 4, 0x01), (!d.panEn (h / 65536), 0x03), ((d.validEntry h).isNone, 0x11)]

/-- MAC_SEND (opcode 0x0320). -/
def Dev.cmdMacSend (d : Dev) (src : Src) (e : Entry) : Dev :=
  let h := e.p4 0; let flow := e.p2 4; let len := e.p2 6; let buf := e.p4 8; let opts := e.p1 12
  let p := h / 65536
  let code := oneCode (d.macSendConds e)
  if code ≠ 0 then d.txRefused src code 0 (bit opts 1)
  else
    let (s, d1) := d.nextMacSeq p
    let f := d1.dataFrame p (h % 65536) s (bit opts 0) (d1.packed buf len)
    d1.txAdd { Tx.blank with
      src := src, kind := .data, stage := .step2, pan := some p, dest := some h, flow := flow, phy := d1.panPhy p,
      latest := e.latest, notify := bit opts 1, frame := some f }

/-- NODE_RELEASE (opcode 0x0321): a Disassociation Notification with reason 0x01 (R296). -/
def Dev.cmdNodeRelease (d : Dev) (src : Src) (e : Entry) : Dev :=
  let h := e.p4 0
  let p := h / 65536
  let code := oneCode (d.nodeConds e)
  if code ≠ 0 then d.finish src code (txResult 0 none none 0 0)
  else
    let (s, d1) := d.nextMacSeq p
    let f := { d1.dataFrame p (h % 65536) s true [0x01] with ftype := 3, cmd := some 3 }
    d1.txAdd { Tx.blank with
      src := src, kind := .release, stage := .step2, pan := some p, dest := some h, flow := d1.get F.QMAP_CTRL_CTRL_FLOW,
      phy := d1.panPhy p, latest := e.latest, frame := some f }

/-- NODE_TIMING (opcode 0x0322). -/
def Dev.cmdNodeTiming (d : Dev) (src : Src) (e : Entry) : Dev :=
  let h := e.p4 0
  let p := h / 65536
  let code := oneCode (d.nodeConds e)
  match code, d.validEntry h with
  | 0, some n =>
    let d1 := (d.adriftCheck h n).1
    let anchor := d1.eAnchor n
    let drift := d1.eDrift n
    let flags := b2n anchor.isSome + 2 * b2n drift.isSome + 4 * b2n (d1.eAdrift n)
    let g := d1.panGroup p
    let x : Path := ⟨h, d1.eSector n, d1.eEntry n, d1.eChan n⟩
    let phy := if d1.eHeard n && d1.pathUsable g x then d1.lePhy g x.entry else d1.panPhy p
    let (guard, next) := match anchor with
      | some a =>
        if d1.panWakePeriod p = 0 then (0, 0)
        else
          let k := d1.sinceAnchor a * 100000000 / d1.periodUnits p n + 1
          (d1.guardUs p n phy k, d1.sysNs + (d1.untilAnchor a + d1.windowUs p n k - d1.sinceAnchor a) * 1000)
      | none => (0, 0)
    d1.finish src 0 (beBytes 1 flags ++ beBytes 1 0 ++ beBytes 2 (ofSigned 16 (drift.getD 0)) ++ beBytes 4 guard ++ beBytes 8 next)
  | c, _ => d.finish src c []

/-- One tempo's part of a NODE_SCAN: addresses from `a` on, at most n of them, and at most 1,024 entries. Answers the next
address, the addresses left, the nodes scanned and those newly adrift. -/
def Dev.scanStep (d : Dev) (p a left seen new room : Nat) : Nat → Dev × Nat × Nat × Nat × Nat
  | 0 => (d, a, left, seen, new)
  | n + 1 =>
    if left = 0 ∨ room = 0 then (d, a, left, seen, new)
    else match d.validEntry (p * 65536 + a) with
      | none => d.scanStep p ((a + 1) % 65536) (left - 1) seen new room n
      | some e =>
        let (d1, hit) := d.adriftCheck (p * 65536 + a) e
        d1.scanStep p ((a + 1) % 65536) (left - 1) (seen + 1) (new + b2n hit) (room - 1) n

/-- What refuses a NODE_SCAN (R327). -/
def Dev.nodeScanConds (d : Dev) (e : Entry) : List (Bool × Nat) :=
  let p := e.p1 0
  [(decide (127 < p) || e.p1 1 != 0 || e.p2 4 == 0 || !e.zeroFrom 6, 0x01), (decide (p ≤ 127) && !d.panEn p, 0x03)]

/-- NODE_SCAN (opcode 0x0323): each execution is the work of one tempo. -/
def Dev.cmdNodeScan (d : Dev) (src : Src) (e : Entry) : Dev :=
  let p := e.p1 0
  let code := oneCode (d.nodeScanConds e)
  if code ≠ 0 then d.finish src code []
  else
    let j := (d.ra.scans.find? (fun x => x.src == src)).getD ⟨src, p, e.p2 2, e.p2 4, 0, 0, 0⟩
    if j.batchT = d.tempo + 1 then d
    else
      let (d1, a2, left2, seen2, new2) := d.scanStep p j.next j.left j.seen j.fresh 1024 j.left
      let rest := d1.ra.scans.filter (fun x => x.src != src)
      if left2 = 0 then
        { d1 with ra := { d1.ra with scans := rest } }.finish src 0 (beBytes 2 seen2 ++ beBytes 2 new2 ++ beBytes 2 a2)
      else { d1 with ra := { d1.ra with scans := ⟨src, p, a2, left2, seen2, new2, d.tempo + 1⟩ :: rest } }

/-- The Flood Header of a FLOOD_SEND (R322, R326). -/
def Dev.floodHdr (d : Dev) (e : Entry) : FloodHdr :=
  { flags := 0x18, ttl := e.p1 1, originPan := d.panId (e.p1 0), originShort := 0, fseq := d.ra.floodSeq.getD (e.p1 0) 0 }

/-- What refuses a FLOOD_SEND (R326, R327). -/
def Dev.floodSendConds (d : Dev) (e : Entry) : List (Bool × Nat) :=
  let p := e.p1 0; let ttl := e.p1 1; let len := e.p2 2
  let f0 := { MacFrame.blank with dst := .short 0xFFFF, ies := (d.floodHdr e).octets ++ ieEnd, payload := List.replicate len 0 }
  let psdu := d.txPsdu (d.panTx p 0 .flood .step2 f0)
  [(decide (127 < p) || ttl == 0 || decide (31 < ttl) || len == 0 || decide (phyMaxPsdu (d.panPhy p) < psdu) || !bufOk (e.p4 4) len
      || !e.zeroFrom 8, 0x01),
   (decide (p ≤ 127) && !d.panEn p, 0x03)]

/-- FLOOD_SEND (opcode 0x0330). -/
def Dev.cmdFloodSend (d : Dev) (src : Src) (e : Entry) : Dev :=
  let p := e.p1 0; let len := e.p2 2; let buf := e.p4 4
  let hdr := d.floodHdr e
  let code := oneCode (d.floodSendConds e)
  if code ≠ 0 then d.finish src code []
  else
    let d1 := { d with ra := { d.ra with floodSeq := setAt d.ra.floodSeq p ((hdr.fseq + 1) % 65536) } }
    let d2 := (d1.sheetCheck hdr).1
    let (d3, n) := d2.floodCopies p (hdr.octets ++ ieEnd) (d2.packed buf len)
    d3.finish src 0 (beBytes 2 hdr.fseq ++ beBytes 1 n)

/-- What refuses a PEER_ADOPT (R303). -/
def Dev.peerAdoptConds (d : Dev) (e : Entry) : List (Bool × Nat) :=
  let x := d.peer (e.p1 0)
  [(decide (63 < e.p1 0) || !e.zeroFrom 1, 0x01),
   ((x.map (fun y => y.state)) != some 3, 0x03),
   (x.isSome && (x.bind d.peerPan).isNone, 0x11)]

/-- PEER_ADOPT (opcode 0x0331). -/
def Dev.cmdPeerAdopt (d : Dev) (src : Src) (e : Entry) : Dev :=
  let i := e.p1 0
  let x := d.peer i
  let pan := x.bind d.peerPan
  let code := oneCode (d.peerAdoptConds e)
  match code, x, pan with
  | 0, some y, some p =>
    let d1 := d.adopt y p
    d1.finish src 0 (beBytes 1 p ++ beBytes 8 (d1.panBlocks p))
  | c, _, _ => d.finish src c []

/-- What refuses a TX_RAW (R285). DEDUCED: an O-QPSK PSDU below the 5 octets that R272 supports is refused as one too long is (log
entry 112). -/
def Dev.txRawConds (d : Dev) (e : Entry) : List (Bool × Nat) :=
  let port := e.p1 0; let phy := e.p1 1; let opts := e.p1 2; let pre := e.p2 6; let len := e.p2 14
  let sun := isSun phy
  let badOpts := bit opts 7 || (!sun && (bit opts 1 || bit opts 2 || bit opts 3 || bit opts 4)) || (phy == 0x15 && bit opts 3)
    || (bit opts 4 && !bit opts 3) || (!isModeN phy && bit opts 5)
  let badPre := if sun then pre != 0 && (decide (pre < 4) || decide (1000 < pre)) else pre != 0
  let extra := if bit opts 0 then (if isModeN phy then modeNCrc (bit opts 5) len else fcsLen phy opts) else 0
  let small := phy == 0x01 && decide (len + extra < 5)
  let range := small || decide (31 < port) || !phyOnGroup phy (port / 8) || badOpts || badPre || !bufOk (e.p4 16) len || len == 0
    || decide (phyMaxPsdu phy < len + extra) || decide (16383 < e.p2 12) || e.p1 3 != 0 || e.p4 20 != 0 || !e.zeroFrom 32
  [(range, 0x01), (!d.inService port, 0x03)]

/-- TX_RAW (opcode 0x0300). -/
def Dev.cmdTxRaw (d : Dev) (src : Src) (e : Entry) : Dev :=
  let port := e.p1 0; let phy := e.p1 1; let opts := e.p1 2; let pre := e.p2 6; let len := e.p2 14; let buf := e.p4 16
  let sun := isSun phy
  let code := oneCode (d.txRawConds e)
  if code ≠ 0 then d.txRefused src code (if code = 0x03 then 5 else 0) (bit opts 6)
  else
    d.txAdd { Tx.blank with
      src := src, kind := .raw, stage := .step2, port := port, phy := phy, opts := opts,
      preamble := if sun then (if pre = 0 then 8 else pre) else 0, freq := e.p4 8, power := toSigned 16 (e.p2 4),
      flow := e.p2 12, due := e.p8 24, latest := e.latest, notify := bit opts 6, bytes := d.packed buf len }

/-! ### Meanings -/

/-- TX_RAW: a host-supplied frame goes down the transmit path (R285). -/
def execTxRaw (ring : Fin 8) (hseq : Nat) (s : State) : Host.Outcome State Fault Refusal :=
  runs s (fun d => d.runRow ring hseq 0x0300 Dev.cmdTxRaw)

/-- MAC_SEND: a data frame for a node is built and queued (R327). -/
def execMacSend (ring : Fin 8) (hseq : Nat) (s : State) : Host.Outcome State Fault Refusal :=
  runs s (fun d => d.runRow ring hseq 0x0320 Dev.cmdMacSend)

/-- NODE_RELEASE: a Disassociation Notification is sent and the entry removed at its completion (R296). -/
def execNodeRelease (ring : Fin 8) (hseq : Nat) (s : State) : Host.Outcome State Fault Refusal :=
  runs s (fun d => d.runRow ring hseq 0x0321 Dev.cmdNodeRelease)

/-- NODE_TIMING: a node's timing state and next window (R327). -/
def execNodeTiming (ring : Fin 8) (hseq : Nat) (s : State) : Host.Outcome State Fault Refusal :=
  runs s (fun d => d.runRow ring hseq 0x0322 Dev.cmdNodeTiming)

/-- NODE_SCAN: one tempo's entries are visited and the adrift check applied; the command completes after the last (R327). -/
def execNodeScan (ring : Fin 8) (hseq : Nat) (s : State) : Host.Outcome State Fault Refusal :=
  runs s (fun d => d.runRow ring hseq 0x0323 Dev.cmdNodeScan)

/-- FLOOD_SEND: a flood is originated on a PAN (R326). -/
def execFloodSend (ring : Fin 8) (hseq : Nat) (s : State) : Host.Outcome State Fault Refusal :=
  runs s (fun d => d.runRow ring hseq 0x0330 Dev.cmdFloodSend)

/-- PEER_ADOPT: the peer's blocks join the matching PAN's (R303). -/
def execPeerAdopt (ring : Fin 8) (hseq : Nat) (s : State) : Host.Outcome State Fault Refusal :=
  runs s (fun d => d.runRow ring hseq 0x0331 Dev.cmdPeerAdopt)

/-- FLOOD_RELAY: a relay's delay ends; its copies are queued, or it is cancelled (R325). -/
def execFloodRelay (id : Nat) (s : State) : Host.Outcome State Fault Refusal :=
  runs s (fun d => match d.ra.relays.find? (fun r => r.id == id) with
    | none => d
    | some r =>
      let d1 := { d with ra := { d.ra with relays := d.ra.relays.filter (fun x => x.id != id) } }
      let k := d1.get F.SHEET_CFG_SUPPRESS_K
      if 0 < k ∧ k ≤ d1.memBits r.sheet 34 32 then (d1.bump F.SHEET_COUNT_B_CANCELLED 1).evt (ev 5 3) 1
      else match r.pan with
        | none => d1
        | some p => (d1.floodCopies p (relayIes r.frame.ies.length r.frame.ies) r.frame.payload).1)

/-- BEACON_DUE: a PAN's beacon falls due on a port in this tempo and enters step 4 (R297). -/
def execBeaconDue (pan : Fin 128) (port : Fin 32) (s : State) : Host.Outcome State Fault Refusal :=
  runs s (fun d =>
    let i := d.panBeaconInt pan
    let s' := portSector port
    let off := d.panBeaconPhase pan + s' * (i / 8)
    if !d.noGrants ∧ d.panEn pan = true ∧ 0 < i ∧ d.panGroup pan = portGroup port ∧ bit (d.panPorts pan) s' = true
        ∧ (d.tempo + 16 * i - off) % i = 0
        ∧ !(d.ra.dueBeacons.contains (pan.val, port.val, d.tempo)) then
      { d with ra := { d.ra with dueBeacons := (pan.val, port.val, d.tempo)
        :: d.ra.dueBeacons.filter (fun b => !(b.1 == pan.val && b.2.1 == port.val)) } }.sendBeacon pan port
    else d)

/-- BEACON_SKIP: a beacon whose ramp has not started within a quarter of its interval is dropped (R297). -/
def execBeaconSkip (id : Nat) (s : State) : Host.Outcome State Fault Refusal :=
  runs s (fun d => match d.tx id with
    | some t =>
      if t.kind = .beacon ∧ t.stage ≠ .onAir ∧ t.stage ≠ .rampDown ∧ t.dueT + d.panBeaconInt (t.pan.getD 0) / 4 ≤ d.tempo then d.txFinish t 0x0F 8 false 0
      else d
    | none => d)

/-- PEER_ABSENT: no beacon for 3 × INTERVAL + TOL tempos (R302). -/
def execPeerAbsent (peer : Fin 64) (s : State) : Host.Outcome State Fault Refusal :=
  runs s (fun d => match d.peer peer with
    | some x =>
      if d.pw.phase = .run ∧ x.state = 1 ∧ x.heardT + 3 * x.interval + d.get (F.MAC_PEER_CFG_TOL x.group) ≤ d.tempo then
        (d.setPeer { x with state := 2, absentT := d.tempo }).raise (0x18 + x.group) 3
      else d
    | none => d)

/-- An ADOPTABLE peer is adopted where AUTO_ADOPT is set, and an enabled PAN has its PAN ID (R302, R303). -/
def Dev.autoAdopt (d : Dev) (y : Peer) : Dev :=
  if d.is (F.MAC_PEER_CFG_AUTO_ADOPT y.group) then
    match d.peerPan y with
    | some p => d.adopt y p
    | none => d
  else d

/-- PEER_ADOPTABLE: HOLD_S seconds in ABSENT have passed; with AUTO_ADOPT the adoption follows, at once or where AUTO_ADOPT is set later
(R302). -/
def execPeerAdoptable (peer : Fin 64) (s : State) : Host.Outcome State Fault Refusal :=
  runs s (fun d => match d.peer peer with
    | some x =>
      if d.pw.phase ≠ .run then d
      else if x.state = 2 ∧ x.absentT + d.get (F.MAC_PEER_CFG_HOLD_S x.group) * 4000 ≤ d.tempo then
        ((d.setPeer { x with state := 3 }).raise (0x18 + x.group) 7).autoAdopt { x with state := 3 }
      else if x.state = 3 then d.autoAdopt x
      else d
    | none => d)

end Sys2Proof.Machine
end

