-- ==== Sys2Proof/Machine/Rxp.lean ====
section
/-! DEFINITION. Reception (09): sentries and the context pool, the synchronising word, merging, the FCS check, receive rings
and the delivery record (R244 to R270). -/

namespace Sys2Proof.Machine

/-! ### The context pool (R252 to R254) -/

def Dev.ctx (d : Dev) (id : Nat) : Option Ctx := d.rx.ctxs.find? (fun c => c.id == id)
def Dev.inUse (d : Dev) (g : Nat) : Nat := (d.rx.ctxs.filter (fun c => c.group == g)).length

/-- The counts of POOL and POOL_USE after the contexts change. -/
def Dev.poolCounts (d : Dev) : Dev :=
  let n := d.rx.ctxs.length
  let d1 := (d.put F.RXP_POOL_IN_USE n).peak F.RXP_POOL_PEAK n
  (List.range 4).foldl (fun x g =>
    let y := (x.put (F.RXP_POOL_USE_IN_USE g) (x.inUse g)).peak (F.RXP_POOL_USE_PEAK g) (x.inUse g)
    { y with tab := { y.tab with telemPoolPeak := setAt y.tab.telemPoolPeak g (max (y.tab.telemPoolPeak.getD g 0) (x.inUse g)) } }) d1

def Dev.setCtxs (d : Dev) (l : List Ctx) : Dev := { d with rx := { d.rx with ctxs := l } }.poolCounts
def Dev.ctxUpd (d : Dev) (id : Nat) (f : Ctx → Ctx) : Dev :=
  { d with rx := { d.rx with ctxs := d.rx.ctxs.map (fun c => if c.id == id then f c else c) } }

/-- A context returns to FREE, counted in STAT_g_k. -/
def Dev.ctxFree (d : Dev) (c : Ctx) (k : Nat) : Dev :=
  (d.setCtxs (d.rx.ctxs.filter (fun x => x.id != c.id))).bump (F.RXP_STAT_COUNT c.group k) 1

/-- Whether a request from group g is granted (R252). -/
def Dev.poolGrants (d : Dev) (g : Nat) : Bool :=
  let free := 2048 - d.rx.ctxs.length
  let reserve := fun h => d.get (F.RXP_POOL_CFG_RESERVE h)
  let unmet := (((List.range 4).filter (fun h => h != g)).map (fun h => reserve h - d.inUse h)).sum
  decide (0 < free) && (decide (d.inUse g < reserve g)
    || (decide (d.inUse g < d.get (F.RXP_POOL_CFG_CAP g)) && decide (unmet < free)))

/-- Fields of a listen entry given as its words (R247). -/
def leWordsField (w : List Nat) (k hi lo : Nat) : Nat := bits (w.getD k 0) hi lo
def Ctx.combine (c : Ctx) : Bool := leWordsField c.words 0 30 30 == 1
def Ctx.deliver (c : Ctx) : Nat := leWordsField c.words 0 29 28
def Ctx.phy (c : Ctx) : Nat := leWordsField c.words 0 15 8
/-- Centre of the channel, Hz, under the entry as it stood when the context was granted. -/
def Ctx.freq (c : Ctx) : Nat := c.words.getD 1 0 + c.chan * c.words.getD 2 0
def Ctx.syncErr (c : Ctx) : Nat := leWordsField c.words 0 2 0
def Ctx.altEn (c : Ctx) : Bool := leWordsField c.words 0 4 4 == 1
def Ctx.fecType (c : Ctx) : Nat := leWordsField c.words 0 6 5
def Ctx.syncLen (c : Ctx) : Nat := leWordsField c.words 3 13 8

/-- Hamming distance of the lowest n bits of two numbers. -/
def hamming (n a b : Nat) : Nat := ((List.range n).filter (fun i => bit a i != bit b i)).length

/-- The match of a window with the words of the entry (R255): the distance, and whether SYNC_ALT is the word found. -/
def Ctx.matched (c : Ctx) (word : Nat) : Option (Nat × Bool) :=
  let v := hamming c.syncLen word (c.words.getD 4 0)
  let a := hamming c.syncLen word (c.words.getD 5 0)
  if c.altEn = true ∧ a < v ∧ a ≤ c.syncErr then some (a, true) else if v ≤ c.syncErr then some (v, false) else none

/-- The weight of a port of a combined context, as amplitude over noise power (R259): 0 while its samples are blanked, in the gap of a swap, and
from then on once it has lost its samples (R261). -/
def Dev.ctxWeight (d : Dev) (c : Ctx) (port : Nat) : Nat × Nat :=
  match c.weights.find? (fun w => w.1 == port) with
  | some (_, a, n) => (if d.portBlanked port || !d.inService port || c.lost.contains port || decide (d.monoCycles < d.ra.gapEnd.getD port 0) then 0 else a, n)
  | none => (0, 1)

/-! ### What follows the word (R249, R250) -/

/-- The decoder of a context's frame: 0 none, 1 NRNSC, 2 RSC (R248, R264). -/
def Ctx.decoder (c : Ctx) : Nat :=
  let alt : Bool := match c.latch with
    | some l => l.alt
    | none => false
  if alt = true ∧ 0x10 ≤ c.phy ∧ c.phy ≤ 0x14 then 1 + c.fecType else 0

/-- Whether a context's EN 13757-4 frame is of format B: by the word found for C1, by the block structure for N and T1 (R250). -/
def Ctx.formatB (c : Ctx) (b : List Byte) : Bool :=
  match c.latch with
  | some l => if c.phy = 0x28 then l.alt else !firstBlockGood false b
  | none => false

/-- Blocks of a context's EN 13757-4 frame. -/
def Ctx.blocks (c : Ctx) (b : List Byte) : List Nat := blockLens (c.formatB b) (blockOctets (c.formatB b) (leField b 0 1))

/-- Octets that a frame's PHR, or L-field, says it has; none for a PHR or first block that is not valid (R249, R254). -/
def Ctx.frameLen (c : Ctx) (phr : Nat) (b : List Byte) : Option Nat :=
  if c.phy = 0x01 then (if 5 ≤ phr % 128 then some (phr % 128) else none)
  else if isSun c.phy then (if bit phr 15 = false ∧ 5 ≤ phr % 2048 then some (phr % 2048) else none)
  else if firstBlockGood (c.formatB b) b then some ((c.blocks b).sum + 2 * (c.blocks b).length)
  else none

/-- The frame as delivered: a SUN FSK frame whose PHR says so has its whitening taken off. -/
def Ctx.plainBytes (c : Ctx) (phr : Nat) (b : List Byte) : List Byte := if isSun c.phy && bit phr 11 then whiten b else b

/-- Whether the FCS is of 4 octets: SUN FSK's PHR says so. -/
def Ctx.fcs4 (c : Ctx) (phr : Nat) : Bool := isSun c.phy && !bit phr 12

/-- The result of CHECK (R249, R250). -/
def Ctx.checks (c : Ctx) (phr : Nat) (b : List Byte) : Bool :=
  if c.phy < 0x20 then fcsGood (c.fcs4 phr) (c.plainBytes phr b) else blocksGood (c.blocks b) b

/-- The FEC field of the delivery record (R264). -/
def Ctx.fecField (c : Ctx) (phr : Nat) : Nat := c.decoder + (if isSun c.phy && bit phr 11 then 128 else 0)

/-- Whether a sentry stands on a channel of a port, and may request (R247, R251). -/
def Dev.sentry (d : Dev) (port entry chan : Nat) : Bool :=
  let g := portGroup port
  d.enabled 0x15 && d.pw.phase == .run && !d.pw.rxRestart && d.inService port && d.leEn g entry && bit (d.leWord g entry 0) (16 + portSector port)
    && d.rangeOn g (d.leFreq g entry chan) && !d.portLost port && decide (chan < d.leCount g entry) && !d.portBlanked port && bit (d.rd (R.RFG_LOCK g)) (16 + d.chainOf port)
    && !d.rx.ctxs.any (fun c => c.entry == entry && c.chan == chan && c.members.any (fun m => m.1 == port))

/-- Whether two latches meet the time condition of R257: at most one symbol (one chip for C1 and T1) apart, in ns. -/
def latchNear (phy : Nat) (a b : Latch) : Bool :=
  decide ((a.time - b.time) * phyRate phy ≤ 1000000000) && decide ((b.time - a.time) * phyRate phy ≤ 1000000000)

/-- LQ of R256, from an SNR in 0.125 dB units. -/
def linkQuality (snr : Int) : Nat := (min 255 (max 0 (snr + 40))).toNat

/-- Contexts with which one that has just found its word sees the same frame (R257). -/
def Dev.sameFrame (d : Dev) (c : Ctx) (l : Latch) : List Ctx :=
  d.rx.ctxs.filter (fun x => x.id != c.id && x.group == c.group && x.entry == c.entry && x.chan == c.chan && x.port != c.port
    && (match x.latch with
      | some y => latchNear c.phy y l
      | none => false))

/-! ### Receive rings (R263 to R267) -/

def Dev.rxRing (d : Dev) (n : Nat) : RxRing := d.rx.rings.getD n ⟨0, [], 0⟩
def Dev.setRxRing (d : Dev) (n : Nat) (r : RxRing) : Dev :=
  ({ d with rx := { d.rx with rings := setAt d.rx.rings n r } }).put (F.RXP_RXR_STAT_BACKLOG n) r.backlog.length

/-- The ring that takes a kind: 0 MAC, 1 METER, 2 RAW (R265). -/
def Dev.ringFor (d : Dev) (kind : Nat) : Option Nat :=
  (List.range 4).find? (fun n => d.is (F.RXP_RXR_CFG_EN n) && bit (d.get (F.RXP_RXR_CFG_KINDS n)) kind)

def Dev.rxPcie (d : Dev) (n : Nat) : Bool := d.get (F.RXP_RXR_CFG_TRANSPORT n) == 0

/-- A signed 16-bit field. -/
def be16s (i : Int) : List Byte := beBytes 2 (ofSigned 16 i)

/-- The 64-byte delivery record of R264, with PHASE 0. -/
def deliveryRecord (f : RxFrame) (kind len seq : Nat) (truncated : Bool) : List Byte :=
  let status := b2n f.ok + 2 * b2n f.combined + 4 * b2n f.straddle + 8 * b2n truncated + 16 * b2n f.latch.alt + 32 * b2n f.blanked
  let ports := (f.members.map (fun m => 2 ^ portSector m.1)).sum
  let strengths := (List.range 4).flatMap (fun i => match f.members[i]? with
    | some m => be16s m.2
    | none => beBytes 2 0x8000)
  beBytes 2 len ++ beBytes 1 (kind + 1) ++ beBytes 1 status ++ beBytes 8 f.latch.time ++ beBytes 5 (f.latch.tempo * 16)
    ++ beBytes 3 f.latch.cycle ++ beBytes 1 f.group ++ beBytes 1 f.entry ++ beBytes 1 f.chan ++ beBytes 1 f.phy
    ++ beBytes 1 f.port ++ beBytes 1 ports ++ beBytes 1 f.device ++ beBytes 1 f.lq ++ strengths ++ be16s f.latch.cfo
    ++ beBytes 1 f.latch.errs ++ beBytes 1 f.fec ++ beBytes 4 seq ++ List.replicate 20 0

/-- A record has been written: the record bit follows COUNT (R267). -/
def Dev.rxWritten (d : Dev) (n : Nat) : Dev :=
  let r := d.rxRing n
  if d.get (F.RXP_RXR_IRQ_COUNT n) ≤ r.since + 1 then (d.setRxRing n { r with since := 0 }).raise 0x15 (4 + n)
  else d.setRxRing n { r with since := r.since + 1 }

/-- Whether a PCIe ring has room, and runs (R266). -/
def Dev.rxRoom (d : Dev) (n : Nat) : Bool :=
  d.rxPcie n && d.is (F.RXP_RXR_CFG_EN n) && !d.is (F.RXP_RXR_STAT_FAULT n) && d.is F.PCIE_LINK_UP
    && decide ((d.get (F.RXP_RXR_PROD_COUNT n) + 65536 - d.get (F.RXP_RXR_CONS_COUNT n)) % 65536 < 4096)

/-- One record is written to slot PROD mod 4,096 of a PCIe ring (R265). -/
def Dev.rxWrite (d : Dev) (n : Nat) (x : RxRec) : Dev :=
  let j := d.get (F.RXP_RXR_PROD_COUNT n)
  let phase : Nat := if j / 4096 % 2 = 0 then 128 else 0
  let rec1 := setAt x.record 3 (x.record.getD 3 0 + BitVec.ofNat 8 phase)
  let d1 := (d.emit (.rxRecord n (j % 4096) (rec1 ++ x.frame))).put (F.RXP_RXR_PROD_COUNT n) ((j + 1) % 65536)
  (d1.freeCells false x.cells).rxWritten n

/-- A frame goes to the ring that takes its kind (R263 to R266); one that no ring takes is counted (R265, R421). -/
def Dev.rxOut (d : Dev) (f : RxFrame) (kind : Nat) : Dev :=
  match d.ringFor kind with
  | none => if kind = 0 then (d.bump F.QSCH_DROP_B_HOST 1).qEvent 7 0 6 else d.bump F.RXP_OVERLOAD_NO_RING 1
  | some n =>
    let r := d.rxRing n
    let room := 256 * 2 ^ d.get (F.RXP_RXR_CFG_SIZE n) - 64
    let cut := d.rxPcie n && decide (room < f.bytes.length)
    let body := if cut then f.bytes.take room else f.bytes
    let rec0 := deliveryRecord f kind body.length r.nextSeq cut
    let x : RxRec := { record := rec0, frame := body, cells := cellsFor (64 + f.bytes.length) }
    let d1 := d.setRxRing n { r with nextSeq := (r.nextSeq + 1) % 2 ^ 32 }
    if !d1.cellsFit false x.cells then (d1.bump F.QSCH_DROP_A_BUF_FULL 1).qEvent 5 0 4
    else if r.backlog.isEmpty ∧ d1.rxRoom n = true then (d1.takeCells false x.cells).rxWrite n x
    else if 16384 ≤ r.backlog.length then (d1.bump (F.RXP_RXR_STAT_DROPPED n) 1).raise 0x15 (8 + n)
    else (d1.takeCells false x.cells).setRxRing n { d1.rxRing n with backlog := r.backlog ++ [x] }

/-- Whether a frame for a ring waits: the ring takes MAC frames too, and one that left CHECK before it is still in a pipeline (R265). -/
def Dev.rxWaits (d : Dev) (f : RxFrame) (kind : Nat) : Bool :=
  (match d.ringFor kind with
    | some n => bit (d.get (F.RXP_RXR_CFG_KINDS n)) 0
    | none => false)
    && d.rx.queues.any (fun q => q.any (fun x => decide (x.no < f.no)))

/-- Frames in ascending order of leaving CHECK, with one put in its place. -/
def parkIn (x : RxFrame × Nat) (l : List (RxFrame × Nat)) : List (RxFrame × Nat) :=
  l.takeWhile (fun y => decide (y.1.no < x.1.no)) ++ [x] ++ l.dropWhile (fun y => decide (y.1.no < x.1.no))

/-- A frame is delivered, after those that left CHECK before it (R265). -/
def Dev.rxDeliver (d : Dev) (f : RxFrame) (kind : Nat) : Dev :=
  if d.rxWaits f kind then { d with rx := { d.rx with parked := parkIn (f, kind) d.rx.parked } } else d.rxOut f kind

/-- Parked frames that no longer wait are delivered, in order. -/
def Dev.rxUnpark (d : Dev) : Dev :=
  d.rx.parked.foldl (fun (x : Dev) p => x.rxDeliver p.1 p.2) { d with rx := { d.rx with parked := [] } }

/-- A ring is stopped with EN := 0: its waiting records are discarded, and FAULT clears. -/
def Dev.rxRingOff (d : Dev) (n : Nat) : Dev :=
  let r := d.rxRing n
  let d1 := r.backlog.foldl (fun x b => x.freeCells false b.cells) d
  (d1.setRxRing n { nextSeq := 0, backlog := [], since := 0 }).put (F.RXP_RXR_STAT_FAULT n) 0

/-! ### Frames leaving CHECK -/

/-- The frame a context delivers. -/
def Ctx.toFrame (c : Ctx) (no : Nat) (ok : Bool) (fec : Nat) (m : MacFrame) (bytes : List Byte) : RxFrame :=
  let l := c.latch.getD ⟨0, 0, 0, 0, 0, 0, 0, 0, false⟩
  { no := no, freq := c.freq, group := c.group, port := c.port, entry := c.entry, chan := c.chan, phy := c.phy, latch := l, members := c.members,
    lq := linkQuality (if c.combined then c.snr else l.snr), device := c.chain, combined := c.combined, straddle := c.straddle,
    blanked := c.blanked, ok := ok, fec := fec, frame := m, bytes := bytes }

/-- A node's acknowledgment (R320): it is accepted by the frame that waits for it on its port and channel with its sequence
number; a secured one must also pass step 4, and then counts as heard from its node (R307). -/
def Dev.ackReceived (d : Dev) (f : RxFrame) : Dev :=
  match d.ra.txs.find? (fun t => t.awaits f) with
  | none => d
  | some t =>
    match f.frame.sec, t.hop with
    | some _, some h =>
      match d.validEntry h with
      | none => d
      | some e => match d.verify h e f.frame with
        | (d1, .pass m) =>
          ((d1.txFinish t 0 0 true t.airtime).nodeSeen h e (portSector f.port) f.entry f.chan f.phy f.latch.mono m.csl).nodeHeard h
        | (d1, _) => d1
    | some _, none => d
    | none, _ => d.txFinish t 0 0 true t.airtime

/-- A MAC frame enters its pipeline's input queue, or is dropped (R269). A frame that uses what R290 leaves out is dropped before this. Acknowledgments
bypass step 3 (R320): one in clear is taken at once, and a secured one waits in the queue, since step 4 sees a source's frames in their order of
arrival (R341). A beacon with a Quatos beacon IE refreshes its peer record and is never delivered (R301). -/
def Dev.toPipeline (d : Dev) (f : RxFrame) : Dev :=
  if f.frame.ftype = 2 ∧ f.frame.sec = none then d.ackReceived f
  else match f.frame.ftype, f.frame.beacon with
  | 0, some b => d.peerBeacon f.group f.frame.panId b
  | _, _ =>
    let q := d.rx.queues.getD f.group []
    if 8192 ≤ q.length then ((d.bump F.RXP_OVERLOAD_COUNT 1).evt (ev 1 15) 1).raise 0x15 1
    else { d with rx := { d.rx with queues := setAt d.rx.queues f.group (q ++ [f]) } }

/-- The count of frames that leave CHECK goes on. -/
def Dev.leaveCheck (d : Dev) : Dev := { d with rx := { d.rx with nextNo := d.rx.nextNo + 1 } }

/-- Every context is released as when the device leaves RUN, a port leaves service, or by a soft reset (R254). -/
def Dev.releaseCtxs (d : Dev) (gone : Ctx → Bool) : Dev := (d.rx.ctxs.filter gone).foldl (fun x c => x.ctxFree c 7) d

/-! ### Meanings -/

/-- PREAMBLE_DETECT: a sentry detects a preamble and requests a context (R251 to R253). -/
def execPreambleDetect (port : Fin 32) (entry : Fin 16) (chan : Fin 64) (s : State) : Host.Outcome State Fault Refusal :=
  runs s (fun d =>
    if !d.sentry port entry chan then d
    else
      let g := portGroup port
      if d.poolGrants g then
        let c : Ctx := { id := d.rx.nextCtx, port := port, group := g, entry := entry, chan := chan,
                         words := (List.range 7).map (fun k => d.leWord g entry k), latch := none, weights := [], window := false,
                         members := [(port.val, (-32768 : Int))], snr := 0, chain := deviceChain g (d.chainOf port), combined := false,
                         straddle := false, blanked := false, lost := [] }
        let d1 := { d with rx := { d.rx with nextCtx := d.rx.nextCtx + 1 } }
        ((d1.setCtxs (d1.rx.ctxs ++ [c])).bump (F.RXP_STAT_COUNT g 0) 1).evt (ev 1 g) 1
      else
        let d1 := ((d.bump F.RXP_EXHAUST_COUNT 1).put F.RXP_EXHAUST_LAST_PORT port).evt (ev 1 12) 1
        { d1 with tab := { d1.tab with telemRefused := setAt d1.tab.telemRefused g (d1.tab.telemRefused.getD g 0 + 1) } }.raise 0x15 0)

/-- Whether the receive LO of the chain that carries a port is locked, and the port's stream is whole (R199). -/
def Dev.hears (d : Dev) (port : Nat) : Bool := bit (d.rd (R.RFG_LOCK (portGroup port))) (16 + d.chainOf port) && !d.portLost port

/-- SYNC_FOUND: a window of SYNC_LEN decided bits matches a context's word; values are latched, and a merge window may open (R255 to
R258). The command carries the window and what the port measures over it: strength in 0.5 dB units, SNR in 0.125 dB units, offset in 10
Hz units, amplitude and noise power. -/
def execSyncFound (id : Nat) (strength snr cfo : Int) (level : StreamLevel) (word : BitVec 32) (s : State) :
    Host.Outcome State Fault Refusal :=
  runs s (fun d => match d.ctx id with
    | none => d
    | some c => match c.matched word.toNat with
    | none => d
    | some (errs, alt) =>
      if c.latch.isSome ∨ d.hears c.port = false then d
      else
        let st := max (-300) (min 20 strength)
        let l : Latch := { strength := st, snr := snr, cfo := max (-32768) (min 32767 cfo), time := d.sysNs, tempo := d.sysTempo,
                           cycle := d.cycle, mono := d.monoCycles, errs := errs, alt := alt }
        let same := d.sameFrame c l
        let c1 := { c with latch := some l, members := [(c.port, st)], weights := [(c.port, level.amp, level.noise)], chain := deviceChain c.group (d.chainOf c.port) }
        if same.any (fun x => x.window) then d.ctxUpd id (fun _ => c1)
        else if !same.isEmpty then (d.ctxFree c 6).evt (ev 1 14) 1
        else d.ctxUpd id (fun _ => { c1 with window := true }))

/-- SYNC_TIMEOUT: SYNC_WAIT symbols pass without the word (R254). -/
def execSyncTimeout (id : Nat) (s : State) : Host.Outcome State Fault Refusal :=
  runs s (fun d => match d.ctx id with
    | some c => if c.latch.isNone then d.ctxFree c 1 else d
    | none => d)

/-- Candidates in order of preference: greatest strength, ties to the lower port. -/
def strongest (l : List Ctx) : List Ctx :=
  let st := fun (c : Ctx) => match c.latch with
    | some x => x.strength
    | none => (-32768 : Int)
  l.foldl (fun acc c => acc.takeWhile (fun x => decide (st c < st x) || (st c == st x && decide (x.port < c.port))) ++ [c]
    ++ acc.dropWhile (fun x => decide (st c < st x) || (st c == st x && decide (x.port < c.port)))) []

/-- MERGE_WINDOW_CLOSE: candidates are combined, or one is selected, and the rest are freed (R258, R259, R262). `snr` is the
SNR estimated for the combined signal. -/
def execMergeWindowClose (id : Nat) (snr : Int) (s : State) : Host.Outcome State Fault Refusal :=
  runs s (fun d => match d.ctx id with
    | none => d
    | some c =>
      match c.latch with
      | none => d
      | some l =>
        if !c.window then d
        else
          let order := strongest (c :: d.sameFrame c l)
          let kept := order.take 4
          let d1 := (order.drop 4).foldl (fun x y => (x.ctxFree y 6).evt (ev 1 14) 1) d
          match kept with
          | [] => d1
          | p :: rest =>
            let d2 := rest.foldl (fun x y =>
              if c.combine then (x.ctxFree y 5).evt (ev 1 13) 1 else (x.ctxFree y 6).evt (ev 1 14) 1) d1
            let ports := (List.range 32).filterMap (fun q => (kept.find? (fun y => y.port == q)).bind (fun y => y.members.head?))
            d2.ctxUpd p.id (fun y => { y with
              window := false, combined := c.combine && !rest.isEmpty, snr := snr,
              blanked := y.blanked || (c.combine && rest.any (fun z => z.blanked)),
              lost := if c.combine then kept.flatMap (fun z => z.lost) else y.lost,
              members := if c.combine then ports else y.members,
              weights := if c.combine then kept.flatMap (fun z => z.weights) else y.weights }))

/-- PHR_INVALID: the PHR, or the first block, of a context's frame is not valid, and the context is freed; RAW entries deliver what there
is (R254). -/
def execPhrInvalid (id : Nat) (frame : FrameStart) (s : State) : Host.Outcome State Fault Refusal :=
  runs s (fun d => match d.ctx id with
    | none => d
    | some c =>
      if c.latch.isNone ∨ (c.frameLen frame.phr.toNat frame.bytes).isSome = true then d
      else
        let d1 := d.ctxFree c 2
        if c.deliver = 2 then (d1.leaveCheck).rxDeliver (c.toFrame d1.rx.nextNo false (c.fecField frame.phr.toNat) MacFrame.blank frame.bytes) 2 else d1)

/-- A frame passes CHECK (R254, R263). A MAC frame that uses what R290 leaves out is counted in FCS_BAD and dropped. -/
def Dev.checkPassed (d : Dev) (c : Ctx) (phr : Nat) (bytes : List Byte) : Dev :=
  let plain := c.plainBytes phr bytes
  let frame := fun (m : MacFrame) => c.toFrame d.rx.nextNo true (c.fecField phr) m plain
  let passed := fun (x : Dev) =>
    let y := ((x.ctxFree c 4).evt (ev 1 (4 + c.group)) 1).leaveCheck
    { y with tab := { y.tab with telemChecked := setAt y.tab.telemChecked c.group (y.tab.telemChecked.getD c.group 0 + 1) } }
  match c.deliver with
  | 0 =>
    match MacFrame.ofOctets (plain.take (plain.length - (if c.fcs4 phr then 4 else 2))) with
    | some m => if m.cmdKnown then (passed d).toPipeline (frame m) else (d.ctxFree c 3).evt (ev 1 (8 + c.group)) 1
    | none => (d.ctxFree c 3).evt (ev 1 (8 + c.group)) 1
  | k => (passed d).rxDeliver (frame MacFrame.blank) k

/-- A frame fails CHECK (R254): METER frames are delivered with KEEP_BAD_METER, RAW frames always. -/
def Dev.checkFailed (d : Dev) (c : Ctx) (phr : Nat) (bytes : List Byte) : Dev :=
  let d1 := (d.ctxFree c 3).evt (ev 1 (8 + c.group)) 1
  if c.deliver = 2 ∨ (c.deliver = 1 ∧ d1.is F.RXP_CFG_KEEP_BAD_METER = true) then
    d1.leaveCheck.rxDeliver (c.toFrame d1.rx.nextNo false (c.fecField phr) MacFrame.blank (c.plainBytes phr bytes)) c.deliver
  else d1

/-- A context at the end of its frame, with what is blanked then (R264). -/
def Dev.atEnd (d : Dev) (c : Ctx) : Ctx := c.loses c.combined d.portBlanked

/-- FRAME_CHECK: the last symbol of a context's frame has been decided; its FCS or CRCs are checked, and it is delivered or dropped
(R254, R263). The command carries the fields of a valid PHR (FCS type, whitening, length) and the octets decided, FEC taken off; one
whose length does not fit them is no frame, and does nothing. -/
def execFrameCheck (id : Nat) (fcs2 white : Bool) (len : BitVec 11) (bytes : List Byte) (s : State) : Host.Outcome State Fault Refusal :=
  runs s (fun d => match d.ctx id with
    | none => d
    | some c =>
      let phr := sunPhr (!fcs2) white len.toNat
      if c.latch.isNone ∨ c.frameLen phr bytes ≠ some bytes.length then d
      else if c.checks phr bytes then d.checkPassed (d.atEnd c) phr bytes
      else d.checkFailed (d.atEnd c) phr bytes)

/-- CONTEXT_ABANDON: every port of a context has stayed blanked for BLANK_ABANDON symbols (R254, R261). -/
def execContextAbandon (id : Nat) (s : State) : Host.Outcome State Fault Refusal :=
  runs s (fun d => match d.ctx id with
    | some c => if c.members.all (fun m => d.portBlanked m.1 || !d.inService m.1 || c.lost.contains m.1) then d.ctxFree c 7 else d
    | none => d)

/-- GAIN_STEP_DOWN: the ADC of a chain reaches full scale, and its gain steps down at once (R246). -/
def execGainStepDown (chain : Fin 36) (s : State) : Host.Outcome State Fault Refusal :=
  runs s (fun d => { d with rx := { d.rx with gain := setAt d.rx.gain chain (d.rx.gain.getD chain 0 - 1) } })

/-- RX_RECORD_WRITE: the oldest waiting record of a ring is written once there is room (R266). -/
def execRxRecordWrite (ring : Fin 4) (s : State) : Host.Outcome State Fault Refusal :=
  runs s (fun d =>
    let r := d.rxRing ring
    match r.backlog with
    | [] => d
    | x :: rest => if d.rxRoom ring then (d.setRxRing ring { r with backlog := rest }).rxWrite ring x else d)

/-- RX_RING_TIMEOUT: TIMEOUT_US after the first record since, the ring's record bit is set (R267). -/
def execRxRingTimeout (ring : Fin 4) (s : State) : Host.Outcome State Fault Refusal :=
  runs s (fun d =>
    let r := d.rxRing ring
    if 0 < r.since ∧ 0 < d.get (F.RXP_RXR_IRQ_TIMEOUT_US ring) then (d.setRxRing ring { r with since := 0 }).raise 0x15 (4 + ring) else d)

/-- RX_RING_DMA_ERROR: a DMA error stops a PCIe receive ring (R266). -/
def execRxRingDmaError (ring : Fin 4) (s : State) : Host.Outcome State Fault Refusal :=
  runs s (fun d =>
    if d.rxPcie ring && d.is (F.RXP_RXR_CFG_EN ring) then (d.put (F.RXP_RXR_STAT_FAULT ring) 1).raise 0x15 (8 + ring) else d)

end Sys2Proof.Machine
end

