-- ==== Sys2Proof/Machine/Pawn.lean ====
section
/-! DEFINITION. The pawn chain (R497 to R505, R508): the node-image store, planning, block exchange, pacing and the pawn
commands. -/

namespace Sys2Proof.Machine

/-! ### Planning (R499) -/

/-- RELAY of a node's forwarding entry. -/
def Dev.upOf (d : Dev) (g x : Nat) : Option Nat :=
  if d.enabled (0x24 + g) then (d.fwdFind g x).map (fun k => d.fwdRelay g k) else none

/-- The path from a head down to x through members of T, head first, of at most n members. -/
def Dev.pawnPath (d : Dev) (g : Nat) (t : List Nat) (x : Nat) : Nat → Option (List Nat)
  | 0 => none
  | n + 1 =>
    match d.upOf g x with
    | none => none
    | some u =>
      if u = x then some [x]
      else if t.contains u then (d.pawnPath g t u n).map (fun l => l ++ [x])
      else none

/-- Lexicographic order of paths: the order in which a depth-first walk of the tree, children ascending, meets its leaves. -/
def pathBefore : List Nat → List Nat → Bool
  | [], _ => true
  | _ :: _, [] => false
  | a :: as, b :: bs => decide (a < b) || (a == b && pathBefore as bs)

/-- A path entered at its place in that order. -/
def insertPath (l : List (List Nat)) (x : List Nat) : List (List Nat) :=
  l.takeWhile (fun y => pathBefore y x) ++ [x] ++ l.dropWhile (fun y => pathBefore y x)

/-- The chains planned for a target set: the path to each leaf of the tree, at most 256. -/
def Dev.planChains (d : Dev) (g maxLen : Nat) (t : List Nat) : List (List Nat) :=
  let paths := t.filterMap (fun x => d.pawnPath g t x maxLen)
  let inner := paths.filterMap (fun p => if 2 ≤ p.length then p[p.length - 2]? else none)
  ((paths.filter (fun p => !inner.contains (p.getLastD 0))).foldl insertPath []).take 256

/-! ### Frames (R500) -/

/-- The SETUP payload of a chain. -/
def Dev.setupBytes (d : Dev) (c : Chain) : List Byte :=
  let i := c.image
  beBytes 1 0x2A ++ beBytes 1 3 ++ beBytes 2 (d.get (F.PAWN_IMG_STAT_CAMPAIGN i)) ++ beBytes 1 c.number ++ beBytes 1 0
    ++ beBytes 1 c.members.length ++ beBytes 1 (d.get F.PAWN_CFG_WINDOW) ++ beBytes 1 c.ackEvery ++ beBytes 1 0
    ++ beBytes 2 (d.imgBlocks i) ++ beBytes 4 (d.imgBytes i) ++ beBytes 4 (d.pn.crcs.getD i 0)
    ++ c.members.flatMap (fun m => beBytes 2 (m % 65536))

/-- The BLOCK payload of block b of an image. -/
def Dev.blockBytes (d : Dev) (i b : Nat) : List Byte :=
  let n := min 64 (d.imgBytes i - 64 * b)
  beBytes 1 0x2A ++ beBytes 1 1 ++ beBytes 2 (d.get (F.PAWN_IMG_STAT_CAMPAIGN i)) ++ beBytes 2 b
    ++ (List.range n).map (fun k => d.packedByte (imgAddr i) (64 * b + k))

/-! ### Pacing (R503) -/

def Dev.pawnLevel (d : Dev) (g : Nat) : Int := toSigned 32 (d.get (F.PAWN_LEVEL_LEVEL g))
def Dev.setPawnLevel (d : Dev) (g : Nat) (v : Int) : Dev := d.put (F.PAWN_LEVEL_LEVEL g) (ofSigned 32 v)

/-- One refill of every group's bucket. -/
def Dev.pawnRefill (d : Dev) : Dev :=
  (List.range 4).foldl (fun x g =>
    x.setPawnLevel g (min (x.pawnLevel g + x.get (F.PAWN_BUDGET_RATE g)) (x.get (F.PAWN_BUDGET_BURST g)))) d

/-- Every bucket is full, as at release. -/
def Dev.pawnFull (d : Dev) : Dev :=
  (List.range 4).foldl (fun x g => x.setPawnLevel g (x.get (F.PAWN_BUDGET_BURST g))) d

/-- A chain's frame stands at steps 4 to 7. -/
def Dev.pawnBusy (d : Dev) (c : Chain) : Bool := d.ra.txs.any (fun t => t.pawn == some (c.image, c.number))

/-- Blocks that may be sent: s up to, but not at, this number (R504). -/
def Dev.windowEnd (d : Dev) (c : Chain) : Nat := min (c.first + d.get F.PAWN_CFG_WINDOW) (d.imgBlocks c.image)

/-- Whether a chain has a frame to send now. While moving, no SETUP is sent (R504). -/
def Dev.pawnReady (d : Dev) (c : Chain) : Bool :=
  !d.pawnBusy c && ((c.state == 1 && c.sendSetup && !d.is F.UPD_STAT_MOVING)
    || (c.state == 2 && decide (c.next < d.windowEnd c)))

def Dev.chainGroupOf (d : Dev) (c : Chain) : Nat := d.panGroup (d.pn.pans.getD c.image 0)

/-- The chain of a group whose turn it is: round robin over those with a frame to send. -/
def Dev.pawnNext (d : Dev) (g : Nat) : Option Chain :=
  let key := fun (i n : Nat) => i * 256 + n
  let last := match d.pn.turn[g]? with
    | some x => key x.1 x.2
    | none => 0
  let l := d.pn.chains.filter (fun c => d.chainGroupOf c == g && d.pawnReady c)
  let least := fun (m : List Chain) => m.foldl (fun (b : Option Chain) c => match b with
    | none => some c
    | some x => if key c.image c.number < key x.image x.number then some c else some x) none
  (least (l.filter (fun c => decide (last < key c.image c.number)))).or (least l)

/-- A pawn frame enters step 4 for its chain's head, and its predicted airtime is charged. -/
def Dev.pawnEnter (d : Dev) (g : Nat) (c : Chain) (payload : List Byte) : Dev :=
  let h := c.members.headD 0
  let p := h / 65536
  let (q, d1) := d.nextMacSeq p
  let t0 := { Tx.blank with
    kind := .pawn, stage := .step4, port := 8 * g, pan := some p, dest := some h, phy := d1.panPhy p,
    opts := dlOpts (d1.panPhy p) (d1.panDlOpts p), preamble := if isSun (d1.panPhy p) then d1.panLeastPreamble p else 0,
    power := d1.panTxPower p, frame := some (d1.dataFrame p (h % 65536) q false payload), pawn := some (c.image, c.number) }
  let (d2, hop) := d1.nextHop h
  let t1 := { d2.sized (match hop with
    | some x => d2.onPath t0 x
    | none => t0) with cells := 0 }
  (d2.setPawnLevel g (d2.pawnLevel g - t1.airtime)).txAdd t1

/-- A group serves one chain, if its bucket permits: a SETUP, or the next BLOCK. A guaranteed slice asks nothing of the
level. -/
def Dev.pawnServe (d : Dev) (g : Nat) (guaranteed : Bool) : Dev :=
  if d.enabled 0x0E ∧ !d.noGrants ∧ 0 < d.get (F.PAWN_BUDGET_RATE g)
      ∧ (guaranteed = true ∨ (0 ≤ d.pawnLevel g ∧ d.bg.overrun ≠ some 4)) then
    match d.pawnNext g with
    | none => d
    | some c =>
      let d1 := { d with pn := { d.pn with turn := setAt d.pn.turn g (c.image, c.number) } }.bgDo 4 g 1
      if c.state = 1 then (d1.setChain { c with sendSetup := false, waited := 0 }).pawnEnter g c (d.setupBytes c)
      else (d1.setChain { c with next := c.next + 1 }).pawnEnter g c (d.blockBytes c.image c.next)
  else d

/-- A group whose pawn job has a frame it could send. -/
def Dev.pawnCould (d : Dev) (g : Nat) : Bool :=
  decide (0 < d.get (F.PAWN_BUDGET_RATE g)) && decide (0 ≤ d.pawnLevel g) && (d.pawnNext g).isSome

/-- Waits advance by one tempo in RUN (R504): the retry wait once SETUP has ended, or while no further block may be sent. -/
def Dev.pawnTick (d : Dev) : Dev :=
  if d.pw.phase = .run then
    { d with pn := { d.pn with chains := d.pn.chains.map (fun (c : Chain) =>
        let waits := !d.pawnBusy c && ((c.state == 1 && !c.sendSetup) || (c.state == 2 && decide (d.windowEnd c ≤ c.next)))
        { c with waited := if waits then c.waited + 1 else c.waited, still := if c.state = 3 then c.still + 1 else c.still }) } }
  else d

/-! ### Acknowledgments (R502, R504) -/

/-- Members that hold every block are counted once for their image. -/
def Dev.countDone (d : Dev) (c : Chain) : Dev :=
  let n := d.imgBlocks c.image
  ((c.members.zip c.have_).filter (fun x => decide (n ≤ x.2))).foldl (fun x m =>
    if x.pn.doneNodes.contains (c.image, m.1) then x
    else { x with pn := { x.pn with doneNodes := (c.image, m.1) :: x.pn.doneNodes } }.bump (F.PAWN_IMG_RESULT_NODES_DONE c.image) 1) d

/-- The transitions of a chain whose HAVE values have just been updated. -/
def Dev.chainStep (d : Dev) (c : Chain) : Dev :=
  let n := d.imgBlocks c.image
  let c1 := if c.state = 1 then { c with state := 2, next := c.first, waited := 0, sendSetup := false } else c
  if n ≤ c1.last then (d.setChain c1).chainDone c1
  else if c1.state = 2 ∧ n ≤ c1.first then d.setChain { c1 with state := 3, still := 0 }
  else d.setChain c1

/-- A frame whose MAC payload begins with 0x2A, from source `src` of PAN p (R502). -/
def Dev.pawnFrame (d : Dev) (src : Nat) (b : List Byte) : Dev :=
  let hit := d.pn.chains.find? (fun c => c.active && c.number == beField b 4 1
    && d.get (F.PAWN_IMG_STAT_CAMPAIGN c.image) == beField b 2 2)
  match hit with
  | none => d.bump F.PAWN_IGNORED_COUNT 1
  | some c =>
    if beField b 1 1 = 2 ∧ c.members.headD 0 = src ∧ beField b 5 1 = 0 ∧ beField b 6 1 = c.members.length then
      let new := (List.range c.members.length).map (fun k => max (c.have_.getD k 0) (beField b (8 + 2 * k) 2))
      let rose := new != c.have_
      let rose0 := decide (c.first < new.headD 0)
      let c1 := { c with have_ := new, retries := if rose && decide (c.state ≤ 2) then 0 else c.retries, waited := if rose0 then 0 else c.waited,
                         still := if rose then 0 else c.still }
      (d.countDone c1).chainStep c1
    else d.bump F.PAWN_IGNORED_COUNT 1

/-! ### Soft reset (R508) -/

def Dev.pawnReset (d : Dev) : Dev :=
  (((d.failChains (fun _ => true) 4).put F.PAWN_COUNT_BLOCKS 0).put F.PAWN_COUNT_RETRIES 0).put F.PAWN_IGNORED_COUNT 0

/-! ### Commands (R505) -/

/-- What refuses each pawn command (R505). -/
def Dev.pawnLoadConds (d : Dev) (e : Entry) : List (Bool × Nat) :=
  let i := e.p1 0; let off := e.p4 4; let buf := e.p4 8; let n := e.p4 12
  [(buf % 2 == 1, 0x05),
   (decide (3 < i) || e.p3 1 != 0 || off % 9 != 0 || n == 0 || decide (1048576 < n) || decide (4194240 < off + n)
      || !bufOk buf n || !e.zeroFrom 16, 0x01),
   (!d.enabled 0x0E || (decide (i ≤ 3) && decide (1 < d.imgState i)), 0x03)]

def Dev.pawnSealConds (d : Dev) (e : Entry) : List (Bool × Nat) :=
  let i := e.p1 0; let n := e.p4 4
  [(decide (3 < i) || e.p1 1 != 0 || e.p2 2 == 0 || n == 0 || decide (4194240 < n) || !e.zeroFrom 12, 0x01),
   (!d.enabled 0x0E || (decide (i ≤ 3) && d.imgState i != 1), 0x03)]

def Dev.pawnStartConds (d : Dev) (e : Entry) : List (Bool × Nat) :=
  let i := e.p1 0; let p := e.p1 1; let maxLen := e.p1 2; let ack := e.p1 3; let tg := e.p4 4
  let listed := tg != 0xFFFFFFFF
  [(listed && tg % 2 == 1, 0x05),
   (decide (3 < i) || decide (127 < p) || maxLen == 0 || decide (32 < maxLen) || ack == 0
      || decide (d.get F.PAWN_CFG_WINDOW < ack) || (listed && !inHostRegion tg (e.p4 8)) || !e.zeroFrom 12, 0x01),
   (!d.enabled 0x0E || (decide (i ≤ 3) && d.imgState i != 2 && d.imgState i != 4) || (decide (p ≤ 127) && !d.panEn p), 0x03)]

def Dev.pawnStopConds (d : Dev) (e : Entry) : List (Bool × Nat) :=
  [(decide (3 < e.p1 0) || !e.zeroFrom 1, 0x01), (!d.enabled 0x0E, 0x03)]

def Dev.pawnChainConds (d : Dev) (e : Entry) : List (Bool × Nat) :=
  let c := d.chain (e.p1 0) (e.p2 2)
  [(e.p4 4 % 2 == 1, 0x05),
   (decide (3 < e.p1 0) || e.p1 1 != 0 || c.isNone || !inHostRegion (e.p4 4) ((c.map (fun x => x.members.length)).getD 0)
      || !e.zeroFrom 8, 0x01),
   (!d.enabled 0x0E, 0x03)]

def Dev.pawnClearConds (d : Dev) (e : Entry) : List (Bool × Nat) :=
  let i := e.p1 0
  [(decide (3 < i) || !e.zeroFrom 1, 0x01), (!d.enabled 0x0E || (decide (i ≤ 3) && d.imgState i == 3), 0x03)]

/-- PAWN_LOAD (opcode 0x0810). -/
def Dev.cmdPawnLoad (d : Dev) (src : Src) (e : Entry) : Dev :=
  let i := e.p1 0; let off := e.p4 4; let buf := e.p4 8; let n := e.p4 12
  let code := oneCode (d.pawnLoadConds e)
  if code ≠ 0 then d.finish src code []
  else ((d.setPacked (imgAddr i) off (d.packed buf n)).put (F.PAWN_IMG_STAT_STATE i) 1).finish src 0 []

/-- PAWN_SEAL (opcode 0x0811). -/
def Dev.cmdPawnSeal (d : Dev) (src : Src) (e : Entry) : Dev :=
  let i := e.p1 0; let camp := e.p2 2; let n := e.p4 4
  let code := oneCode (d.pawnSealConds e)
  if code ≠ 0 then d.finish src code []
  else if crc32 (d.packed (imgAddr i) n) ≠ e.p4 8 then d.finish src 0x13 []
  else
    let d1 := { d with pn := { d.pn with crcs := setAt d.pn.crcs i (e.p4 8) } }
    let d2 := ((d1.put (F.PAWN_IMG_STAT_STATE i) 2).put (F.PAWN_IMG_STAT_CAMPAIGN i) camp).put (F.PAWN_IMG_BYTES_BYTES i) n
    d2.finish src 0 (beBytes 2 ((n + 63) / 64))

/-- The target set of PAWN_START: every valid entry of the PAN, or the handles listed. -/
def Dev.pawnTargets (d : Dev) (p targets count : Nat) : List Nat :=
  if targets = 0xFFFFFFFF then
    ((List.range 65536).map (fun a => p * 65536 + a)).filter (fun h => (d.validEntry h).isSome)
  else ((List.range count).map (fun k => d.memBits (targets + k) 22 0)).eraseDups

/-- PAWN_START (opcode 0x0812). -/
def Dev.cmdPawnStart (d : Dev) (src : Src) (e : Entry) : Dev :=
  let i := e.p1 0; let p := e.p1 1; let maxLen := e.p1 2; let ack := e.p1 3; let tg := e.p4 4; let count := e.p4 8
  let code := oneCode (d.pawnStartConds e)
  if code ≠ 0 then d.finish src code []
  else
    let t := d.pawnTargets p tg count
    let own := t.filter (fun h => h / 65536 == p && (d.validEntry h).isSome)
    let plan := d.planChains (d.panGroup p) maxLen own
    let nodes := (plan.flatMap (fun l => l)).eraseDups.length
    if plan.isEmpty then d.finish src 0x11 []
    else
      let new := (plan.zip (List.range plan.length)).map (fun x =>
        Chain.mk i x.2 x.1 (List.replicate x.1.length 0) 0 0 0 0 ack false 0 0)
      let older := d.pn.chains.filter (fun c => decide (c.image < i))
      let newer := d.pn.chains.filter (fun c => decide (i < c.image))
      let d1 := { d with pn := { d.pn with pans := setAt d.pn.pans i p, doneNodes := d.pn.doneNodes.filter (fun x => x.1 != i) } }
      let d2 := (d1.setChains (older ++ new ++ newer)).put (F.PAWN_IMG_STAT_STATE i) 3
      let d3 := ((d2.put (F.PAWN_IMG_CHAINS_PLANNED i) plan.length).put (F.PAWN_IMG_CHAINS_DONE i) 0).wr (R.PAWN_IMG_RESULT i) 0
      d3.finish src 0 (beBytes 2 plan.length ++ beBytes 4 nodes ++ beBytes 4 (t.length - nodes))

/-- PAWN_STOP (opcode 0x0813). -/
def Dev.cmdPawnStop (d : Dev) (src : Src) (e : Entry) : Dev :=
  let i := e.p1 0
  let code := oneCode (d.pawnStopConds e)
  if code ≠ 0 then d.finish src code []
  else
    let n := (d.pn.chains.filter (fun c => c.image == i && decide (c.state ≤ 3))).length
    (d.failChains (fun c => c.image == i) 4).finish src 0 (beBytes 2 n)

/-- PAWN_CHAIN (opcode 0x0814). -/
def Dev.cmdPawnChain (d : Dev) (src : Src) (e : Entry) : Dev :=
  let i := e.p1 0; let n := e.p2 2; let buf := e.p4 4
  let c := d.chain i n
  let len := (c.map (fun x => x.members.length)).getD 0
  let code := oneCode (d.pawnChainConds e)
  match code, c with
  | 0, some x =>
    let d1 := d.setMems buf ((x.members.zip x.have_).map (fun m => m.1 + m.2 % 65536 * 2 ^ 20))
    d1.finish src 0 (beBytes 1 x.state ++ beBytes 1 len ++ beBytes 1 x.cause ++ beBytes 1 0 ++ beBytes 2 x.retries)
  | k, _ => d.finish src k []

/-- PAWN_CLEAR (opcode 0x0815). -/
def Dev.cmdPawnClear (d : Dev) (src : Src) (e : Entry) : Dev :=
  let i := e.p1 0
  let code := oneCode (d.pawnClearConds e)
  if code ≠ 0 then d.finish src code [] else (d.put (F.PAWN_IMG_STAT_STATE i) 0).finish src 0 []

/-! ### Meanings -/

/-- PAWN_LOAD: bytes are copied into a node image (R505). -/
def execPawnLoad (ring : Fin 8) (hseq : Nat) (s : State) : Host.Outcome State Fault Refusal :=
  runs s (fun d => d.runRow ring hseq 0x0810 Dev.cmdPawnLoad)

/-- PAWN_SEAL: the image's CRC is checked and the image sealed (R498). -/
def execPawnSeal (ring : Fin 8) (hseq : Nat) (s : State) : Host.Outcome State Fault Refusal :=
  runs s (fun d => d.runRow ring hseq 0x0811 Dev.cmdPawnSeal)

/-- PAWN_START: chains are planned and the campaign starts (R499). -/
def execPawnStart (ring : Fin 8) (hseq : Nat) (s : State) : Host.Outcome State Fault Refusal :=
  runs s (fun d => d.runRow ring hseq 0x0812 Dev.cmdPawnStart)

/-- PAWN_STOP: an image's chains stop (R504, R505). -/
def execPawnStop (ring : Fin 8) (hseq : Nat) (s : State) : Host.Outcome State Fault Refusal :=
  runs s (fun d => d.runRow ring hseq 0x0813 Dev.cmdPawnStop)

/-- PAWN_CHAIN: one chain and its members' HAVE values are reported (R505). -/
def execPawnChain (ring : Fin 8) (hseq : Nat) (s : State) : Host.Outcome State Fault Refusal :=
  runs s (fun d => d.runRow ring hseq 0x0814 Dev.cmdPawnChain)

/-- PAWN_CLEAR: an image returns to EMPTY (R498). -/
def execPawnClear (ring : Fin 8) (hseq : Nat) (s : State) : Host.Outcome State Fault Refusal :=
  runs s (fun d => d.runRow ring hseq 0x0815 Dev.cmdPawnClear)

/-- PAWN_SETUP: the first waiting chain takes a free record, and SETUP is sent to its head when the bucket permits (R504). -/
def execPawnSetup (s : State) : Host.Outcome State Fault Refusal :=
  runs s (fun d =>
    if d.enabled 0x0E ∧ d.pw.phase = .run ∧ d.get F.PAWN_ACTIVE_CHAINS < 64 ∧ d.is F.UPD_STAT_MOVING = false then
      match d.pn.chains.find? (fun c => c.state == 0) with
      | none => d
      | some c =>
        let d1 := d.setChain { c with state := 1, retries := 0, sendSetup := true, waited := 0 }
        d1.pawnServe (d1.chainGroupOf c) false
    else d)

/-- PAWN_SEND: a group serves its next chain when its bucket permits (R503). -/
def execPawnSend (g : Fin 4) (s : State) : Host.Outcome State Fault Refusal :=
  runs s (fun d => d.pawnServe g false)

/-- PAWN_RETRY_TIMEOUT: RETRY_TEMPOS pass without progress; SETUP or blocks are sent again, or the chain fails (R504). -/
def execPawnRetryTimeout (image : Fin 4) (chain : Fin 256) (s : State) : Host.Outcome State Fault Refusal :=
  runs s (fun d => match d.chain image chain with
    | none => d
    | some c =>
      let due := d.pw.phase == .run && decide (d.get F.PAWN_CFG_RETRY_TEMPOS ≤ c.waited) && !d.pawnBusy c
        && ((c.state == 1 && !c.sendSetup) || (c.state == 2 && decide (d.windowEnd c ≤ c.next)))
      if !due then d
      else
        let c1 := { c with retries := c.retries + 1, waited := 0, sendSetup := c.state == 1,
                           next := if c.state = 2 then c.first else c.next }
        let d1 := (d.setChain c1).bump F.PAWN_COUNT_RETRIES 1
        if d.get F.PAWN_CFG_MAX_RETRIES ≤ c1.retries then d1.chainFail c1 1 else d1)

/-- PAWN_STALL_TIMEOUT: STALL_S seconds in DRAINING without a rise of any HAVE (R504). -/
def execPawnStallTimeout (image : Fin 4) (chain : Fin 256) (s : State) : Host.Outcome State Fault Refusal :=
  runs s (fun d => match d.chain image chain with
    | some c => if d.pw.phase = .run ∧ c.state = 3 ∧ d.get F.PAWN_CFG_STALL_S * 4000 ≤ c.still then d.chainFail c 2 else d
    | none => d)

end Sys2Proof.Machine
end

