-- ==== Sys2Proof/Machine/Tables.lean ====
section
/-! DEFINITION. Reads of table memory in error and the action of each region, BAR2, the patrol scrub, telemetry, the sweeper,
the timing clear, and the commands of DIR, FWD and TMEM (R41, R147 to R149, R356 to R370, R377, R378, R385 to R399,
R424). -/

namespace Sys2Proof.Machine

/-! ### Lines in error (R359, R360, R424) -/

/-- A line rewritten is no longer UE. -/
def Dev.closeUe (d : Dev) (line : Nat) : Dev :=
  { d with tab := { d.tab with ueLines := d.tab.ueLines.filter (fun l => l != line) } }

/-- A directory line (R360). -/
def Dev.dirLineUe (d : Dev) (e : Nat) : Dev :=
  let d1 := match d.eValid e, d.handleOf e with
    | true, some h => ((d.removeEntry h).bump F.DIR_LOST_COUNT 1).put F.DIR_LOST_HANDLE h
    | _, _ => d
  (d1.setMems (4 * e) [0, 0, 0, d1.xslot e * 2 ^ 13]).setXslot e 1

/-- A line of the timing table: the words of its two entries are cleared as for a load (R387). -/
def Dev.timingLineUe (d : Dev) (line : Nat) : Dev :=
  let e := (4 * line - 0x01C00000) / 2
  [e, e + 1].foldl (fun x k =>
    let y := x.setMems (timingAddr k) [0, x.lastNow * 256]
    if y.eValid k then y.setLineBits k 3 12 0 0x1000 else y) d

/-- A line of the forwarding tables: both entries are removed. -/
def Dev.fwdLineUe (d : Dev) (line : Nat) : Dev :=
  let a := 4 * line - 0x01800000
  let g := a / 0x00080000
  let k := a % 0x00080000 / 2
  ((d.fwdRemove g k).fwdRemove g (k + 1)).setMems (4 * line) [0, 0, 0, 0]

/-- What holds a cell of the frame store that is no held-completion cell. -/
inductive CellOwner where
  | down (t : Tx)
  | up (i : Nat)
  | backlog (ring i : Nat)
  | free
  deriving DecidableEq, Repr

/-- Owners of cells: frames in flow queues or handed to step 4, frames in egress queues, and waiting receive records. -/
def Dev.cellOwners (d : Dev) : List CellOwner :=
  (d.ra.txs.filter (fun t => decide (0 < t.cells) && (t.stage == .queued || preAir t.stage))).map CellOwner.down
    ++ (List.range d.sch.egress.length).map CellOwner.up
    ++ (List.range 4).flatMap (fun n => (List.range (d.rxRing n).backlog.length).map (fun i => CellOwner.backlog n i))

/-- A cell in error (R424). Which frame holds it is a free value. -/
def Dev.cellUe (d : Dev) : Dev :=
  let (n, d1) := d.draw
  let l := d1.cellOwners
  match (l ++ [CellOwner.free]).getD (Config.freeNat n % (l.length + 1)) CellOwner.free with
  | .down t => if t.stage = .queued then d1.endQueued t 20 else d1.txFinish t 0x03 20 false 0
  | .up i =>
    match d1.sch.egress[i]? with
    | none => d1
    | some x =>
      let d2 := { d1 with sch := { d1.sch with egress := d1.sch.egress.eraseIdx i } }
      ((d2.freeCells false x.cells).bump (F.QEGR_COUNT_DROPPED.at x.queue) 1).evt (ev 8 3) 1
  | .backlog n i =>
    let r := d1.rxRing n
    match r.backlog[i]? with
    | none => d1
    | some x => ((d1.setRxRing n { r with backlog := r.backlog.eraseIdx i }).freeCells false x.cells).bump (F.RXP_RXR_STAT_DROPPED n) 1
  | .free => d1

/-- A held-completion cell: eight completions of one ring are lost (R404, R424). -/
def Dev.heldCellUe (d : Dev) (c : Nat) : Dev :=
  let n := c / 512
  let r := d.ring n
  d.setRing n { r with held := r.held.filter (fun x => x.dseq % 4096 / 8 != c % 512) }

/-- The words of a host-region line that reads as uncorrectable are free values. -/
def Dev.hostLineUe (d : Dev) (line : Nat) : Dev :=
  (List.range 4).foldl (fun x k =>
    let (n, y) := x.draw
    y.setMem (4 * line + k) (Config.freeNat n % 2 ^ 36)) d

/-- The action of a line's region on a UE (R360). -/
def Dev.ueAction (d : Dev) (line : Nat) : Dev :=
  let a := 4 * line
  match regionOf a with
  | 0 => (d.dirLineUe line).closeUe line
  | 1 => (d.fwdLineUe line).closeUe line
  | 2 => d.zeroLine line
  | 3 =>
    if a < 0x02800000 then (d.timingLineUe line).closeUe line
    else
      let c := (a - 0x02800000) / 64
      (if c < 4096 then d.heldCellUe c else d.cellUe).closeUe line
  | 4 => (d.imageDamaged ((a - 0x03400000) / 0x00100000)).zeroLine line
  | 5 => if a < 0x03820000 then (d.flowRecordError ((a - 0x03800000) / 8)).closeUe line else d.zeroLine line
  | 6 => d.zeroLine line
  | _ => d.hostLineUe line

/-- The region's action, which writes table memory: held during the PROMOTE pause (R494). -/
def Dev.ueRewrite (d : Dev) (line : Nat) : Dev := if d.paused then d.holdWrite (.ue line) else d.ueAction line

/-- A read of a line by a reader (0 foreground, 1 scrub, 2 host), with the errors found in it (R357 to R360). The Bool says
that data was returned. -/
def Dev.readLine (d : Dev) (line : Nat) (errs : List LineError) (reader : Nat) : Dev × Bool :=
  if d.lineBad line then (d.lineUe line reader, false)
  else match errs.find? (fun e => e.line == line) with
  | none => (d, true)
  | some e =>
    let syms := e.syms.map (fun s => (s.1.val, s.2.toNat))
    match rsDecode syms with
    | .clean => (d.xorSymbols line syms, true)
    | .corrected c => (((d.xorSymbols line syms).xorSymbols line c).lineCe line c.length reader, true)
    | .uncorrectable => ((d.lineUe line reader).ueRewrite line, false)

/-- Foreground reads that meet errors. -/
def Dev.strikes (d : Dev) (errs : List LineError) : Dev :=
  errs.foldl (fun x e => if e.line < 0x01000000 then (x.readLine e.line errs 0).1 else x) d

/-! ### BAR2 (R147 to R149) -/

/-- The table-memory word of a BAR2 byte offset. -/
def Dev.barWord (d : Dev) (off : Nat) : Nat := 2 ^ 20 * d.get F.HOST_WIN_BASE_BASE + off / 8

/-- Words whose value the spec does not state: those of frame-store cells that have been filled, and HEAD and TAIL of a flow that holds
frames (R404, R423). -/
def Dev.wordOpen (d : Dev) (a : Nat) : Bool :=
  (decide (0x02800000 ≤ a) && decide (a < 0x03400000) && d.tab.store.cells.any (fun x => x.1 == (a - 0x02800000) / 64))
    || (decide (0x03800000 ≤ a) && decide (a < 0x03820000) && a % 8 == 3 && decide (0 < d.fDepth ((a - 0x03800000) / 8)))

/-- A word of an endpoint entry is read: its timing is cleared first where that is still to come (R374, R378). -/
def Dev.touchWord (d : Dev) (a : Nat) : Dev :=
  if a < 0x01800000 then d.touchTiming (a / 4)
  else if 0x01C00000 ≤ a ∧ a < 0x02800000 then d.touchTiming ((a - 0x01C00000) / 2) else d

/-- The 64-bit slot that a BAR2 read returns. -/
def Dev.barSlot (d : Dev) (a : Nat) : Nat :=
  if 0x02800000 ≤ a ∧ a < 0x03400000 then d.storeWord a
  else if d.wordOpen a then
    let f := (a - 0x03800000) / 8
    (Config.flowEnds d.tab.store.fills f (d.fDepth f)).toNat
  else d.mem a

/-! ### DIR_LOAD (R385 to R388) -/

/-- A load record (R385). -/
structure LoadRecord where
  handle : Nat
  ext : Nat
  /-- The slot bound, and the bits of KEY, which stand without KEY_V too. -/
  key : Option Nat
  keyBits : Nat
  hwm : Option Nat
  lastSeq : Nat
  zeros : Nat
  hwmRaw : Nat

def Dev.loadRecord (d : Dev) (a : Nat) : LoadRecord :=
  { handle := d.memBits a 22 0, ext := 2 ^ 28 * d.mem (a + 1) + d.memBits (a + 2) 35 8,
    key := if d.memBits a 35 35 = 1 then some (d.memBits a 34 23) else none, keyBits := d.memBits a 34 23,
    hwm := if d.memBits (a + 3) 35 35 = 1 then some (d.memBits (a + 3) 31 0) else none,
    lastSeq := d.memBits (a + 2) 7 0, zeros := d.memBits (a + 3) 34 32, hwmRaw := d.memBits (a + 3) 31 0 }

/-- An entry held by the same extended address is updated. -/
def Dev.updateEntry (d : Dev) (e : Nat) (r : LoadRecord) : Dev :=
  let d1 := match d.eKey e with
    | some k => d.keyRef k false
    | none => d
  let d2 := match r.key with
    | some k => ((d1.keyRef k true).setLineBits e 0 33 22 k).setLineBits e 2 3 3 1
    | none => (d1.setLineBits e 0 33 22 r.keyBits).setLineBits e 2 3 3 0
  match r.hwm with
  | none => d2
  | some h =>
    match d2.eHwm e with
    | some old => if old < h then (d2.setLineBits e 1 35 4 h).setLineBits e 0 21 14 r.lastSeq else d2
    | none => (d2.setLineBits e 1 35 4 h).setLineBits e 0 21 14 r.lastSeq

/-- One record (R386): the device after it, its code, and whether it updated an entry. -/
def Dev.loadOne (d : Dev) (a : Nat) (errs : List LineError) : Dev × Nat × Bool :=
  let (d1, ok) := d.readLine (a / 4) errs 0
  if !ok then (d1, 0x03, false)
  else
    let r := d1.loadRecord a
    let p := r.handle / 65536
    let addr := r.handle % 65536
    let held := d1.validEntry r.handle
    let other := d1.lookupExt p r.ext
    if r.zeros ≠ 0 ∨ 127 < p ∨ reservedAddr addr = true ∨ r.hwm = some 0xFFFFFFFF then (d1, 0x01, false)
    else if d1.panEn p = false ∨ d1.ownsAddr p addr = false then (d1, 0x01, false)
    else if (r.key.map (fun k => d1.activeSlot k [1, 2] p)) = some false then (d1, 0x03, false)
    else match held with
    | some e =>
      if d1.eExt e ≠ r.ext then (d1, 0x03, false)
      else (d1.updateEntry e r, 0, true)
    | none =>
      if other.1.isSome then (d1.notePeak other.2, 0x03, false)
      else
        let (d2, c) := (d1.notePeak other.2).createEntry { handle := r.handle, ext := r.ext, key := r.key, keyBits := r.keyBits, hwm := r.hwm, lastSeq := r.lastSeq, heard := none }
        (d2, if c = 0 then 0 else 0x12, false)

/-- Up to n further records of a load job. -/
def Dev.loadSome (d : Dev) (j : LoadJob) (errs : List LineError) : Nat → Dev × LoadJob
  | 0 => (d, j)
  | n + 1 =>
    if j.count ≤ j.next then (d, j)
    else
      let (d1, code, upd) := d.loadOne (j.buf + 4 * j.next) errs
      let j1 : LoadJob :=
        if code = 0 then (if upd then { j with updated := j.updated + 1 } else { j with loaded := j.loaded + 1 })
        else { j with failed := j.failed + 1,
                      firstFail := if j.failed = 0 then j.next else j.firstFail,
                      firstCode := if j.failed = 0 then code else j.firstCode }
      (if code = 0 then d1.bump F.DIR_STAT_LOADED 1 else d1.bump F.DIR_STAT_FAILED 1).loadSome { j1 with next := j.next + 1 } errs n

/-- What refuses each command of table memory (R385, R396). -/
def Dev.dirLoadConds (d : Dev) (e : Entry) : List (Bool × Nat) :=
  [(e.p4 0 % 4 != 0, 0x05), (e.p2 4 == 0 || !inHostRegion (e.p4 0) (4 * e.p2 4) || !e.zeroFrom 6, 0x01), (!d.enabled 0x20, 0x03)]

def Dev.dirRemoveConds (d : Dev) (e : Entry) : List (Bool × Nat) :=
  [(decide (2 ^ 23 ≤ e.p4 0) || !e.zeroFrom 4, 0x01), (!d.enabled 0x20, 0x03), ((d.validEntry (e.p4 0)).isNone, 0x11)]

def Dev.dirFindConds (d : Dev) (e : Entry) : List (Bool × Nat) :=
  [(decide (127 < e.p1 0) || e.p3 1 != 0 || !e.zeroFrom 12, 0x01), (!d.enabled 0x20, 0x03)]

def Dev.fwdFlushConds (d : Dev) (e : Entry) : List (Bool × Nat) :=
  let g := e.p1 0; let h := e.p4 4
  let all := h == 0xFFFFFFFF
  [(decide (3 < g) || e.p3 1 != 0 || (!all && decide (2 ^ 23 ≤ h)) || !e.zeroFrom 8, 0x01),
   (decide (g ≤ 3) && !d.enabled (0x24 + g), 0x03),
   (!all && (d.fwdFind g h).isNone, 0x11)]

def clearLineConds (e : Entry) : List (Bool × Nat) :=
  [(decide (e.p4 0 < 0x00F80000) || decide (0x00FFFFFF < e.p4 0) || !e.zeroFrom 4, 0x01)]

/-- DIR_LOAD (opcode 0x0500): the load starts, or is refused. -/
def Dev.cmdDirLoad (d : Dev) (src : Src) (e : Entry) : Dev :=
  let buf := e.p4 0; let n := e.p2 4
  let code := oneCode (d.dirLoadConds e)
  if code ≠ 0 then d.finish src code []
  else if d.tab.loads.any (fun j => j.src == src) then d
  else { d with tab := { d.tab with loads := d.tab.loads ++
      [{ src := src, buf := buf, count := n, next := 0, loaded := 0, updated := 0, failed := 0, firstFail := 0xFFFF, firstCode := 0 }] } }

/-- Records of loads that this tempo may still process, of its 2,048 (R386). -/
def Dev.loadLeft (d : Dev) : Nat := if d.tab.loadT = d.tempo + 1 then 2048 - d.tab.loadN else 2048

/-- The tempo's records of the oldest load (R386); after the last, the command completes (R388). -/
def Dev.loadBatch (d : Dev) (errs : List LineError) : Dev :=
  match d.tab.loads with
  | [] => d
  | j :: rest =>
    if d.loadLeft = 0 then d
    else
      let (x, j1) := d.loadSome j errs d.loadLeft
      let d1 := { x with tab := { x.tab with loadT := d.tempo + 1, loadN := 2048 - d.loadLeft + (j1.next - j.next) } }
      if j1.count ≤ j1.next then
        { d1 with tab := { d1.tab with loads := rest } }.finish j1.src (if j1.failed = 0 then 0 else j1.firstCode)
          (beBytes 2 j1.loaded ++ beBytes 2 j1.updated ++ beBytes 2 j1.failed ++ beBytes 2 j1.firstFail ++ beBytes 1 j1.firstCode)
      else { d1 with tab := { d1.tab with loads := j1 :: rest } }

/-! ### Other commands (R396) -/

/-- DIR_REMOVE (opcode 0x0501). -/
def Dev.cmdDirRemove (d : Dev) (src : Src) (e : Entry) : Dev :=
  let h := e.p4 0
  let code := oneCode (d.dirRemoveConds e)
  if code ≠ 0 then d.finish src code [] else (d.removeEntry h).finish src 0 []

/-- DIR_FIND (opcode 0x0502). -/
def Dev.cmdDirFind (d : Dev) (src : Src) (e : Entry) : Dev :=
  let p := e.p1 0
  let (x, probes) := d.lookupExt p (e.p8 4)
  let code := oneCode (d.dirFindConds e ++ [(x.isNone, 0x11)])
  let d1 := if code = 0 ∨ code = 0x11 then d.notePeak probes else d
  if code ≠ 0 ∧ code ≠ 0x11 then d1.finish src code []
  else d1.finish src code (beBytes 4 ((x.bind d1.handleOf).getD 0) ++ beBytes 1 probes)

/-- FWD_FLUSH (opcode 0x0510). -/
def Dev.cmdFwdFlush (d : Dev) (src : Src) (e : Entry) : Dev :=
  let g := e.p1 0; let h := e.p4 4
  let all := h == 0xFFFFFFFF
  let code := oneCode (d.fwdFlushConds e)
  if code ≠ 0 then d.finish src code []
  else if all then
    let l := d.fwdEntries g
    (l.foldl (fun x k => x.fwdRemove g k) d).finish src 0 (beBytes 4 l.length)
  else match d.fwdFind g h with
    | some k => (d.fwdRemove g k).finish src 0 (beBytes 4 1)
    | none => d

/-- TMEM_CLEAR_LINE (opcode 0x0520). -/
def Dev.cmdClearLine (d : Dev) (src : Src) (e : Entry) : Dev :=
  let code := oneCode (clearLineConds e)
  if code ≠ 0 then d.finish src code []
  else (d.zeroLine (e.p4 0)).finish src 0 []

/-! ### The patrol scrub (R362 to R364, R377, R381) -/

/-- Housekeeping of a directory line read by the scrub. -/
def Dev.housekeep (d0 : Dev) (e : Nat) : Dev :=
  let d := if d0.eValid e then d0.touchTiming e else d0
  let d1 := if d.eValid e then
      let t1 := timingAddr e + 1
      let last := d.memBits t1 19 8
      let x := if last ≠ 0xFFF ∧ 3584 ≤ (d.lastNow + 4095 - last) % 4095 then d.setMemBits t1 19 8 0xFFF else d
      if x.memBits t1 7 7 = 1 ∧ 2 ^ 35 ≤ (x.monoUs % 2 ^ 36 + 2 ^ 36 - x.mem (timingAddr e)) % 2 ^ 36 then
        ((x.setMemBits t1 7 7 0).setMemBits t1 35 20 0).setLineBits e 3 12 0 0x1000
      else x
    else d
  if 0 < e ∧ d1.xslot e = 0 ∧ d1.xslot (e - 1) = 1 then d1.setXslot (e - 1) 0 else d1

/-- A write that the PROMOTE pause held is done (R494). -/
def Dev.heldWrite (d : Dev) (w : HeldWrite) : Dev :=
  match w with
  | .word a v => d.setMem a v
  | .keep l => d.housekeep l
  | .ue l => d.ueAction l
  | .cfg k v => { d with cfg := SMap.set resetReg d.cfg k v }

/-- The end of a pass (R363). -/
def Dev.scrubPassEnd (d : Dev) : Dev :=
  if d.tab.passWhole then
    let d1 := ((d.bump F.TMEM_SCRUB_PASSES_PASSES 1).put F.TMEM_SCRUB_PASSES_UE_LAST (min d.tab.passUe 0xFFFF)).put
      F.TMEM_SCRUB_STAT_STATUS (if d.tab.passUe = 0 then 1 else 2)
    { d1 with tab := { d1.tab with passUe := 0 } }.raise 0x21 2
  else { d with tab := { d.tab with passUe := 0, passWhole := true } }

/-- The scrub reads the line at POS, and POS moves on; with EN = 0 it reads no line beyond the directory (R364). -/
def Dev.scrubLine (d : Dev) (errs : List LineError) : Dev :=
  let l := d.get F.TMEM_SCRUB_STAT_POS
  let (d1, ok) := d.readLine l errs 1
  let d2 := if ok then d1 else { d1 with tab := { d1.tab with passUe := d1.tab.passUe + 1 } }
  let d3 := (if l < 6291456 then (if d2.paused then d2.holdWrite (.keep l) else d2.housekeep l) else d2).evt (ev 7 5) 1
  if d.is F.TMEM_SCRUB_CFG_EN then
    if l = 0xFFFFFF then (d3.put F.TMEM_SCRUB_STAT_POS 0).scrubPassEnd else d3.put F.TMEM_SCRUB_STAT_POS (l + 1)
  else if 6291455 < l then d
  else d3.put F.TMEM_SCRUB_STAT_POS (if l = 6291455 then 0 else l + 1)

/-- The scrub reads n lines. -/
def Dev.scrubLines (d : Dev) (errs : List LineError) : Nat → Dev
  | 0 => d
  | n + 1 => (d.scrubLine errs).scrubLines errs n

/-- At a boundary: a pass restarts, or POS returns to the directory (R364). -/
def Dev.scrubBoundary (d : Dev) : Dev :=
  if d.tab.scrubRestart then
    { d with tab := { d.tab with scrubRestart := false, passUe := 0, passWhole := true } }.put F.TMEM_SCRUB_STAT_POS 0
  else if d.is F.TMEM_SCRUB_CFG_EN = false ∧ 6291455 < d.get F.TMEM_SCRUB_STAT_POS then d.put F.TMEM_SCRUB_STAT_POS 0
  else d

/-- SCRUB_CFG.EN has changed (R364). -/
def Dev.scrubEnChanged (d : Dev) : Dev :=
  if d.is F.TMEM_SCRUB_CFG_EN then { d with tab := { d.tab with scrubRestart := true } }
  else { d with tab := { d.tab with scrubRestart := false, passWhole := false } }

/-! ### Telemetry (R365 to R369) -/

def telemAddr (r : Nat) : Nat := 0x03A00000 + 4 * r

/-- A record of a snapshot: KIND, and words 2 and 3; word 1 is SYS.TEMPO of the snapshot. -/
def Dev.telemRecord (d : Dev) (kind w2 w3 : Nat) : List Nat := [kind * 2 ^ 32, d.sysTempo, w2 % 2 ^ 36, w3 % 2 ^ 36]

/-- The records of a snapshot (R366, R367). -/
def Dev.telemSnapshot (d : Dev) : List (List Nat) :=
  let kinds := d.get F.TMEM_TELEM_CFG_KINDS
  let pick := fun (b : Nat) (l : List (List Nat)) => if bit kinds b then l else []
  pick 0 [d.telemRecord 1
      (d.get F.PWR_THERM_TJ * 2 ^ 28 + min (d.get F.PWR_SUPPLY_VIN) 4095 * 2 ^ 16 + min d.tab.telemRf 8191 * 8)
      (min d.tab.telemBufMin (2 ^ 18 - 1) * 2 ^ 18 + min d.tab.telemOverruns (2 ^ 18 - 1))]
    ++ pick 1 ((List.range 4).map (fun g => d.telemRecord 2
      (g * 2 ^ 34 + d.inUse g * 2 ^ 22 + d.tab.telemPoolPeak.getD g 0 * 2 ^ 10)
      (min (d.tab.telemRefused.getD g 0) 0xFFFF * 2 ^ 20 + min (d.tab.telemChecked.getD g 0) 0xFFFFF)))
    ++ pick 2 (((List.range 32).filter (fun s => ((d.slotInForce s).map (fun r => r.defined)).getD false)).map (fun s =>
      d.telemRecord 3 (s * 2 ^ 31) (min (d.dutyHour s + d.dutyReserved s d.ra.nextTx) 0xFFFFFFFF)))
    ++ pick 3 (((List.range 256).filter (fun q => d.inService (q / 8))).map (fun q =>
      d.telemRecord 4 (d.get (F.QPCLS_SAMPLE_DEPTH.at q) * 2 ^ 20 + d.get (F.QPCLS_SAMPLE_DELAY.at q) * 16)
        (q * 2 ^ 28 + ((d.tab.telemSelected.find? (fun x => x.1 == q)).map (fun x => x.2)).getD 0)))
    ++ pick 4 (((List.range 64).filter (fun k => d.get (F.EVC_SRC_ID k) != 0x3BF)).map (fun k =>
      d.telemRecord 5 (k * 2 ^ 30 + d.get (F.EVC_SRC_ID k) * 2 ^ 20 + d.evcCount k / 2 ^ 32) (d.evcCount k % 2 ^ 32)))

/-- A snapshot is due: it is queued, with the normal slice of its tempo (R369), or skipped while records of the previous one are queued. -/
def Dev.telemTake (d : Dev) : Dev :=
  let d0 := { d with tab := { d.tab with telemCount := 0 } }
  if !d0.tab.telemQueue.isEmpty then d0.bump F.TMEM_TELEM_STAT_SKIPPED 1
  else
    { d0 with bg := { d0.bg with due := setAt d0.bg.due 3 [min 64 d0.telemSnapshot.length] }, tab := { d0.tab with
        telemQueue := d0.telemSnapshot, telemRf := d0.rfLoad, telemBufMin := d0.get F.QSCH_BUF_FREE_FREE, telemOverruns := 0,
        telemPoolPeak := (List.range 4).map (fun g => d0.inUse g), telemRefused := List.replicate 4 0,
        telemChecked := List.replicate 4 0, telemSelected := [] } }

/-- Up to n queued records are written into the ring (R368). -/
def Dev.telemWrite (d : Dev) : Nat → Dev
  | 0 => d
  | n + 1 =>
    match d.tab.telemQueue with
    | [] => d
    | r :: rest =>
      let line := d.get F.TMEM_TELEM_WR_LINE
      let seq := d.get F.TMEM_TELEM_SEQ_SEQ
      let d1 := d.setMems (telemAddr line) (setAt r 0 (r.getD 0 0 + seq))
      let d2 := ({ d1 with tab := { d1.tab with telemQueue := rest } }.closeUe (telemAddr line / 4)).put F.TMEM_TELEM_WR_LINE
        ((line + 1) % 1048576)
      (d2.put F.TMEM_TELEM_SEQ_SEQ ((seq + 1) % 2 ^ 32)).telemWrite n

/-- TELEM_CFG.EN has changed: records queued are discarded, and the interval count starts again (R365, R366). -/
def Dev.telemEnChanged (d : Dev) : Dev := { d with tab := { d.tab with telemCount := 0, telemQueue := [] } }

/-! ### Soft resets (R397 to R399) -/

def Dev.dirReset (d : Dev) : Dev :=
  (((d.put F.DIR_XPROBE_PEAK 0).wr R.DIR_STAT 0).wr R.DIR_LOST 0).wr R.DIR_FULL 0

def Dev.tmemReset (d : Dev) : Dev :=
  let d1 := (List.range 4).foldl (fun x c => x.put (F.TMEM_CE_CNT_COUNT c) 0) d
  let d2 := ((d1.put F.TMEM_UE_CNT_COUNT 0).wr R.TMEM_SCRUB_PASSES 0).put F.TMEM_TELEM_STAT_SKIPPED 0
  ({ d2 with tab := { d2.tab with passUe := 0, passWhole := true, telemQueue := [], telemCount := 0 } }).wr R.TMEM_SCRUB_STAT 0

def Dev.fwdReset (d : Dev) (g : Nat) : Dev :=
  let d1 := (d.fwdEntries g).foldl (fun x k => x.fwdRemove g k) d
  let d2 := (((d1.wr (R.FWD_STAT_A g) 0).wr (R.FWD_STAT_B g) 0).wr (R.FWD_STAT_C g) 0).wr (R.FWD_MOVE_LAST g) 0
  { d2 with tab := { d2.tab with recent := setAt d2.tab.recent g [] } }

/-! ### Meanings -/

/-- BAR2_READ: a read of 8 bytes, or of one half of a slot, at a byte offset of the window (R147). During the PROMOTE pause timing that is still
to be cleared reads as cleared, and is written later (R378, R494). -/
def execBar2Read (off : Nat) (whole : Bool) (errs : List LineError) (s : State) : Host.Outcome State Fault Refusal :=
  runs s (fun d =>
    if !d.hostOpen then d
    else
      let a := d.barWord off % 2 ^ 26
      let (d1, ok) := (if d.paused then d else d.touchWord a).readLine (a / 4) errs 2
      let w := if ok then (d1.touchWord a).barSlot a else 0xFFFFFFFFFFFFFFFF
      d1.emit (.bar2Read off (if whole then w else if off / 4 % 2 = 0 then w % 2 ^ 32 else w / 2 ^ 32) (!ok)))

/-- BAR2_WRITE: a write of `bytes` bytes at a byte offset, `all` enables set (R148); the PROMOTE pause holds it (R494). -/
def execBar2Write (off bytes : Nat) (all : Bool) (value : Nat) (errs : List LineError) (s : State) :
    Host.Outcome State Fault Refusal :=
  runs s (fun d =>
    if !d.hostOpen then d
    else
      let a := d.barWord off % 2 ^ 26
      let shape := bytes != 8 || off % 8 != 0 || !all
      let inside := inHostRegion a 1
      let (d1, ok) := if !shape && inside && decide (value < 2 ^ 36) then d.readLine (a / 4) errs 2 else (d, true)
      let code := oneCode [(shape, 0x05), (decide (2 ^ 36 ≤ value), 0x02), (!inside, 0x01), (!ok, 0x03)]
      if code ≠ 0 then d1.reject 0x21 code a (value % 2 ^ 32)
      else if d1.paused then d1.holdWrite (.word a value) else d1.setMem a value)

/-- DIR_LOAD: the begun command starts loading records (R385). -/
def execDirLoad (ring : Fin 8) (hseq : Nat) (s : State) : Host.Outcome State Fault Refusal :=
  runs s (fun d => d.runRow ring hseq 0x0500 Dev.cmdDirLoad)

/-- DIR_LOAD_BATCH: one tempo's records of a load are processed (R386, R388). -/
def execDirLoadBatch (errs : List LineError) (s : State) : Host.Outcome State Fault Refusal :=
  runs s (fun d => if d.paused then d else d.loadBatch errs)

/-- DIR_REMOVE (R389). -/
def execDirRemove (ring : Fin 8) (hseq : Nat) (s : State) : Host.Outcome State Fault Refusal :=
  runs s (fun d => d.runRow ring hseq 0x0501 Dev.cmdDirRemove)

/-- DIR_FIND (R396). -/
def execDirFind (ring : Fin 8) (hseq : Nat) (s : State) : Host.Outcome State Fault Refusal :=
  runs s (fun d => d.runRow ring hseq 0x0502 Dev.cmdDirFind)

/-- FWD_FLUSH (R396). -/
def execFwdFlush (ring : Fin 8) (hseq : Nat) (s : State) : Host.Outcome State Fault Refusal :=
  runs s (fun d => d.runRow ring hseq 0x0510 Dev.cmdFwdFlush)

/-- TMEM_CLEAR_LINE (R396). -/
def execTmemClearLine (ring : Fin 8) (hseq : Nat) (s : State) : Host.Outcome State Fault Refusal :=
  runs s (fun d => d.runRow ring hseq 0x0520 Dev.cmdClearLine)

/-- SCRUB_SLICE: the scrub reads lines of its slice for the tempo, at most `lines` of them (R362). -/
def execScrubSlice (lines : Nat) (errs : List LineError) (s : State) : Host.Outcome State Fault Refusal :=
  runs s (fun d =>
    if d.awake then
      let n := min lines (d.bgLeft 1 0)
      (d.scrubLines errs n).bgDo 1 0 n
    else d)

/-- TIMING_CLEAR_SLICE: after a long SLEEP, 16,384 entries are cleared in a full tempo (R378). -/
def execTimingClearSlice (s : State) : Host.Outcome State Fault Refusal :=
  runs s (fun d =>
    if d.paused = false ∧ d.is F.DIR_TCLEAR_ACTIVE = true ∧ d.tab.clearFrom ≤ d.tempo then
      let n := d.get F.DIR_TCLEAR_NEXT
      let d1 := (List.range 16384).foldl (fun (x : Dev) k => x.clearTiming (n + k)) d
      let d2 := { d1 with tab := { d1.tab with clearFrom := d.tempo + 1 } }
      if 6291456 ≤ n + 16384 then (d2.put F.DIR_TCLEAR_NEXT 0).put F.DIR_TCLEAR_ACTIVE 0 else d2.put F.DIR_TCLEAR_NEXT (n + 16384)
    else d)

/-- TELEM_SNAPSHOT: the interval count has reached INTERVAL (R366). -/
def execTelemSnapshot (s : State) : Host.Outcome State Fault Refusal :=
  runs s (fun d =>
    if d.is F.TMEM_TELEM_CFG_EN ∧ d.get F.TMEM_TELEM_CFG_INTERVAL ≤ d.tab.telemCount then d.telemTake else d)

/-- TELEM_WRITE_SLICE: the telemetry job writes queued records, at most `lines` and at most its slice (R369). -/
def execTelemWriteSlice (lines : Nat) (s : State) : Host.Outcome State Fault Refusal :=
  runs s (fun d =>
    if d.awake ∧ d.paused = false ∧ d.is F.TMEM_TELEM_CFG_EN = true then
      let n := min (min lines (d.bgLeft 3 0)) d.tab.telemQueue.length
      (d.telemWrite n).bgDo 3 0 n
    else d)

/-- SWEEP_VISIT: the sweeper of a pipeline visits entries of its slice for the tempo, at most `n` (R394). -/
def execSweepVisit (g : Fin 4) (n : Reads Nat) (s : State) : Host.Outcome State Fault Refusal :=
  runs s (fun d =>
    if d.awake ∧ d.paused = false ∧ d.enabled (0x24 + g) = true ∧ d.is (F.FWD_CFG_SWEEP_EN g) = true then
      let k := min n.of (d.bgLeft 2 g)
      ((d.strikes n.errs).sweep g k).bgDo 2 g k
    else d)

end Sys2Proof.Machine
end

