-- ==== Sys2Proof/Machine/Entries.lean ====
section
/-! DEFINITION. Acceptance of ring commands, and the one code of a command that is refused or late (R23, R24, R151 to R156). -/

namespace Sys2Proof.Machine

/-! ### What PARAMS alone refuses, for commands of later chapters -/

/-- The codes of a register command before any access: COUNT, alignment, and the end of the register space. -/
def regCmdCode (e : Entry) : Nat :=
  let a := e.p4 0
  let n := e.p1 4
  oneCode [(decide (n = 0) || decide (4 < n), 0x01), (a % 4 != 0, 0x05), (decide (0x100000 < a + 4 * n), 0x01)]

/-- CAL_REQUEST's PARAMS (R242). -/
def calRequestRange (e : Entry) : List (Bool × Nat) :=
  [(decide (3 < e.p1 0) || e.p2 1 == 0 || decide (512 ≤ e.p2 1) || !e.zeroFrom 3, 0x01)]

/-- BHL_MODULE_READ: its PARAMS, and an empty cage (R435). -/
def Dev.moduleReadConds (d : Dev) (e : Entry) : List (Bool × Nat) :=
  let port := e.p1 0; let dev := e.p1 1; let n := e.p1 3
  [(decide (1 < port) || !(dev == 0xA0 || dev == 0xA2) || n == 0 || decide (16 < n) || decide (256 < e.p1 2 + n) || !e.zeroFrom 4, 0x01),
   (!d.pins.modPresent.getLsbD port, 0x03)]

/-- Conditions of R491 on the owner lock, motion and power. -/
def Dev.updRefusals (d : Dev) : List (Bool × Nat) :=
  [(d.ks.lock, 0x0D), (d.is F.UPD_STAT_MOVING, 0x0B), (d.is F.PWR_FLAGS_VIN_LOW || d.is F.PWR_FLAGS_VBAK_LOW, 0x0C)]

/-- UPD_POLICY (R496). -/
def Dev.updPolicyConds (d : Dev) (e : Entry) : List (Bool × Nat) :=
  let zero := ((e.params.drop 2).take 4 ++ (e.params.drop 8).take 24).all (fun b => b == 0)
  d.ownerConds 0x0801 e ++ [(decide (1 < e.p1 0) || decide (1 < e.p1 1) || !zero, 0x01)]

/-- What refuses the command of an entry as the device stands, by its opcode; an opcode that no owner defines is out of range (R152). -/
def Dev.entryConds (d : Dev) (e : Entry) : List (Bool × Nat) :=
  match e.opcode with
  | 0x0000 | 0x0802 => []
  | 0x0001 | 0x0002 => [(regCmdCode e != 0, regCmdCode e)]
  | 0x0003 => [(decide (7 < e.p1 0), 0x01)]
  | 0x0200 => d.vaultConds e
  | 0x0210 => calRequestRange e
  | 0x0300 => d.txRawConds e
  | 0x0320 => d.macSendConds e
  | 0x0321 | 0x0322 => d.nodeConds e
  | 0x0323 => d.nodeScanConds e
  | 0x0330 => d.floodSendConds e
  | 0x0331 => d.peerAdoptConds e
  | 0x0400 => d.keyLoadConds e
  | 0x0401 => d.keyEraseConds e
  | 0x0402 => d.keyBindConds e
  | 0x0403 => keyInfoConds e
  | 0x0404 => d.ownerLockConds e
  | 0x0405 => d.ownerRekeyConds e
  | 0x0500 => d.dirLoadConds e
  | 0x0501 => d.dirRemoveConds e
  | 0x0502 => d.dirFindConds e
  | 0x0510 => d.fwdFlushConds e
  | 0x0520 => clearLineConds e
  | 0x0600 => qschFlushConds e
  | 0x0700 => d.moduleReadConds e
  | 0x0800 => d.updRefusals
  | 0x0801 => d.updPolicyConds e
  | 0x0810 => d.pawnLoadConds e
  | 0x0811 => d.pawnSealConds e
  | 0x0812 => d.pawnStartConds e
  | 0x0813 => d.pawnStopConds e
  | 0x0814 => d.pawnChainConds e
  | 0x0815 => d.pawnClearConds e
  | _ => [(true, 0x01)]

/-- The one code of a command refused for reasons of its own arrival or start: where one of them applies, what its PARAMS and the device
refuse is ranked with them (R24). -/
def Dev.refusalCode (d : Dev) (e : Entry) (l : List (Bool × Nat)) : Nat :=
  if oneCode l = 0 then 0 else oneCode (l ++ d.entryConds e)

/-! ### Acceptance (R151 to R156) -/

/-- The code with which an accepted entry of ring n completes at once, not executed; 0 where it is to be executed (R151, R156, R24). -/
def Dev.offerCode (d : Dev) (n : Nat) (e : Entry) : Nat :=
  d.refusalCode e
    [(e.flags / 8 != 0 || e.byte7 != 0, 0x02), (decide (512 ≤ d.inflight.length), 0x06),
     (d.inflight.any (fun c => c.ring == n && c.e.tag == e.tag), 0x0A)]

/-- An entry that arrives on an enabled ring is accepted, or is a duplicate or a gap (R151 to R156). -/
def Dev.offer (d : Dev) (n : Nat) (e : Entry) (sess : Option Nat) : Dev :=
  let dist := d.seqDistance n e.hseq
  if dist = 0 then
    let d1 := (d.put (F.HOST_RING_STATE_LAST_HSEQ n) e.hseq).evt (ev 10 0) 1
    let code := d.offerCode n e
    let room := decide (d.inflight.length < 512)
    let d2 : Dev := if room then
        { d1 with inflight := d1.inflight ++ [{ ring := n, e := e, begun := code != 0, ran := code != 0, issued := code != 0, sess := sess }] }
      else d1
    let d3 := d2.peak F.HOST_IN_FLIGHT_PEAK d2.inflight.length
    if code = 0 then d3 else d3.issue n e.tag e.hseq code [] (bit e.flags 0) room sess
  else if d.ringPcie n then
    let d1 := d.setRing n { d.ring n with stopped := true }
    let more := b2n (d1.get (H.errCode 5) != 0)
    let d2 := ((d1.bump (H.errCount 5) 1).put (H.errMore 5) more).put (H.errCode 5) 0x09
    let d3 := (d2.put (H.errAddr 5) n).put (H.errData 5) (e.hseq * 65536 + (d.lastHseq n + 1) % 65536)
    d3.raise 0x05 (8 + n)
  else
    (d.evt (ev 10 2) 1).issue n e.tag e.hseq (if 61440 ≤ dist then 0x10 else 0x09) (d.seqResult n) (bit e.flags 0) false sess

/-- The code of a command that is late before it begins (R24, R156). -/
def Dev.lateCode (d : Dev) (e : Entry) : Nat := d.refusalCode e [(true, 0x0F)]

end Sys2Proof.Machine
end

