-- ==== Sys2Proof/Machine/Brioz.lean ====
section
/-! DEFINITION. Brioz Link (R443 to R450, R370): datagrams and their keys, sessions, the checks of an arriving datagram, and
what each type does. -/

namespace Sys2Proof.Machine

/-! ### Datagrams (R443 to R445) -/

/-- Bytes 0 to 11 + LENGTH of a datagram, before its MAC. -/
def dgBody (type num seq : Nat) (payload : List Byte) : List Byte :=
  beBytes 2 0x4252 ++ [0x01] ++ beBytes 1 type ++ beBytes 1 num ++ [0] ++ beBytes 2 payload.length ++ beBytes 4 seq ++ payload

/-- A datagram with its MAC under a key. -/
def datagram (key : List Byte) (type num seq : Nat) (payload : List Byte) : List Byte :=
  let b := dgBody type num seq payload
  b ++ (aesCmac key b).take 16

/-- The link key K_L under an owner key (R444). -/
def linkKey (owner : List Byte) : List Byte := aesCmac owner [0x42, 0x4C, 0x4B, 0x31]

/-- The session key K_S (R444). -/
def sessionKey (owner nonceH nonceD : List Byte) (num : Nat) : List Byte :=
  aesCmac (linkKey owner) (nonceH ++ nonceD ++ beBytes 1 num)

/-- The Ethernet frame of a UDP payload of n bytes on port p, in bytes (R437, R443). -/
def Dev.udpLen (d : Dev) (p n : Nat) : Nat := 14 + 4 * d.get (F.BHL_CFG_TAG p) + 40 + 8 + n + 4

/-- A datagram enters the Brioz Link queue of its port (R421). -/
def Dev.brzQueue (d : Dev) (p uid addr udp : Nat) (b : List Byte) : Dev :=
  d.egrAdmit (64 * p + d.get F.QMAP_CTRL_BRZ_QUEUE) (d.udpLen p b.length) (.datagram uid addr udp b)

/-- A datagram of a session is numbered, authenticated and queued (R447). -/
def Dev.brzSend (d : Dev) (uid type : Nat) (payload : List Byte) : Dev :=
  match d.sessions.find? (fun s => s.uid == uid) with
  | none => d
  | some s =>
    let d1 := { d with sessions := d.sessions.map (fun (x : Session) =>
      if x.uid == uid then { x with nextSeq := x.nextSeq + 1 } else x) }
    d1.brzQueue s.port uid s.peerAddr s.peerPort (datagram s.key type s.num s.nextSeq payload)

/-! ### Sessions (R447) -/

def Dev.sessionAt (d : Dev) (p num : Nat) : Option Session := d.sessions.find? (fun s => s.port == p && s.num == num)
def Dev.sessionUpd (d : Dev) (uid : Nat) (f : Session → Session) : Dev :=
  { d with sessions := d.sessions.map (fun (x : Session) => if x.uid == uid then f x else x) }

/-- The highest DGSEQ accepted (R448). -/
def Session.highest (s : Session) : Nat := s.seen.foldl max 0

/-- Completions that wait for a session stay held only, and their commands leave the in-flight list (R449). -/
def Dev.dropWaiting (d : Dev) (uid : Nat) : Dev :=
  (List.range 8).foldl (fun x n =>
    let r := x.ring n
    let gone := r.waiting.filter (fun w => w.sess == some uid)
    let y := x.setRing n { r with waiting := r.waiting.filter (fun w => w.sess != some uid) }
    gone.foldl (fun z w => if w.own then z.retire n w.c.hseq else z) y) d

/-- A session closes; SESSION is set. -/
def Dev.sessionClose (d : Dev) (s : Session) : Dev :=
  let d1 := { (d.dropWaiting s.uid) with sessions := d.sessions.filter (fun x => x.uid != s.uid) }
  { d1 with bh := { d1.bh with events := d1.bh.events.filter (fun x => x.1 != s.uid) } }.raise (0x30 + s.port) 2

/-- The device closes a session, with a CLOSE datagram that gives its REASON (R445, R447). -/
def Dev.closeWith (d : Dev) (s : Session) (reason : Nat) : Dev :=
  (d.brzSend s.uid 0x03 (beBytes 1 reason ++ [0, 0, 0])).sessionClose s

/-! ### Arrival (R448) -/

/-- A Brioz Link drop (R448, R449). -/
def Dev.brzDrop (d : Dev) (p cause : Nat) : Dev :=
  (((d.bump (F.BHL_DROP_BRZ p) 1).put (F.BHL_BRZ_LAST_CAUSE p) cause).evt (ev 9 (4 + p)) 1).raise (0x30 + p) 3

def headEndTypes : List Nat := [0x01, 0x03, 0x04, 0x10, 0x14]

/-- Whether a payload's length and counts fit its TYPE (R445). -/
def dgLengthOk (type : Nat) (b : List Byte) (len : Nat) : Bool :=
  match type with
  | 0x01 => len == 20
  | 0x03 => len == 4
  | 0x04 => len == 0
  | 0x10 => let n := beField b 12 1; decide (1 ≤ n) && decide (n ≤ 16) && len == 4 + 68 * n
  | 0x14 => let n := beField b 16 2; n % 9 == 0 && decide (9 ≤ n) && decide (n ≤ 2016) && len == 8 + n
  | _ => false

/-- Check 1 of R448. -/
def dgFormatOk (b : List Byte) : Bool :=
  let len := beField b 6 2
  beField b 0 2 == 0x4252 && beField b 2 1 == 1 && headEndTypes.contains (beField b 3 1) && b.length == 28 + len
    && dgLengthOk (beField b 3 1) b len

def dgMacOk (key b : List Byte) : Bool := (aesCmac key (b.take (b.length - 16))).take 16 == b.drop (b.length - 16)

/-- A port that receives: its page is enabled and its link up; the frame is counted. -/
def Dev.portHears (d : Dev) (p : Nat) : Bool := d.awake && d.enabled (0x30 + p) && d.is (F.BHL_LINK_UP p)
def Dev.frameIn (d : Dev) (p : Nat) : Dev := (d.bump (F.BHL_FRAMES_RX p) 1).evt (ev 9 p) 1

/-- Whether a received frame's tag fits the port (R437): its VID, or none for an untagged frame; VID 0 is a priority tag. -/
def Dev.vlanOk (d : Dev) (p : Nat) (tag : Option Nat) : Bool :=
  if d.is (F.BHL_CFG_TAG p) then tag == some (d.get (F.BHL_CFG_VID p)) else tag == none || tag == some 0

/-- A frame arrives on a port: it is counted, and dropped where its tag does not match (R437). -/
def Dev.hear (d : Dev) (p : Nat) (tag : Option Nat) (f : Dev → Dev) : Dev :=
  if d.portHears p then
    if (d.frameIn p).vlanOk p tag then f (d.frameIn p) else (d.frameIn p).bump (F.BHL_DROP_BAD p) 1
  else d

/-- The largest UDP payload whose IPv6 packet fits a frame of 1,522 bytes, and the frames that carry one of n bytes: a fragment holds 1,448 bytes
of the UDP packet (RFC 8200, R433, R443). -/
def udpMost : Nat := 1452
def udpFrames (n : Nat) : Nat := if n ≤ udpMost then 1 else (8 + n + 1447) / 1448

/-- Further frames of one message arrive, each as the first (R437). -/
def Dev.hearMore (d : Dev) (p : Nat) (tag : Option Nat) (n : Nat) : Dev := (List.range n).foldl (fun (x : Dev) _ => x.hear p tag id) d

/-- An arriving datagram of a session: the checks of R448 in order, then `act` with the session as refreshed. A datagram of
another head-end type is another row's. -/
def Dev.brzArrive (d : Dev) (p addr udp type : Nat) (b : List Byte) (act : Dev → Session → Dev) : Dev :=
  if dgFormatOk b ∧ beField b 3 1 ≠ type then d
  else if !dgFormatOk b then d.brzDrop p 1
  else match d.sessionAt p (beField b 4 1) with
  | none => d.brzDrop p 2
  | some s =>
    let seq := beField b 8 4
    if s.peerAddr ≠ addr ∨ s.peerPort ≠ udp then d.brzDrop p 2
    else if !dgMacOk s.key b then d.brzDrop p 3
    else if seq ≤ s.highest ∧ (seq + 63 < s.highest ∨ s.seen.contains seq = true) then d.brzDrop p 4
    else
      let hi := max seq s.highest
      let s1 : Session := { s with seen := (seq :: s.seen).filter (fun x => decide (hi ≤ x + 63)), lastRxT := d.tempo, heard := true }
      act (d.sessionUpd s.uid (fun _ => s1)) s1

/-- An OPEN that passes R448 takes the lowest free session of its port, and is answered (R447). -/
def Dev.brzOpen (d : Dev) (p addr udp : Nat) (b : List Byte) : Dev :=
  if dgFormatOk b ∧ beField b 3 1 ≠ 1 then d
  else if !dgFormatOk b then d.brzDrop p 1
  else match d.ks.owner with
    | none => d.brzDrop p 3
    | some owner =>
      if !dgMacOk (linkKey owner) b then d.brzDrop p 3
      else
        let (n, d1) := d.draw
        let nonceD := (List.range 16).map (Config.freeByte n)
        match (List.range 4).find? (fun k => (d1.sessionAt p k).isNone) with
        | none => d1.brzQueue p 0 addr udp (datagram (linkKey owner) 0x02 0xFF 0 (nonceD ++ [0x07, 0, 0, 0]))
        | some num =>
          let uid := d1.bh.nextUid
          let s : Session :=
            { uid := uid, port := p, num := num, peerAddr := addr, peerPort := udp, rxSub := beField b 28 1 % 16,
              evSub := beField b 29 1 % 4, key := sessionKey owner ((b.drop 12).take 16) nonceD num, seen := [0], nextSeq := 1,
              lastRxT := d1.tempo, openT := d1.tempo, lastTxT := d1.tempo, heard := false, paced := 0,
              telemSeq := d1.get F.TMEM_TELEM_SEQ_SEQ }
          let d2 := { d1 with sessions := d1.sessions ++ [s], bh := { d1.bh with nextUid := uid + 1 } }
          (d2.brzQueue p uid addr udp (datagram (linkKey owner) 0x02 num 0 (nonceD ++ [0, 0, 0, 0]))).raise (0x30 + p) 2

/-- The items of a CMD datagram are offered to their rings (R449). -/
def Dev.brzItems (d : Dev) (s : Session) (b : List Byte) : Nat → Nat → Dev
  | 0, _ => d
  | n + 1, i =>
    let at' := 16 + 68 * i
    let ring := beField b at' 1
    let d1 := if 7 < ring ∨ d.ringPcie ring = true ∨ d.ringEn ring = false then d.brzDrop s.port 5
      else d.offer ring (Entry.ofBytes ((b.drop (at' + 4)).take 64)) (some s.uid)
    d1.brzItems s b n (i + 1)

/-- HDATA is accepted, to be written at the next boundary (R450). -/
def Dev.brzHdata (d : Dev) (s : Session) (b : List Byte) : Dev :=
  { d with bh := { d.bh with hdata := d.bh.hdata ++ [(s.uid, beField b 12 4, (b.drop 20).take (beField b 16 2))] } }

/-- What each head-end type does once it has passed R448. -/
def Dev.brzClose (d : Dev) (p addr udp : Nat) (b : List Byte) : Dev := d.brzArrive p addr udp 0x03 b (fun x u => x.sessionClose u)
def Dev.brzKeepalive (d : Dev) (p addr udp : Nat) (b : List Byte) : Dev := d.brzArrive p addr udp 0x04 b (fun x _ => x)
def Dev.brzCmd (d : Dev) (p addr udp : Nat) (b : List Byte) : Dev :=
  d.brzArrive p addr udp 0x10 b (fun x u => x.brzItems u b (beField b 12 1) 0)
def Dev.brzData (d : Dev) (p addr udp : Nat) (b : List Byte) : Dev := d.brzArrive p addr udp 0x14 b (fun x u => x.brzHdata u b)

/-- A datagram that waited for the end of the PROMOTE pause is taken, by its type. -/
def Dev.brzAny (d : Dev) (x : Nat × Nat × Nat × List Byte) : Dev :=
  match beField x.2.2.2 3 1 with
  | 0x03 => d.brzClose x.1 x.2.1 x.2.2.1 x.2.2.2
  | 0x04 => d.brzKeepalive x.1 x.2.1 x.2.2.1 x.2.2.2
  | 0x10 => d.brzCmd x.1 x.2.1 x.2.2.1 x.2.2.2
  | 0x14 => d.brzData x.1 x.2.1 x.2.2.1 x.2.2.2
  | _ => d.brzOpen x.1 x.2.1 x.2.2.1 x.2.2.2

/-- A datagram arrives, in as many frames as it takes (R443); during the PROMOTE pause it waits in its buffer (R494). -/
def Dev.brzHear (d : Dev) (p addr udp : Nat) (tag : Option Nat) (b : List Byte) (take : Dev → Nat → Nat → Nat → List Byte → Dev) : Dev :=
  (d.hearMore p tag (udpFrames b.length - 1)).hear p tag (fun x =>
    if x.is F.UPD_STAT_PAUSE then { x with bh := { x.bh with heldDg := x.bh.heldDg ++ [(p, addr, udp, b)] } } else take x p addr udp b)

/-- The oldest accepted HDATA is written, or refused, and acknowledged (R450). -/
def Dev.hdataWrite (d : Dev) (errs : List LineError) : Dev :=
  match d.bh.hdata with
  | [] => d
  | (uid, w, b) :: rest =>
    let d0 := { d with bh := { d.bh with hdata := rest } }
    let n := b.length / 9 * 2
    let shape := w % 2 == 1 || !inHostRegion w n
    let lines := (List.range ((w + n - 1) / 4 + 1 - w / 4)).map (fun i => w / 4 + i)
    let (d1, ok) := if shape then (d0, true)
      else lines.foldl (fun (x : Dev × Bool) l => let y := x.1.readLine l errs 0; (y.1, x.2 && y.2)) (d0, true)
    let d2 := if !shape && ok then d1.setPacked w 0 b else d1
    d2.brzSend uid 0x15 (beBytes 4 w ++ beBytes 1 (if shape then 0x01 else if ok then 0 else 0x03) ++ [0, 0, 0])

/-! ### Datagrams of the device (R449, R370) -/

/-- Completions that wait for a session, with their rings, in ring order and then issue order. -/
def Dev.complWaiting (d : Dev) (uid : Nat) : List (Nat × Waiting) :=
  (List.range 8).flatMap (fun n => ((d.ring n).waiting.filter (fun w => w.sess == some uid)).map (fun w => (n, w)))

/-- One CMPL datagram of at most 32 completions; their commands leave the in-flight list (R156). -/
def Dev.sendCompl (d : Dev) (uid : Nat) : Dev :=
  let items := (d.complWaiting uid).take 32
  if items.isEmpty then d
  else
    let d1 := d.brzSend uid 0x11 (beBytes 1 items.length ++ [0, 0, 0]
      ++ items.flatMap (fun (x : Nat × Waiting) => beBytes 1 x.1 ++ [0, 0, 0] ++ complBytes x.2.c))
    items.foldl (fun x i =>
      let r := x.ring i.1
      let y := x.setRing i.1 { r with waiting := r.waiting.erase i.2 }
      if i.2.own then y.retire i.1 i.2.c.hseq else y) d1

/-- One EVENT datagram of at most 32 event records. -/
def Dev.sendEvents (d : Dev) (uid : Nat) : Dev :=
  let mine := (d.bh.events.filter (fun x => x.1 == uid)).take 32
  if mine.isEmpty then d
  else
    let rest := mine.foldl (fun (l : List (Nat × List Byte)) x => l.erase x) d.bh.events
    { d with bh := { d.bh with events := rest } }.brzSend uid 0x12
      (beBytes 1 mine.length ++ [0, 0, 0] ++ mine.flatMap (fun (x : Nat × List Byte) => x.2))

/-- An RXREC datagram's payload. -/
def rxrecPayload (ring : Nat) (record frame : List Byte) : List Byte := beBytes 1 ring ++ [0, 0, 0] ++ record ++ frame

/-- The oldest record of receive ring n goes to every open session that subscribes to it (R449). -/
def Dev.sendRecord (d : Dev) (n : Nat) : Dev :=
  let subs := d.sessions.filter (fun s => bit s.rxSub n)
  let r := d.rxRing n
  match r.backlog with
  | [] => d
  | x :: rest =>
    if subs.isEmpty || d.rxPcie n || !d.is (F.RXP_RXR_CFG_EN n) then d
    else
      let d1 := ((d.setRxRing n { r with backlog := rest }).freeCells false x.cells).rxWritten n
      subs.foldl (fun y s => y.brzSend s.uid 0x13 (rxrecPayload n x.record x.frame)) d1

/-- One TELEM datagram of at most 64 records from the session's position (R370). Records whose line was rewritten with zeros after a UE are
skipped (R360). -/
def Dev.sendTelem (d : Dev) (s : Session) : Dev :=
  let newest := d.get F.TMEM_TELEM_SEQ_SEQ
  let behind := (newest + 2 ^ 32 - s.telemSeq) % 2 ^ 32
  let from' := if 2 ^ 20 < behind then (newest + 2 ^ 32 - 2 ^ 20) % 2 ^ 32 else s.telemSeq
  let most := min 64 (min behind (2 ^ 20))
  if most = 0 ∨ bit s.evSub 1 = false then d
  else
    let back := min behind (2 ^ 20)
    let line := fun i => telemAddr ((d.get F.TMEM_TELEM_WR_LINE + 2 ^ 20 - back + i) % 2 ^ 20)
    let lost := fun i => (List.range 4).all (fun k => d.mem (line i + k) == 0)
    let skip := ((List.range most).takeWhile lost).length
    let n := ((List.range (most - skip)).takeWhile (fun i => !lost (skip + i))).length
    let d1 := d.sessionUpd s.uid (fun x => { x with telemSeq := (from' + skip + n) % 2 ^ 32 })
    if n = 0 then d1
    else d1.brzSend s.uid 0x16 (beBytes 1 n ++ [0, 0, 0] ++ beBytes 4 ((from' + skip) % 2 ^ 32)
      ++ (List.range n).flatMap (fun i => d.packed (line (skip + i)) 18))

/-- Everything that waits for a session's completions is sent: used before the device closes it (R444). -/
def Dev.flushCompl (d : Dev) (uid : Nat) : Nat → Dev
  | 0 => d
  | n + 1 => if (d.complWaiting uid).isEmpty then d else (d.sendCompl uid).flushCompl uid n

/-! ### Meanings -/

/-- OPEN: an OPEN datagram arrives on a port from an address and UDP port (R447). -/
def execOpenSession (port : Fin 2) (addr udp : Nat) (tag : Option Nat) (bytes : List Byte) (s : State) :
    Host.Outcome State Fault Refusal :=
  runs s (fun d => d.brzHear port addr udp tag bytes Dev.brzOpen)

/-- CLOSE: a CLOSE datagram closes its session (R447). -/
def execCloseSession (port : Fin 2) (addr udp : Nat) (tag : Option Nat) (bytes : List Byte) (s : State) :
    Host.Outcome State Fault Refusal :=
  runs s (fun d => d.brzHear port addr udp tag bytes Dev.brzClose)

/-- KEEPALIVE: a received KEEPALIVE refreshes its session (R447). -/
def execKeepalive (port : Fin 2) (addr udp : Nat) (tag : Option Nat) (bytes : List Byte) (s : State) :
    Host.Outcome State Fault Refusal :=
  runs s (fun d => d.brzHear port addr udp tag bytes Dev.brzKeepalive)

/-- BRZ_CMD: a CMD datagram's entries are offered to their rings (R449). -/
def execBrzCmd (port : Fin 2) (addr udp : Nat) (tag : Option Nat) (bytes : List Byte) (s : State) :
    Host.Outcome State Fault Refusal :=
  runs s (fun d => d.brzHear port addr udp tag bytes Dev.brzCmd)

/-- HDATA: an HDATA datagram is accepted for writing into the host-defined region (R450). -/
def execHdata (port : Fin 2) (addr udp : Nat) (tag : Option Nat) (bytes : List Byte) (s : State) :
    Host.Outcome State Fault Refusal :=
  runs s (fun d => d.brzHear port addr udp tag bytes Dev.brzData)

/-- HDATA_WRITE: the oldest accepted HDATA is written at a boundary and HDATA_ACK is sent (R450). -/
def execHdataWrite (errs : List LineError) (s : State) : Host.Outcome State Fault Refusal :=
  runs s (fun d => if d.awake && !d.paused then d.hdataWrite errs else d)

/-- SESSION_IDLE_TIMEOUT: no authenticated datagram for TIMEOUT_S, or none within 2 s of OPEN_ACK (R447). -/
def execSessionIdleTimeout (port : Fin 2) (num : Fin 4) (s : State) : Host.Outcome State Fault Refusal :=
  runs s (fun d => match d.sessionAt port num with
    | none => d
    | some u =>
      if u.lastRxT + d.get (F.BHL_BRZ_CFG_TIMEOUT_S port) * 4000 ≤ d.tempo ∨ (u.heard = false ∧ u.openT + 8000 ≤ d.tempo) then
        d.closeWith u 1
      else d)

/-- KEEPALIVE_SEND: after TIMEOUT_S / 3 seconds in which nothing was sent on the session (R447). -/
def execKeepaliveSend (port : Fin 2) (num : Fin 4) (s : State) : Host.Outcome State Fault Refusal :=
  runs s (fun d => match d.sessionAt port num with
    | none => d
    | some u => if d.paused = false ∧ d.get (F.BHL_BRZ_CFG_TIMEOUT_S port) * 4000 ≤ 3 * (d.tempo - u.lastTxT) then d.brzSend u.uid 0x04 [] else d)

/-- DATAGRAM_SEND: what has been gathered leaves in one datagram (R449): kind 0 the completions, and kind 1 the event records,
of a port's session; kind 2 the oldest record of receive ring `num`, to every session that subscribes to it. -/
def execDatagramSend (port : Fin 2) (num : Fin 4) (kind : Fin 3) (s : State) : Host.Outcome State Fault Refusal :=
  runs s (fun d =>
    if !d.awake || d.paused then d
    else if kind.val = 2 then d.sendRecord num
    else match d.sessionAt port num with
    | none => d
    | some u => if kind.val = 0 then d.sendCompl u.uid else d.sendEvents u.uid)

/-- TELEM_DATAGRAM: a subscribed session receives the next ring records (R370). -/
def execTelemDatagram (port : Fin 2) (num : Reads (Fin 4)) (s : State) : Host.Outcome State Fault Refusal :=
  runs s (fun d => match d.sessionAt port num.of with
    | none => d
    | some u => if d.awake && !d.paused then (d.strikes num.errs).sendTelem u else d)

end Sys2Proof.Machine
end

