-- ==== Sys2Proof/Machine/Lowpan.lean ====
section
/-! DEFINITION. 6LoWPAN (R438 to R442): reassembly, uplink targets, and packets that turn toward the mesh. -/

namespace Sys2Proof.Machine

/-! ### Errors and prefixes -/

/-- A drop of the 6LoWPAN engine: 1 CONTEXT, 2 DISPATCH, 3 REASM_TIMEOUT, 4 REASM_FULL, 5 TOO_BIG, 6 NO_NODE,
7 FRAG_MISMATCH, 8 HOP_LIMIT (R442, R459). -/
def Dev.lowpanErr (d : Dev) (cause : Nat) : Dev :=
  ((d.bump F.LOWPAN_ERR_COUNT 1).put F.LOWPAN_ERR_LAST_CAUSE cause).raise 0x33 0

/-- The mesh prefix of a PAN; 0 disables routing to it (R439). -/
def Dev.meshPrefix (d : Dev) (p : Nat) : Nat := d.getPair (F.LOWPAN_PFX_LO_PREFIX.at p) (F.LOWPAN_PFX_HI_PREFIX.at p)

/-- The enabled PAN, of a group that holds a port in service, whose prefix a destination carries (R439, step 1). -/
def Dev.prefixPan (d : Dev) (dst : Nat) : Option Nat :=
  (List.range 128).find? (fun p => d.panEn p && d.meshPrefix p != 0 && d.meshPrefix p == dst / 2 ^ 64
    && (List.range 8).any (fun s => d.inService (8 * d.panGroup p + s)))

/-- The packet whose bytes these are. -/
def ipOfBytes (b : List Byte) : IpPacket :=
  { src := beField b 8 16, dst := beField b 24 16, dscp := beField b 0 2 / 64 % 64, hopLimit := beField b 7 1, bytes := b }

/-- The packet with its Hop Limit decremented (R438). -/
def forwarded (x : IpPacket) : IpPacket :=
  { x with hopLimit := x.hopLimit - 1, bytes := setAt x.bytes 7 (BitVec.ofNat 8 (x.hopLimit - 1)) }

/-! ### Received 6LoWPAN (R440) -/

/-- The interface identifier of a link-layer address. -/
def iidOf (a : Addr) : Nat :=
  match a with
  | .short x => 0x000000FFFE000000 + x
  | .ext x => x ^^^ 2 ^ 57
  | .none => 0

/-- A unicast address of IPHC with a 64-bit prefix, a mode, and the address of the link below, from octets at offset i: the address
and the octets it takes. -/
def iphcAddr (pfx mode : Nat) (link : Addr) (b : List Byte) (i : Nat) : Nat × Nat :=
  match mode with
  | 1 => (pfx * 2 ^ 64 + beField b i 8, 8)
  | 2 => (pfx * 2 ^ 64 + 0x000000FFFE000000 + beField b i 2, 2)
  | _ => (pfx * 2 ^ 64 + iidOf link, 0)

/-- A multicast address of IPHC, by its mode, from octets at offset i. -/
def iphcMulti (mode : Nat) (b : List Byte) (i : Nat) : Nat × Nat :=
  match mode with
  | 0 => (beField b i 16, 16)
  | 1 => ((0xFF00 + beField b i 1) * 2 ^ 112 + beField b (i + 1) 5, 6)
  | 2 => ((0xFF00 + beField b i 1) * 2 ^ 112 + beField b (i + 1) 3, 4)
  | _ => (0xFF02 * 2 ^ 112 + beField b i 1, 1)

/-- One's-complement sum of 16-bit words. -/
def sum16 (b : List Byte) : Nat :=
  (List.range ((b.length + 1) / 2)).foldl (fun a k => let x := a + beField b (2 * k) 2; x % 65536 + x / 65536) 0

/-- A whole IPv6 packet with the UDP checksum that its header omits. -/
def withUdpSum (b : List Byte) : List Byte :=
  let u := b.drop 40
  let s := 0xFFFF - sum16 ((b.drop 8).take 32 ++ beBytes 4 u.length ++ beBytes 4 17 ++ u)
  b.take 46 ++ beBytes 2 (if s = 0 then 0xFFFF else s) ++ b.drop 48

/-- A UDP header compressed by NHC, at the start of some octets: the header with a length of n octets, the octets it took, and whether
its checksum is elided. -/
def udpHeader (b : List Byte) (n : Nat) : List Byte × Nat × Bool :=
  let c := beField b 0 1
  let elided := c / 4 % 2 == 1
  let ports : List Byte × Nat := match c % 4 with
    | 0 => ((b.drop 1).take 4, 4)
    | 1 => ((b.drop 1).take 2 ++ [0xF0] ++ (b.drop 3).take 1, 3)
    | 2 => ([0xF0] ++ (b.drop 1).take 1 ++ (b.drop 2).take 2, 3)
    | _ => (beBytes 2 (0xF0B0 + beField b 1 1 / 16) ++ beBytes 2 (0xF0B0 + beField b 1 1 % 16), 1)
  let k := 1 + ports.2
  (ports.1 ++ beBytes 2 n ++ (if elided then [0, 0] else (b.drop k).take 2), if elided then k else k + 2, elided)

/-- What an IPHC header opens to. -/
inductive Iphc where
  | bad (cause : Nat)
  | ok (bytes : List Byte) (elided : Bool)
  deriving DecidableEq, Repr

/-- The addresses of an IPHC header, from octets at offset i: source, destination and the octets they take; or a cause. `pfx` is the mesh
prefix, context 0; the link's addresses are those below. -/
def iphcAddrs (pfx : Nat) (src dst : Addr) (b : List Byte) (i : Nat) : Nat ⊕ (Nat × Nat × Nat) :=
  let f := beField b 1 1
  let cid := f / 128 % 2 == 1
  let ctx := beField b 2 1
  let sac := f / 64 % 2 == 1
  let sam := f / 16 % 4
  let multi := f / 8 % 2 == 1
  let dac := f / 4 % 2 == 1
  let dam := f % 4
  if (cid && sac && sam != 0 && ctx / 16 != 0) || (cid && dac && ctx % 16 != 0) then .inl 1
  else if dac && ((!multi && dam == 0) || (multi && dam != 0)) then .inl 2
  else
    let s := if sam = 0 then (if sac then (0, 0) else (beField b i 16, 16))
      else iphcAddr (if sac then pfx else 0xFE80000000000000) sam src b i
    let j := i + s.2
    let t := if multi && dac then
        (0xFF00 * 2 ^ 112 + beField b j 2 * 2 ^ 104 + 0x40 * 2 ^ 96 + pfx * 2 ^ 32 + beField b (j + 2) 4, 6)
      else if multi then iphcMulti dam b j
      else if dam = 0 then (beField b j 16, 16)
      else iphcAddr (if dac then pfx else 0xFE80000000000000) dam dst b j
    .inr (s.1, t.1, j + t.2)

/-- A packet, or the first fragment of one of `size` bytes (0: the frame holds it whole), whose header is compressed by IPHC
(RFC 6282). -/
def iphc (pfx : Nat) (src dst : Addr) (b : List Byte) (size : Nat) : Iphc :=
  let c := beField b 0 1
  let i := if beField b 1 1 / 128 % 2 = 1 then 3 else 2
  let tf := c / 8 % 4
  let x := beField b i 1
  let tc := if tf = 3 then 0 else if tf = 1 then x / 64 else x % 64 * 4 + x / 64
  let fl := if tf = 0 then beField b (i + 1) 3 % 2 ^ 20 else if tf = 1 then beField b i 3 % 2 ^ 20 else 0
  let i1 := i + (match tf with
    | 0 => 4 | 1 => 3 | 2 => 1 | _ => 0)
  let nhc := c / 4 % 2 == 1
  let i2 := if nhc then i1 else i1 + 1
  let hl := match c % 4 with
    | 0 => beField b i2 1 | 1 => 1 | 2 => 64 | _ => 255
  let i3 := if c % 4 = 0 then i2 + 1 else i2
  match iphcAddrs pfx src dst b i3 with
  | .inl cause => .bad cause
  | .inr (s, t, i4) =>
    let rest := b.drop i4
    let head := fun (nh n : Nat) => beBytes 4 (6 * 2 ^ 28 + tc * 2 ^ 20 + fl) ++ beBytes 2 n ++ beBytes 1 nh ++ beBytes 1 hl
      ++ beBytes 16 s ++ beBytes 16 t
    if b.length < i4 then .bad 2
    else if !nhc then .ok (head (beField b i1 1) (if size = 0 then rest.length else size - 40) ++ rest) false
    else if beField rest 0 1 / 8 ≠ 0x1E then .bad 2
    else
      let u0 := udpHeader rest 0
      let n := if size = 0 then rest.length - u0.2.1 + 8 else size - 40
      let u := udpHeader rest n
      .ok (head 17 n ++ u.1 ++ rest.drop u.2.1) u.2.2

/-- An IPv6 packet, or the first fragment of one, by its dispatch. -/
def lowHead (pfx : Nat) (src dst : Addr) (b : List Byte) (size : Nat) : Iphc :=
  let c := beField b 0 1
  if b.isEmpty then .bad 2
  else if c = 0x41 then .ok (b.drop 1) false
  else if c / 32 = 3 then iphc pfx src dst b size
  else .bad 2

/-- The 6LoWPAN payload of a MAC frame (R440): Mesh Addressing and Broadcast headers are removed, then its dispatch tells fragments and
packets. -/
def Dev.low (d : Dev) (p : Nat) (m : MacFrame) : LowPayload :=
  let mesh := m.meshHeader
  let src := (mesh.map (fun x => x.1)).getD m.src
  let dst := (mesh.map (fun x => x.2.1)).getD m.dst
  let b0 := match mesh with
    | some x => m.payload.drop x.2.2
    | none => m.payload
  let b := if b0.head? = some 0x50 then b0.drop 2 else b0
  let c := beField b 0 1
  let size := beField b 0 2 % 2048
  if b.isEmpty ∨ c / 64 = 0 then .none
  else if c / 8 = 0x18 then
    match lowHead (d.meshPrefix p) src dst (b.drop 4) size with
    | .bad k => .bad k
    | .ok x e => .frag (beField b 2 2) size 0 x e
  else if c / 8 = 0x1C then .frag (beField b 2 2) size (8 * beField b 4 1) (b.drop 5) false
  else match lowHead (d.meshPrefix p) src dst b 0 with
  | .bad k => .bad k
  | .ok x e => .packet (ipOfBytes (if e then withUdpSum x else x))

/-! ### Sent 6LoWPAN (R440) -/

/-- An address of IPHC in its shortest form (log entry 139): whether context 0 gives its prefix, its mode, and the octets it takes. `link` is
the short address below. -/
def iphcUnicast (pfx link a : Nat) : Bool × Nat × List Byte :=
  let iid := a % 2 ^ 64
  let ll := a / 2 ^ 64 == 0xFE80000000000000
  if !ll && a / 2 ^ 64 != pfx then (false, 0, beBytes 16 a)
  else if iid = iidOf (.short link) then (!ll, 3, [])
  else if iid / 65536 = 0x000000FFFE00 then (!ll, 2, beBytes 2 (iid % 65536))
  else (!ll, 1, beBytes 8 iid)

/-- The mode of a multicast address in its shortest form, and the octets it takes. -/
def iphcGroup (a : Nat) : Nat × List Byte :=
  let flags := a / 2 ^ 112 % 256
  let low := a % 2 ^ 112
  if a / 2 ^ 112 = 0xFF02 ∧ low < 2 ^ 8 then (3, beBytes 1 low)
  else if low < 2 ^ 24 then (2, beBytes 1 flags ++ beBytes 3 low)
  else if low < 2 ^ 40 then (1, beBytes 1 flags ++ beBytes 5 low)
  else (0, beBytes 16 a)

/-- A UDP header as NHC sends it, with its checksum. -/
def udpNhc (b : List Byte) : List Byte :=
  let s := beField b 0 2
  let t := beField b 2 2
  let ports : Nat × List Byte :=
    if s / 16 = 0xF0B ∧ t / 16 = 0xF0B then (3, beBytes 1 (s % 16 * 16 + t % 16))
    else if t / 256 = 0xF0 then (1, beBytes 2 s ++ beBytes 1 (t % 256))
    else if s / 256 = 0xF0 then (2, beBytes 1 (s % 256) ++ beBytes 2 t)
    else (0, beBytes 2 s ++ beBytes 2 t)
  beBytes 1 (0xF0 + ports.1) ++ ports.2 ++ (b.drop 6).take 2

/-- Traffic class and flow label: their form, and its octets. -/
def iphcTraffic (tc fl : Nat) : Nat × List Byte :=
  if tc = 0 ∧ fl = 0 then (3, [])
  else if fl = 0 then (2, beBytes 1 (tc % 4 * 64 + tc / 4))
  else if tc / 4 = 0 then (1, beBytes 3 (tc * 2 ^ 22 + fl))
  else (0, beBytes 4 ((tc % 4 * 64 + tc / 4) * 2 ^ 24 + fl))

/-- An IPv6 packet from the device (short address 0) to short address `link`, compressed by IPHC, and by NHC where it is UDP (R440):
each field takes its shortest form (DESIGN CHOICE, log entry 139). -/
def compress (pfx link : Nat) (b : List Byte) : List Byte :=
  let tf := iphcTraffic (beField b 0 2 / 16 % 256) (beField b 1 3 % 2 ^ 20)
  let udp := beField b 6 1 == 17 && decide (48 ≤ b.length) && beField b 44 2 == b.length - 40
  let hl := match beField b 7 1 with
    | 1 => 1 | 64 => 2 | 255 => 3 | _ => 0
  let src := if beField b 8 16 = 0 then (true, 0, []) else iphcUnicast pfx 0 (beField b 8 16)
  let dst := beField b 24 16
  let multi := dst / 2 ^ 120 == 0xFF
  let to' := if multi then (false, iphcGroup dst) else iphcUnicast pfx link dst
  beBytes 1 (0x60 + tf.1 * 8 + b2n udp * 4 + hl)
    ++ beBytes 1 (b2n src.1 * 64 + src.2.1 * 16 + b2n multi * 8 + b2n to'.1 * 4 + to'.2.1)
    ++ tf.2 ++ (if udp then [] else (b.drop 6).take 1) ++ (if hl = 0 then (b.drop 7).take 1 else [])
    ++ src.2.2 ++ to'.2.2 ++ (if udp then udpNhc (b.drop 40) ++ b.drop 48 else b.drop 40)

/-! ### The backhaul port (R436, R437) -/

/-- The VID of the tag with which frames are sent, and the whole tag with a PCP (R437). -/
def Dev.vlanId (d : Dev) (n : Nat) : Option Nat := if d.is (F.BHL_CFG_TAG n) then some (d.get (F.BHL_CFG_VID n)) else none
def Dev.vlanTag (d : Dev) (n pcp : Nat) : Option (Nat × Nat) := (d.vlanId n).map (fun v => (v, pcp))

/-- A frame leaves a port. -/
def Dev.frameOut (d : Dev) (n : Nat) (o : Out) : Dev := ((d.bump (F.BHL_FRAMES_TX n) 1).evt (ev 9 (2 + n)) 1).emit o

/-- The device's own addresses on a port (R436): link-local, with BR_ID's universal/local bit inverted, and the global one
unless it is zero. -/
def Dev.globalAddr (d : Dev) (n : Nat) : Nat :=
  (List.range 4).foldl (fun a k => a * 2 ^ 32 + d.get (F.BHL_ADDR_BITS n k)) 0
def linkLocal : Nat := 0xFE80 * 2 ^ 112 + (Config.brId.toNat ^^^ 2 ^ 57)
def Dev.ownAddr (d : Dev) (n a : Nat) : Bool := a == linkLocal || (a != 0 && a == d.globalAddr n)

/-! ### Toward the mesh (R439 to R441) -/

/-- Octets of the MAC frame that carries n bytes of 6LoWPAN to a node. -/
def Dev.packetPsdu (d : Dev) (h n : Nat) : Nat :=
  let p := h / 65536
  d.txPsdu { Tx.blank with
    kind := .packet, pan := some p, dest := some h, phy := d.panPhy p, opts := dlOpts (d.panPhy p) (d.panDlOpts p),
    frame := some (d.dataFrame p (h % 65536) 0 false (List.replicate n 0)) }

/-- The handle of a destination (R439, steps 2 and 3). -/
def Dev.packetNode (d : Dev) (p dst : Nat) : Dev × Option Nat :=
  let iid := dst % 2 ^ 64
  if iid / 65536 = 0x000000FFFE00 then
    (d, if (d.validEntry (p * 65536 + iid % 65536)).isSome then some (p * 65536 + iid % 65536) else none)
  else
    let (e, probes) := d.lookupExt p (iid ^^^ 2 ^ 57)
    (d.notePeak probes, e.bind d.handleOf)

/-- The fragment headers and parts of a compressed packet that opens to `size` bytes, in frames of `room` bytes of payload (RFC 4944;
R441). Offsets and multiples of 8 count bytes of the packet as it opens (log entry 124). -/
def fragments (size tag room : Nat) (b : List Byte) : List (List Byte) :=
  let head := (room + size - 4 - b.length) / 8 * 8
  let chunk := (room - 5) / 8 * 8
  let rest := b.drop (head + b.length - size)
  if head = 0 ∨ chunk = 0 then []
  else (beBytes 2 (0xC000 + size) ++ beBytes 2 tag ++ b.take (head + b.length - size))
    :: (List.range ((rest.length + chunk - 1) / chunk)).map (fun i =>
      beBytes 2 (0xE000 + size) ++ beBytes 2 tag ++ beBytes 1 ((head + i * chunk) / 8) ++ (rest.drop (i * chunk)).take chunk)

/-- The frames of one packet enter step 2 together (R409). -/
def Dev.packetFrames (d : Dev) (h : Nat) (flow : Nat) (ack : Bool) (pkt : Nat) : List (List Byte) → Dev
  | [] => d
  | b :: bs =>
    let p := h / 65536
    let (s, d1) := d.nextMacSeq p
    let f := d1.dataFrame p (h % 65536) s ack b
    (d1.txAdd { Tx.blank with
      kind := .packet, stage := .step2, pan := some p, dest := some h, flow := flow, phy := d1.panPhy p, frame := some f,
      pkt := pkt }).packetFrames h flow ack pkt bs

/-- A packet is compressed and fragmented, and its frames enter step 2 (R402, R441). Whether its frames ask for an
acknowledgment is not stated: a free bit. -/
def Dev.packetDown (d : Dev) (h : Nat) (x : IpPacket) : Dev :=
  let p := h / 65536
  let c := compress (d.meshPrefix p) (h % 65536) x.bytes
  let room := phyMaxPsdu (d.panPhy p) - d.packetPsdu h 0
  let tag := d.ra.dgTag.getD p 0
  let whole := decide (c.length ≤ room)
  let parts := if whole then [c] else fragments x.bytes.length tag room c
  let (n, d1) := d.draw
  let d2 := if whole then d1 else { d1 with ra := { d1.ra with dgTag := setAt d1.ra.dgTag p ((tag + 1) % 65536) } }
  let d3 := { d2 with bh := { d2.bh with nextPkt := d2.bh.nextPkt + 1 } }.bump F.LOWPAN_COUNT_DOWN 1
  d3.packetFrames h (d3.get (F.QMAP_DSCP_FLOW_FLOW (x.dscp % 64))) (Config.freeBool n) d2.bh.nextPkt parts

/-- A packet too long for the mesh is dropped; one from a backhaul port is answered, at most ten times a second (R441). -/
def Dev.packetTooBig (d : Dev) (port : Option Nat) : Dev :=
  let d1 := d.lowpanErr 5
  match port with
  | none => d1
  | some n =>
    let recent := d1.bh.tooBig.filter (fun x => decide (d1.tempo < x.2 + 4000))
    let d2 := { d1 with bh := { d1.bh with tooBig := recent } }
    if (recent.filter (fun x => x.1 == n)).length < 10 then
      { d2 with bh := { d2.bh with tooBig := (n, d2.tempo) :: recent } }.frameOut n (.packetTooBig n (d2.vlanId n) (d2.globalAddr n) 1280)
    else d2

/-- A packet for the mesh: resolved, and sent to step 2, or dropped (R439, R441, R442). -/
def Dev.toMesh (d : Dev) (port : Option Nat) (x : IpPacket) : Dev :=
  if x.hopLimit ≤ 1 then d.lowpanErr 8
  else match d.prefixPan x.dst with
  | none => d.lowpanErr 6
  | some p =>
    let (d1, h) := d.packetNode p x.dst
    match h with
    | none => d1.lowpanErr 6
    | some k => if 1280 < x.bytes.length then d1.packetTooBig port else d1.packetDown k (forwarded x)

/-! ### Targets of step 8 (R421, R438) -/

/-- Kind MAC for a host receive ring; a frame that no ring takes is counted (R421). -/
def Dev.toHost (d : Dev) (f : RxFrame) : Dev := d.rxDeliver f 0

def Dev.discard (d : Dev) : Dev := d.bump F.QSCH_DROP_B_DISCARD 1

/-- A routed packet enters an egress queue (R421, R422, R438). -/
def Dev.toEgress (d : Dev) (n queue : Nat) (x : IpPacket) : Dev :=
  if x.hopLimit ≤ 1 then d.lowpanErr 8
  else d.egrAdmit (64 * n + queue) (max 64 (14 + 4 * d.get (F.BHL_CFG_TAG n) + x.bytes.length + 4)) (.ip (forwarded x))

/-- Whether an address lies in a mesh prefix of this device, be its PAN in use or not (R442). -/
def Dev.inMesh (d : Dev) (dst : Nat) : Bool :=
  (List.range 128).any (fun p => d.meshPrefix p != 0 && d.meshPrefix p == dst / 2 ^ 64)

/-- A packet from the mesh goes to its target, or turns back toward the mesh (R421, R442). -/
def Dev.packetUp (d : Dev) (f : RxFrame) (x : IpPacket) : Dev :=
  let d1 := d.bump F.LOWPAN_COUNT_UP 1
  if d1.inMesh x.dst then d1.toMesh none x
  else
    let c := x.dscp % 64
    match d1.get (F.QMAP_UP_MAP_TARGET c) with
    | 0 => d1.toEgress 0 (d1.get (F.QMAP_UP_MAP_QUEUE c)) x
    | 1 => d1.toEgress 1 (d1.get (F.QMAP_UP_MAP_QUEUE c)) x
    | 2 => d1.toHost f
    | _ => d1.discard

/-- A frame without an IPv6 packet: to a backhaul target it goes as an RXREC datagram with RING 0xFF (R438). -/
def Dev.nonIp (d : Dev) (f : RxFrame) : Dev :=
  match d.get F.QMAP_NON_IP_TARGET with
  | 2 => d.toHost f
  | 3 => d.discard
  | n => (d.sessions.filter (fun s => s.port == n && bit s.evSub 0)).foldl (fun x s =>
      x.brzSend s.uid 0x13 (rxrecPayload 0xFF (deliveryRecord f 0 f.bytes.length 0 false) f.bytes)) d

/-! ### Reassembly (R442) -/

def Dev.setReasm (d : Dev) (l : List Reasm) : Dev :=
  ({ d with bh := { d.bh with reasm := l } }.put F.LOWPAN_REASM_ACTIVE l.length).peak F.LOWPAN_REASM_PEAK l.length

/-- A datagram leaves reassembly, and its cells return. -/
def Dev.dropReasm (d : Dev) (r : Reasm) : Dev := (d.setReasm (d.bh.reasm.erase r)).freeCells false r.cells

/-- The byte at position i of what has been received. -/
def Reasm.at (r : Reasm) (i : Nat) : Option Byte :=
  r.parts.findSome? (fun x => if x.1 ≤ i ∧ i < x.1 + x.2.length then x.2[i - x.1]? else none)

/-- Whether a fragment agrees with what has been received. -/
def Reasm.agrees (r : Reasm) (off : Nat) (b : List Byte) : Bool :=
  decide (off + b.length ≤ r.size) && (List.range b.length).all (fun k => match r.at (off + k), b[k]? with
    | some x, some y => x == y
    | _, _ => true)

/-- A fragment of a datagram of PAN p from a source (R442). -/
def Dev.fragment (d : Dev) (p : Nat) (src : Addr) (tag size off : Nat) (b : List Byte) (elided : Bool) : Dev × Option IpPacket :=
  let add := fun (x : Dev) (r : Reasm) =>
    let r1 := { r with parts := r.parts ++ [(off, b)], elided := r.elided || elided }
    if !r.agrees off b then ((x.dropReasm r).lowpanErr 7, (none : Option IpPacket))
    else
      let all := (List.range size).map r1.at
      let whole := all.map (fun o => o.getD 0)
      if all.all Option.isSome then (x.dropReasm r, some (ipOfBytes (if r1.elided then withUdpSum whole else whole)))
      else (x.setReasm (x.bh.reasm.map (fun (y : Reasm) => if y == r then r1 else y)), none)
  match d.bh.reasm.find? (fun r => r.pan == p && r.src == src && r.tag == tag) with
  | some r => if r.size = size then add d r else ((d.dropReasm r).lowpanErr 7, none)
  | none =>
    let cells := cellsFor size
    if d.get F.LOWPAN_CFG_REASM_MAX ≤ d.bh.reasm.length then (d.lowpanErr 4, none)
    else if !d.cellsFit false cells then (((d.bump F.QSCH_DROP_A_BUF_FULL 1).qEvent 5 0 4).lowpanErr 4, none)
    else
      let r : Reasm := { pan := p, src := src, tag := tag, size := size, parts := [], elided := false, startT := d.tempo, cells := cells }
      add ((d.setReasm (d.bh.reasm ++ [r])).takeCells false cells) r

/-- Step 8 of R27 for a data frame of handle h of PAN p. -/
def Dev.step8 (d : Dev) (f : RxFrame) (p h : Nat) : Dev :=
  let m := f.frame
  if m.payload.head? = some 0x2A then d.pawnFrame h m.payload
  else if !d.enabled 0x28 then d.discard
  else match d.low p m with
  | .none => d.nonIp f
  | .bad c => d.lowpanErr c
  | .packet x => d.packetUp f x
  | .frag tag size off b e =>
    let (d1, x) := d.fragment p (m.mesh.getD m.src) tag size off b e
    match x with
    | some y => d1.packetUp f y
    | none => d1

/-- A soft reset of the LOWPAN page (R459). -/
def Dev.lowpanReset (d : Dev) : Dev :=
  let d1 := d.bh.reasm.foldl (fun x r => x.dropReasm r) d
  ((d1.wr R.LOWPAN_REASM 0).wr R.LOWPAN_ERR 0).wr R.LOWPAN_COUNT 0

/-! ### Meanings -/

/-- REASM_TIMEOUT: the first reassembly that is incomplete REASM_S seconds after its first fragment is discarded (R442). -/
def execReasmTimeout (s : State) : Host.Outcome State Fault Refusal :=
  runs s (fun d => match d.bh.reasm.find? (fun r => decide (r.startT + d.get F.LOWPAN_CFG_REASM_S * 4000 ≤ d.tempo)) with
    | some r => (d.dropReasm r).lowpanErr 3
    | none => d)

/-- Whether an IPv6 packet of n bytes fits a frame of at most 1,522 bytes on port p (R433). -/
def Dev.fitsFrame (d : Dev) (p n : Nat) : Bool := decide (18 + 4 * d.get (F.BHL_CFG_TAG p) + n ≤ 1522)

/-- DOWNLINK_PACKET: an IPv6 packet from a backhaul port is resolved to a handle and sent to step 2 (R439). One for an address of the
port itself, which is none of those that have rows of their own, is dropped (R436). A frame too long for the port is none (R433). -/
def execDownlinkPacket (port : Fin 2) (tag : Option Nat) (packet : IpPacket) (s : State) : Host.Outcome State Fault Refusal :=
  runs s (fun d => if !d.fitsFrame port packet.bytes.length then d else d.hear port tag (fun x =>
    if x.ownAddr port packet.dst then x.bump (F.BHL_DROP_BAD port) 1 else x.toMesh (some port.val) packet))

end Sys2Proof.Machine
end

