-- ==== Sys2Proof/Machine/Uplink.lean ====
section
/-! DEFINITION. The uplink path from step 3 on (R27 to R30): source lookup, security, the Scoresheet, learning, timing,
acknowledgments, association, and delivery. -/

namespace Sys2Proof.Machine

/-- The handle and entry of a frame's source in PAN p (R382); none while the directory is disabled (R383). -/
def Dev.sourceOf (d : Dev) (p : Nat) (a : Addr) : Dev × Option (Nat × Nat) :=
  if !d.enabled 0x20 then (d, none)
  else match a with
  | .none => (d, none)
  | .short x => (d, (d.validEntry (p * 65536 + x)).map (fun e => (p * 65536 + x, e)))
  | .ext x =>
    let (e, n) := d.lookupExt p x
    (d.notePeak n, e.bind (fun k => (d.handleOf k).map (fun h => (h, k))))

/-- Whether a frame is addressed to the device, and asks for an acknowledgment (R318). -/
def wantsReply (m : MacFrame) : Bool := m.ackReq && (m.dst == .short 0 || m.dst == .ext Config.brId.toNat)

/-- The acknowledgment of a frame: it waits at step 5 for its instant (R318, R344). -/
def Dev.sendAck (d : Dev) (p : Nat) (f : RxFrame) (slot : Option Nat) (corr : Option Int) : Dev :=
  let m := f.frame
  if !wantsReply m then d
  else
    let enh := m.version == 2
    let a : MacFrame := { MacFrame.blank with
      version := m.version, ftype := 2, seq := m.seq, dst := if enh then m.src else .none, src := .none,
      timeCorr := if enh then corr else none }
    let t : Tx := { Tx.blank with
      kind := .ack, stage := .step5, port := f.port, phy := f.phy, freq := f.freq,
      preamble := if isSun f.phy then d.panLeastPreamble p else 0, power := d.panTxPower p, pan := some p, frame := some a,
      key := if enh then slot else none,
      level := if enh then (m.sec.map (fun s => s.level)).getD 0 else 0,
      mode := (m.sec.map (fun s => s.mode)).getD 0 }
    d.txAdd { d.sized t with cells := 0 }

/-- The Association Response: the short address and the status, with the retry-after IE where R294 asks for one; it waits at step 5 for
its instant (R295, R344). -/
def Dev.sendResponse (d : Dev) (p x : Nat) (f : RxFrame) (addr status : Nat) (retry : Option Nat) : Dev :=
  let (s, d1) := d.nextMacSeq p
  let r : MacFrame := { MacFrame.blank with
    ftype := 3, ackReq := true, seq := s, panId := d1.panId p, dst := .ext x, src := .short 0, cmd := some 2,
    ies := (match retry with
      | some r => retryIe r ++ ieEnd
      | none => []),
    payload := leBytes 2 addr ++ leBytes 1 status }
  let t : Tx := { Tx.blank with
    kind := .assocResp, stage := .step5, port := f.port, phy := f.phy, opts := dlOpts f.phy (d1.panDlOpts p),
    preamble := if isSun f.phy then d1.panLeastPreamble p else 0, freq := f.freq,
    power := d1.panTxPower p, pan := some p, frame := some r,
    key := if f.frame.sec.isSome then d1.groupKey p else none,
    level := (f.frame.sec.map (fun y => y.level)).getD 0, mode := 1 }
  d1.txAdd { d1.sized t with cells := 0 }

/-- An Association Request of extended address x is answered (R294, R342). -/
def Dev.answerAssoc (d : Dev) (p x : Nat) (f : RxFrame) : Dev :=
  let (d1, addr, status, retry) := d.associate p x (portSector f.port, f.entry, f.chan) (d.groupKey p)
    (f.frame.sec.map (fun s => s.counter)) f.frame.seq
  d1.sendResponse p x f addr status retry

/-- Steps 6 and 7 for a frame of the node with handle h at entry e (R391, R307): its origin is learned, and its timing taken;
frames that waited for it are placed again. -/
def Dev.steps6and7 (d : Dev) (p h e : Nat) (f : RxFrame) : Dev :=
  let m := f.frame
  let path : Path := ⟨h, portSector f.port, f.entry, f.chan⟩
  let strength := (f.latch.strength + 300).toNat
  let learned := match m.mesh, m.flood with
    | some a, _ =>
      let (d1, o) := d.sourceOf p a
      match o with
      | some x => d1.learn f.group x.1 path strength f.latch.tempo
      | none => d1.bump (F.FWD_STAT_C_NO_ORIGIN f.group) 1
    | none, some fh => match (d.panOf f.group fh.originPan).or (d.panNamed fh.originPan) with
      | some q =>
        if (d.validEntry (q * 65536 + fh.originShort)).isSome then
          d.learn f.group (q * 65536 + fh.originShort) path strength f.latch.tempo
        else d.bump (F.FWD_STAT_C_NO_ORIGIN f.group) 1
      | none => d.learn f.group h path strength f.latch.tempo
    | none, none => d.learn f.group h path strength f.latch.tempo
  (learned.nodeSeen h e (portSector f.port) f.entry f.chan f.phy f.latch.mono m.csl).nodeHeard h

/-- A frame from a known node that has passed steps 4 and 5: acknowledged, learned, timed, and used (R27, R28). -/
def Dev.usePassed (d : Dev) (p h e : Nat) (f : RxFrame) (sheet : Option Nat) : Dev :=
  let m := f.frame
  let slot := (m.sec.bind (fun s => d.keyNamed p e s)).map (fun k => k.slot)
  let d1 := d.sendAck p f slot (d.timeCorrection p e f.phy f.latch.mono m.csl)
  let d2 := d1.steps6and7 p h e f
  let d3 := match m.flood, sheet with
    | some fh, some a =>
      if FloodHdr.down fh && decide (1 < fh.ttl) && bit (d2.get F.SHEET_CFG_RELAY_GROUPS) f.group then
        d2.scheduleRelay f.group (d2.panOf f.group m.panId) fh m a
      else d2
    | _, _ => d2
  match m.ftype, m.cmd with
  | 1, _ => d3.step8 f p h
  | 3, some 1 => d3.answerAssoc p (d3.eExt e) f
  | 3, some 3 => d3.removeEntry h
  | 3, some 7 => d3.beaconRequest f.port
  | _, _ => d3

/-- A MAC command that turns out, once open, to be one that R290 leaves out: counted as FCS_BAD would be, and dropped. -/
def Dev.unsupported (d : Dev) (f : RxFrame) : Dev := (d.bump (F.RXP_STAT_COUNT f.group 3) 1).evt (ev 1 (8 + f.group)) 1

/-- A frame of a known node that passed step 4 and that a bad Flood Header stops at step 5 (R322): it is acknowledged (R28), and no later step
runs for it (R27), step 7 with what R307 updates among them (DEDUCED, log entry 135). -/
def Dev.badFlood (d : Dev) (p e : Nat) (f : RxFrame) (slot : Option Nat) : Dev :=
  ((d.bump F.SHEET_COUNT_C_BAD_HDR 1).raise 0x1C 0).sendAck p f slot (d.timeCorrection p e f.phy f.latch.mono f.frame.csl)

/-- Steps 4 to 8 for a frame of a known node. A flood that the Scoresheet suppresses updates nothing further (R324). -/
def Dev.fromKnown (d : Dev) (p h e : Nat) (f : RxFrame) : Dev :=
  let slot := fun (x : Dev) => (f.frame.sec.bind (fun s => x.keyNamed p e s)).map (fun k => k.slot)
  match d.verify h e f.frame with
  | (d1, .stop) => d1
  | (d1, .duplicate m) =>
    let f1 := { f with frame := m }
    let d2 := d1.sendAck p f1 (slot d1) (d1.timeCorrection p e f.phy f.latch.mono m.csl)
    (d2.bump (F.MAC_COUNT_MISC_DUP_ACKS f.group) 1).steps6and7 p h e f1
  | (d1, .pass m) =>
    let f1 := { f with frame := m }
    if !m.cmdKnown then d1.unsupported f1
    else match m.flood with
    | none => d1.usePassed p h e f1 none
    | some fh =>
      if !FloodHdr.ok fh then d1.badFlood p e f1 (slot d1)
      else match d1.sheetCheck fh with
      | (d2, none) => d2
      | (d2, some a) => d2.usePassed p h e f1 (some a)

/-- A request in clear from a source that is not in the directory (R294, R300). -/
def Dev.strangerCmd (d : Dev) (p : Nat) (f : RxFrame) : Dev :=
  let m := f.frame
  if !m.cmdKnown then d.unsupported f
  else match m.cmd, m.src with
  | some 7, _ => d.beaconRequest f.port
  | some 1, .ext x => (d.sendAck p f (if m.sec.isSome then d.groupKey p else none) none).answerAssoc p x f
  | _, _ => d.evt (ev 6 0) 1

/-- A frame from a source that is not in the directory: MAC commands go to MAC_g, and everything else is counted and
dropped (R27, step 3). An Association Request, and a secured command, pass step 4 as R342 states; one with a short address has no key. -/
def Dev.fromUnknown (d : Dev) (p : Nat) (f : RxFrame) : Dev :=
  let m := f.frame
  if m.ftype ≠ 3 then d.evt (ev 6 0) 1
  else match m.cmd, m.src with
  | some 7, _ => d.beaconRequest f.port
  | some 3, _ => d.evt (ev 6 0) 1
  | _, .ext x =>
    match d.verifyJoin p x m with
    | (d1, some y) => d1.strangerCmd p { f with frame := y }
    | (d1, none) => d1
  | _, _ => d.evt (ev 6 0) 1

/-- A frame leaves its input queue; a secured acknowledgment goes to step 4 (R320, R341). -/
def Dev.uplinkFrame (d : Dev) (f : RxFrame) : Dev :=
  let m := f.frame
  if m.ftype = 2 then d.ackReceived f
  else match d.panOf f.group m.panId with
  | none => if m.ftype = 3 ∧ m.cmd = some 7 then d.beaconRequest f.port else d.evt (ev 6 0) 1
  | some p =>
    let (d1, src) := d.sourceOf p m.src
    match src with
    | none => d1.fromUnknown p f
    | some (h, e) => d1.fromKnown p h e f

/-- UPLINK_PIPELINE: the oldest MAC frame of pipeline g passes steps 3 to 8; `errs` are the errors of the lines it reads
(R27). Frames wait during the PROMOTE pause (R494). Frames for a receive ring that waited for this one follow (R265). -/
def execUplinkPipeline (g : Fin 4) (errs : List LineError) (s : State) : Host.Outcome State Fault Refusal :=
  runs s (fun d =>
    if !d.awake || d.is F.UPD_STAT_PAUSE then d
    else match d.rx.queues.getD g [] with
    | [] => d
    | f :: rest =>
      (({ d with rx := { d.rx with queues := setAt d.rx.queues g rest } }.strikes errs).uplinkFrame f).rxUnpark)

end Sys2Proof.Machine
end

