-- ==== Sys2Proof/Machine/Backhaul.lean ====
section
/-! DEFINITION. Backhaul ports and their modules, time over PTP, PPS and the PCI Express link (R66 to R68, R433 to R438, R451 to
R457). -/

namespace Sys2Proof.Machine

/-! ### Module supplies (R67, R68) -/

/-- VSFP_n is on only while the device is awake, BHL_n is enabled, a module is present and no over-current shut-off holds. -/
def Dev.vsfpWanted (d : Dev) (n : Nat) : Bool :=
  d.awake && d.enabled (0x30 + n) && d.pins.modPresent.getLsbD n && !d.bh.overcurrent.getD n false

/-- A loss of PTP lock (R453). -/
def Dev.ptpUnlock (d : Dev) : Dev :=
  if d.is F.PTP_SERVO_LOCKED then
    { ((d.put F.PTP_SERVO_LOCKED 0).put F.CLK_STAT_CMP_PTP 0) with bh := { d.bh with within := 0 } }.raise 0x32 1
  else { d with bh := { d.bh with within := 0 } }

/-- Whether port n runs, or with its link down trains, at 25 Gb/s, with RS-FEC: CFG.SPEED takes effect at link training (R433). -/
def Dev.rate25 (d : Dev) (n : Nat) : Bool :=
  if d.is (F.BHL_LINK_UP n) then d.bh.mode.getD n false else d.get (F.BHL_CFG_SPEED n) == 1

/-- A port's link changes (R434), and at its training takes its rate (R433); the PTP port's link down loses lock (R453). -/
def Dev.linkSet (d : Dev) (n : Nat) (up fec : Bool) : Dev :=
  let d0 := d.put (F.BHL_LINK_FEC_LOCK n) (b2n fec)
  if d0.is (F.BHL_LINK_UP n) == up then d0
  else
    let d1 := ({ d0 with bh := { d0.bh with mode := setAt d0.bh.mode n (d0.rate25 n) } }.put (F.BHL_LINK_UP n) (b2n up)).raise (0x30 + n) 0
    if !up && d1.get F.PTP_CFG_PORT == n then d1.ptpUnlock else d1

/-- A module supply follows its conditions; one that goes off takes the link with it. -/
def Dev.vsfpUpdate (d : Dev) (n : Nat) : Dev :=
  let on := d.vsfpWanted n
  if on == d.is (F.BHL_LINK_VSFP n) then d
  else if on then { (d.put (F.BHL_LINK_VSFP n) 1) with bh := { d.bh with moduleT := setAt d.bh.moduleT n d.tempo } }
  else (d.put (F.BHL_LINK_VSFP n) 0).linkSet n false false

/-! ### Sending (R421, R422, R437, R438) -/

/-- The MAC address that routed packets go to: GW_MAC, or the source of the latest Router Advertisement (R438). -/
def Dev.gateway (d : Dev) (n : Nat) : Option Nat :=
  let m := d.getPair (F.BHL_GW_MAC_LO_MAC n) (F.BHL_GW_MAC_HI_MAC n)
  if m ≠ 0 then some m else d.bh.raMac.getD n none

/-- The fragments of a UDP payload of n bytes (RFC 8200, R443): the offset of each in the UDP packet, and whether more follow. -/
def udpParts (n : Nat) : List (Nat × Bool) :=
  (List.range (udpFrames n)).map (fun k => (1448 * k, decide (k + 1 < udpFrames n)))

/-- The bytes of a UDP payload in the fragment at an offset of its UDP packet, whose first 8 bytes are the UDP header. -/
def udpPart (b : List Byte) (offset : Nat) : List Byte :=
  if offset = 0 then b.take 1440 else (b.drop (offset - 8)).take 1448

/-- A selected frame leaves: as IPv6 to its gateway, or as a datagram of its session, in fragments where one frame does not hold it
(R443). -/
def Dev.egressSend (d : Dev) (n e : Nat) (x : EgrFrame) : Dev :=
  match x.body with
  | .ip p => match d.gateway n with
    | some m => d.frameOut n (.backhaulIp n (e % 64) m (d.vlanTag n (e % 64 / 8)) p)
    | none => d.bump (F.BHL_DROP_BAD n) 1
  | .datagram uid addr udp b =>
    let d1 := d.sessionUpd uid (fun s => { s with paced := s.paced + 1, lastTxT := d.tempo })
    if b.length ≤ udpMost then d1.frameOut n (.datagram n (d.vlanTag n 6) addr udp b)
    else
      let x := d1.draw
      (udpParts b.length).foldl (fun (y : Dev) p =>
        y.frameOut n (.datagramPart n (d.vlanTag n 6) addr udp (Config.freeNat x.1 % 2 ^ 32) p.1 p.2 (udpPart b p.1))) x.2

/-- A backhaul MAC that can take a frame selects one. -/
def Dev.egressService (d : Dev) (n : Nat) : Dev :=
  match d.egrPick n with
  | none => d
  | some e => match (d.egrFrames e).head? with
    | none => d
    | some x => (d.egrTake e x).egressSend n e x

/-- BHL_MODULE_READ (opcode 0x0700): `bytes` are what the module holds from OFFSET on (R435). -/
def Dev.cmdModuleRead (bytes : List Byte) (d : Dev) (src : Src) (e : Entry) : Dev :=
  let port := e.p1 0; let n := e.p1 3
  let running := match src with
    | .ring r h => (d.inflight.takeWhile (fun c => !(c.ring == r && c.e.hseq == h))).any (fun c =>
        c.begun && !c.issued && c.e.opcode == 0x0700 && c.e.p1 0 == port)
    | _ => d.inflight.any (fun c => c.begun && !c.issued && c.e.opcode == 0x0700 && c.e.p1 0 == port)
  let code := oneCode
    (d.moduleReadConds e ++ [(running || !d.is (F.BHL_LINK_VSFP port) || decide (d.tempo < d.bh.moduleT.getD port 0 + 1208), 0x06)])
  if code ≠ 0 then d.finish src code [] else d.finish src 0 ((List.range n).map (fun k => bytes.getD k 0))

/-! ### PTP (R451 to R455) -/

/-- Whether one sequence of numbers comes before another. -/
def lexBefore : List Nat → List Nat → Bool
  | x :: xs, y :: ys => decide (x < y) || (x == y && lexBefore xs ys)
  | _, _ => false

/-- Whether data set a is better than b (IEEE 1588 best master clock algorithm; the figures of equal grandmasters are told
apart by the steps removed). -/
def ptpBetter (a b : PtpMaster) : Bool :=
  let key := fun (m : PtpMaster) => [m.priority1, m.clockClass, m.accuracy, m.variance, m.priority2, m.gmId]
  if a.gmId = b.gmId then decide (a.steps < b.steps) || (a.steps == b.steps && decide (a.sender < b.sender))
  else lexBefore (key a) (key b)

/-- The best master of those heard; GM shows its grandmaster. SYNC_SEEN speaks of the master now chosen (R460). -/
def Dev.ptpChoose (d : Dev) : Dev :=
  let best := d.bh.masters.foldl (fun (b : Option PtpMaster) m => match b with
    | none => some m
    | some x => if ptpBetter m x then some m else some x) none
  let same := best.map PtpMaster.sender == d.bh.chosen.map PtpMaster.sender
  ({ d with bh := { d.bh with chosen := best } }.putPair F.PTP_GM_LO_ID F.PTP_GM_HI_ID ((best.map PtpMaster.gmId).getD 0)).put
    F.PTP_SERVO_SYNC_SEEN (if same then d.get F.PTP_SERVO_SYNC_SEEN else 0)

/-- A 32-bit signed value that saturates. -/
def sat32 (i : Int) : Nat := ofSigned 32 (max (-2147483648) (min 2147483647 i))

/-- A completed exchange with the chosen master gives an offset in ns (R453). -/
def Dev.ptpExchange (d : Dev) (off : Int) : Dev :=
  let d1 := ((d.put F.PTP_OFFSET_NS (sat32 off)).bump F.PTP_COUNT_SYNC 1).put F.PTP_SERVO_SYNC_SEEN 1
  if 1000000 < off.natAbs then
    let t := ((d1.systime : Int) - off * 2 ^ 32) % (2 ^ 96 : Nat)
    (({ d1 with systime := t.toNat, bh := { d1.bh with slew := 0, within := 0 } }.bump F.PTP_COUNT_STEPS 1).raise 0x32 2).dueMoved
  else
    let w := if off.natAbs ≤ 1000 then min (d1.bh.within + 1) 16 else 0
    let d2 := { d1 with bh := { d1.bh with slew := - off * 2 ^ 32, within := w } }
    if w = 16 ∧ d2.is F.PTP_SERVO_LOCKED = false then
      (((d2.put F.PTP_SERVO_LOCKED 1).put F.TIM_SYSTIME_STAT_SYNC 1).put F.CLK_STAT_CMP_PTP 1).raise 0x32 0
    else d2

/-- Whether PTP runs: its page is enabled, and its port's link is up. -/
def Dev.ptpUp (d : Dev) : Bool := d.awake && d.enabled 0x32 && d.is (F.BHL_LINK_UP (d.get F.PTP_CFG_PORT))

/-! ### PCI Express (R457) -/

/-- Every ring over PCI Express stops as EN := 0 stops it, and writes nothing more; MSI-X is masked (R166, R457). A running MSIX_GAP ends too
(DESIGN CHOICE, log entry 144). -/
def Dev.pcieReset (d : Dev) : Dev :=
  let d1 := (List.range 8).foldl (fun x n =>
    if x.ringPcie n then
      let r := x.ring n
      let y := ((x.put (F.HOST_RING_CFG_EN n) 0).put (F.HOST_RING_STAT_FAULT n) 0).setRing n { r with waiting := [], dead := true }
      r.waiting.foldl (fun z w => if w.own then z.retire n w.c.hseq else z) y
    else x) d
  let d2 := (List.range 4).foldl (fun x n => if x.rxPcie n then (x.rxRingOff n).put (F.RXP_RXR_CFG_EN n) 0 else x) d1
  let d3 := (List.range 64).foldl (fun x v => x.wr (0x6000 + 0x800 + 16 * v + 12) (withBits (x.rd (0x6000 + 0x800 + 16 * v + 12)) 0 0 1)) d2
  { d3 with pba := [], gaps := [] }

/-! ### Meanings -/

/-- EGRESS_SERVICE: a backhaul MAC that can take a frame selects one from its egress queues (R422). -/
def execEgressService (port : Fin 2) (s : State) : Host.Outcome State Fault Refusal :=
  runs s (fun d => if d.portHears port && !d.paused then d.egressService port else d)

/-- LINK_CHANGE: a backhaul link goes up or down (R434). It can be up only while the port is enabled and its module supplied, and at
25 Gb/s only with RS-FEC lock, which exists at that rate alone. -/
def execLinkChange (port : Fin 2) (up fec : Bool) (s : State) : Host.Outcome State Fault Refusal :=
  runs s (fun d =>
    if d.awake then
      d.linkSet port (up && d.enabled (0x30 + port) && d.is (F.BHL_LINK_VSFP port) && (fec || !d.rate25 port)) (fec && d.rate25 port)
    else d)

/-- MODULE_INSERT: an SFP module is inserted, and its supply soft-starts (R68). -/
def execModuleInsert (port : Fin 2) (s : State) : Host.Outcome State Fault Refusal :=
  runs s (fun d =>
    let d1 := { d with pins := { d.pins with modPresent := d.pins.modPresent ||| BitVec.ofNat 2 (2 ^ port.val) } }
    if d1.awake then ((d1.put (F.BHL_LINK_MODULE port) 1).vsfpUpdate port).raise (0x30 + port) 1 else d1)

/-- MODULE_REMOVE: SFP_MODABS_n goes high and VSFP_n switches off (R68). -/
def execModuleRemove (port : Fin 2) (s : State) : Host.Outcome State Fault Refusal :=
  runs s (fun d =>
    let d1 := { d with pins := { d.pins with modPresent := d.pins.modPresent &&& ~~~(BitVec.ofNat 2 (2 ^ port.val)) } }
    if d1.awake then ((d1.put (F.BHL_LINK_MODULE port) 0).vsfpUpdate port).raise (0x30 + port) 1 else d1)

/-- VSFP_OVERCURRENT: the module current limit holds for more than 1 ms (R68). -/
def execVsfpOvercurrent (port : Fin 2) (s : State) : Host.Outcome State Fault Refusal :=
  runs s (fun d =>
    if d.is (F.BHL_LINK_VSFP port) then
      ({ d with bh := { d.bh with overcurrent := setAt d.bh.overcurrent port true } }.vsfpUpdate port).raise (0x30 + port) 1
    else d)

/-- BHL_MODULE_READ: the begun command reads module memory over I2C (R435). -/
def execBhlModuleRead (ring : Fin 8) (hseq : Nat) (bytes : List Byte) (s : State) : Host.Outcome State Fault Refusal :=
  runs s (fun d => d.runRow ring hseq 0x0700 (Dev.cmdModuleRead bytes))

/-- NEIGHBOR_SOLICITATION: one for an own address is answered; any other is dropped (R436, R438). -/
def execNeighborSolicitation (port : Fin 2) (tag : Option Nat) (target : Nat) (s : State) : Host.Outcome State Fault Refusal :=
  runs s (fun d => d.hear port tag (fun x =>
    if x.ownAddr port target then x.frameOut port (.neighborAdvert port (x.vlanId port) target) else x.bump (F.BHL_DROP_BAD port) 1))

/-- ECHO_REQUEST: an ICMPv6 Echo Request to an own address is answered (R436). -/
def execEchoRequest (port : Fin 2) (tag : Option Nat) (target : Nat) (s : State) : Host.Outcome State Fault Refusal :=
  runs s (fun d => d.hear port tag (fun x =>
    if x.ownAddr port target then x.frameOut port (.echoReply port (x.vlanId port) target) else x.bump (F.BHL_DROP_BAD port) 1))

/-- ROUTER_ADVERTISEMENT: the gateway's source MAC address is recorded (R438). -/
def execRouterAdvertisement (port : Fin 2) (tag : Option Nat) (mac : BitVec 48) (s : State) : Host.Outcome State Fault Refusal :=
  runs s (fun d => d.hear port tag (fun x => { x with bh := { x.bh with raMac := setAt x.bh.raMac port (some mac.toNat) } }))

/-- The delay request-response mechanism with the chosen master (R451): a Sync has arrived, a Delay_Req leaves at once with PCP 6 (R437,
R452), and its Delay_Resp completes the exchange. -/
def Dev.ptpDelay (d : Dev) (p : Nat) (x : PtpExchange) : Dev :=
  if d.ptpUp && d.bh.chosen.isSome then
    (d.frameOut p (.ptpDelayReq p (d.vlanTag p 6) (d.is F.PTP_CFG_TRANSPORT))).hear p x.tag (fun y => y.ptpExchange x.offset)
  else d

/-- PTP_EXCHANGE: a Sync of a master arrives on PTP's port, of a two-step master with its Follow_Up, and the exchange that completes steps or
slews SYSTIME (R451 to R453). -/
def execPtpExchange (exchange : PtpExchange) (s : State) : Host.Outcome State Fault Refusal :=
  runs s (fun d =>
    let p := d.get F.PTP_CFG_PORT
    let d1 := d.hear p exchange.tag (fun x => if exchange.twoStep then x.hear p exchange.tag id else x)
    if d.portHears p && d.vlanOk p exchange.tag then d1.ptpDelay p exchange else d1)

/-- Whether a PTP message on a port, in a domain and over a transport (UDP or IEEE 802.3) is this clock's (R451). -/
def Dev.ptpMine (d : Dev) (port domain : Nat) (udp : Bool) : Bool :=
  d.get F.PTP_CFG_PORT == port && d.get F.PTP_CFG_DOMAIN == domain && d.get F.PTP_CFG_TRANSPORT == b2n udp

/-- PTP_ANNOUNCE: an Announce message feeds the best master clock algorithm (R451). -/
def execPtpAnnounce (heard : Announce) (s : State) : Host.Outcome State Fault Refusal :=
  runs s (fun d => d.hear heard.port heard.tag (fun x =>
    if x.ptpUp && x.ptpMine heard.port heard.domain.toNat heard.udp then
      { x with bh := { x.bh with masters := heard.master :: x.bh.masters.filter (fun m => m.sender != heard.master.sender) } }.ptpChoose
    else x))

/-- PTP_SYNC_TIMEOUT: four Sync intervals pass without a Sync, and lock is lost (R453). -/
def execPtpSyncTimeout (s : State) : Host.Outcome State Fault Refusal :=
  runs s (fun d => if d.awake then (d.put F.PTP_SERVO_SYNC_SEEN 0).ptpUnlock else d)

/-- ANNOUNCE_TIMEOUT: the chosen master's Announce receipt times out, and lock is lost (R453). -/
def execAnnounceTimeout (s : State) : Host.Outcome State Fault Refusal :=
  runs s (fun d =>
    if d.awake then
      let gone := (d.bh.chosen.map (fun m => m.sender)).getD 0
      ({ d with bh := { d.bh with masters := d.bh.masters.filter (fun m => m.sender != gone) } }.ptpChoose).ptpUnlock
    else d)

/-- PPS_IN_EDGE: a rising edge of PPS_IN latches SYSTIME (R455). -/
def execPpsInEdge (s : State) : Host.Outcome State Fault Refusal :=
  runs s (fun d => if d.awake then d.ppsEdge.captureEdge 4 true else d)

/-- PPS_OUT_SECOND: at a whole second of SYSTIME, PPS_OUT rises, where it is driven (R455). -/
def execPpsOutSecond (s : State) : Host.Outcome State Fault Refusal :=
  runs s (fun d =>
    let driven := d.awake && d.is F.PTP_CFG_PPS_OUT_EN && (d.is F.TIM_SYSTIME_STAT_SYNC || d.is F.PTP_CFG_PPS_FREE)
    { d with bh := { d.bh with ppsOut := driven && decide (d.sysNs % 1000000000 < 100000000) } })

/-- PCIE_RESET: a function-level reset (0), a fall of PERST_N (1) or a link-down (2) (R457). -/
def execPcieReset (kind : Fin 3) (s : State) : Host.Outcome State Fault Refusal :=
  runs s (fun d =>
    if !d.awake then
      let d1 := { d with pins := { d.pins with perstN := d.pins.perstN && kind != 1 } }
      if kind = 0 then d1 else d1.put F.PCIE_LINK_UP 0
    else
      let d1 := d.pcieReset
      if kind = 0 then d1.bump F.PCIE_FLR_COUNT 1
      else { (d1.put F.PCIE_LINK_UP 0) with pins := { d1.pins with perstN := d1.pins.perstN && kind != 1 } })

/-- The endpoint is out of reset and may train: from the start of Copy, never in SAFE (R110). -/
def Dev.pcieMayTrain (d : Dev) : Bool :=
  d.awake || [Phase.copy, .laneStart, .calibration, .releaseWait].contains d.pw.phase

/-- What the endpoint's link allows it, and its capabilities (R456): the largest payload and the largest read request in bytes, and the
non-posted requests that may be outstanding; AER, function-level reset, and the vectors of MSI-X. -/
structure EndpointLimits where
  maxPayload : Nat := 256
  maxRead : Nat := 512
  outstanding : Nat := 32
  aer : Bool := true
  flr : Bool := true
  vectors : Nat := 64
  deriving DecidableEq, Repr

/-- Memory-write requests that a record or completion of n bytes takes on the link (R456). -/
def EndpointLimits.writes (l : EndpointLimits) (n : Nat) : Nat := (n + l.maxPayload - 1) / l.maxPayload

/-- The first 64 bytes of the endpoint's configuration space that R456 fixes, as 32-bit words: Device and Vendor ID, class code and
Revision ID, and the subsystem IDs as read at power-up. The spec gives no other word. -/
def Dev.pcieConfig (d : Dev) (word : Nat) : Option Nat :=
  match word with
  | 0 => some 0x60321F8D
  | 2 => some 0x028000B0
  | 11 => some d.bh.subsys
  | _ => none

/-- The answer to a configuration request is Configuration Request Retry Status, until release (R110). -/
def Dev.configRetry (d : Dev) : Bool := d.poweringUp && d.pcieMayTrain && d.pins.perstN

/-- The link leaves L0: every ring over PCI Express stops, once the device runs (R457). -/
def Dev.linkLost (d : Dev) : Dev := (if d.awake then d.pcieReset else d).put F.PCIE_LINK_UP 0

/-- PCIE_LINK_UP: a host holds PERST_N and the reference clock at some levels; with PERST_N high and the clock present, training completes
and the endpoint reaches L0; with either missing no link is possible, and one that stands is lost (R66, R110). -/
def execPcieLinkUp (host : PcieHost) (link : PcieTrained) (s : State) : Host.Outcome State Fault Refusal :=
  runs s (fun d =>
    let d1 := { d with pins := { d.pins with perstN := host.perstN, refClk := host.refClk } }
    if d1.pcieMayTrain && host.perstN && host.refClk then
      ((d1.put F.PCIE_LINK_UP 1).put F.PCIE_LINK_WIDTH (1 + b2n link.x2)).put F.PCIE_LINK_SPEED (1 + link.gen.val)
    else if d1.is F.PCIE_LINK_UP && !(host.perstN && host.refClk) then d1.linkLost
    else d1)

end Sys2Proof.Machine
end

