-- ==== Sys2Proof/Machine/Calibration.lean ====
section
/-! DEFINITION. In-service calibration and castling (R224 to R243). -/

namespace Sys2Proof.Machine

/-- The items of the steps of a chain's calibration, in order (R224, R226). -/
def calItems (g c : Nat) : List Nat :=
  let k := if g = 2 then 2 else 1
  let pa := if c = 8 then (if g = 2 then 48 else 32) else (if g = 2 then 24 else 16)
  List.replicate (2 * k) 0 ++ List.replicate k 1 ++ List.replicate (2 * k) 2 ++ List.replicate (2 * k) 3
    ++ List.replicate (2 * k) 4 ++ List.replicate pa 5

/-- In-service calibration runs in a group (R231). -/
def Dev.calRuns (d : Dev) (g : Nat) : Bool :=
  d.enabled 0x14 && bit (d.get F.CAL_CFG_GROUPS) g && d.pw.phase == .run

/-- A spare that carries no duty and is not calibrating (R240): in SYNTH with its receive LO locked where in-service calibration runs in
a group that is not SPARE_BAD; otherwise in STBY in IDLE, or SLEEP, with no lock. -/
def Dev.spareIdle (d : Dev) (g : Nat) : Dev :=
  if d.calRuns g && d.calState g != 8 then (d.setChainState g 8 2).setRxLock g 8 true
  else ((d.setChainState g 8 (if d.pw.phase == .idle then 1 else 0)).setTxLock g 8 false).setRxLock g 8 false

/-- The state that a port's own chain takes by R197, once its ball is its own. -/
def Dev.chainRest (d : Dev) (g c : Nat) : Dev := d.setChainState g c (d.dutyState (8 * g + c))

/-- A named chain has finished: the outstanding request completes with the last of them (R242). -/
def Dev.calReqDone (d : Dev) (g c : Nat) (ok : Bool) : Dev :=
  match (d.calg g).req with
  | none => d
  | some (src, left, failed) =>
    if left.contains c then
      let left' := left.filter (fun x => x != c)
      let failed' := if ok then failed else failed ||| 2 ^ c
      if left'.isEmpty then
        ((d.setCalg g { d.calg g with req := none }).raise 0x14 0).finish src (if failed' = 0 then 0 else 0x03)
          (beBytes 2 failed' ++ beBytes 1 (b2n (d.calState g == 7)))
      else d.setCalg g { d.calg g with req := some (src, left', failed') }
    else d

/-- The trims of a chain that its calibration staged are in force (R224, R234). -/
def Dev.takeTrims (d : Dev) (g : Nat) : Dev :=
  let r := d.calg g
  d.setCalg g { r with trims := r.stagedTrims.foldl (fun l x => kvSet l x.1 x.2) r.trims, stagedTrims := [] }

/-- An attempt is over: at the end of a round CAL_DONE is raised (R234). -/
def Dev.calEnded (d : Dev) (g : Nat) : Dev :=
  let d1 := if (d.calg g).roundEnd then (d.setCalg g { d.calg g with roundEnd := false }).raise 0x14 0 else d
  (d1.setCalg g { d1.calg g with again := false, staged := [], stagedTrims := [], committed := false, heldRun := false,
                                 settled := false }).calNone g

/-- Length of a swap gap of so many samples, in core cycles: 64 samples are 40, 16, 2 and 0.64 µs in groups 0 to 3 (R237). -/
def gapCycles (g gap : Nat) : Nat := (gap * [16000, 6400, 800, 256].getD g 0 + 63) / 64

/-- Ball s moves to or from the spare (R236 to R238): the swap is counted with its gap, and every frame whose body spans it
straddles; in a combined one the gap's samples have weight 0 (R259). -/
def Dev.swap (d : Dev) (g s gap : Nat) : Dev :=
  let d1 := (d.bump F.CAL_COUNT_SWAPS 1).peak ⟨R.CAL_GAP_MAX, 8 * g + 7, 8 * g⟩ gap
  let p := 8 * g + s
  let hit := d1.rx.ctxs.filter (fun c => c.latch.isSome && c.members.any (fun m => m.1 == p))
  let d2 := { d1 with ra := { d1.ra with gapEnd := setAt d1.ra.gapEnd p (d1.monoCycles + gapCycles g gap) },
                      rx := { d1.rx with ctxs := d1.rx.ctxs.map (fun (c : Ctx) =>
    if c.latch.isSome && c.members.any (fun m => m.1 == p) then { c with straddle := true, blanked := c.blanked || c.combined } else c) } }
  ((d2.bump F.CAL_COUNT_STRADDLE hit.length).evt (ev 13 1) hit.length).evt (ev 13 0) 1

/-- The slot's command waits for lock on the chain that carries the port after a swap (R239). -/
def Dev.slotFollows (d : Dev) (p : Nat) : Dev :=
  match d.slotTx p with
  | some t => if t.stage = .slot then d.slotTune t else d
  | none => d

/-- The ball returns to its own chain, which takes the trims of a committed calibration, and the spare becomes idle; a failed spare
becomes SPARE_BAD (R234, R241). -/
def Dev.swapBack (d : Dev) (g s gap : Nat) : Dev :=
  let d0 := if (d.calg g).committed then d.takeTrims g else d
  let d1 := ((d0.swap g s gap).put (F.RFG_CHAIN_MAP_CASTLING g) 0).put (F.RFG_CHAIN_MAP_SECTOR g) 0xF
  let bad := (d1.calg g).badAfter
  let d2 := (d1.setCalg g { d1.calg g with badAfter := false, lost := false }).setCalState g (if bad then 8 else 0)
  let d3 := if bad then d2.raise 0x14 2 else d2
  ((d3.chainRest g s).spareIdle g).slotFollows (8 * g + s)

/-- The outcome of an attempt given up: ABANDONED, unless its results are committed; then the chain has finished (R241, R242). -/
def Dev.calGivenUp (d : Dev) (g : Nat) : Dev :=
  let c := d.calChain g
  if c = 0xF then d
  else if (d.calg g).committed then d.calReqDone g c true
  else d.calOutcome (deviceChain g c) 3 0xF

/-- Staged results are discarded and the sequencer returns to READY; a castled port swaps back at once (R241). A group that is HELD or SPARE_BAD
stays so; its directly calibrated chain rests, but one whose port the spare carries stays in CAL. -/
def Dev.calAbandon (d : Dev) (g : Nat) : Dev :=
  let st := d.calState g
  let c := d.calChain g
  let d0 := d.calGivenUp g
  if st = 7 ∨ st = 8 then
    if c = 0xF then d0
    else
      let d1 := d0.calEnded g
      if c = 8 then d1.spareIdle g else if (d.calg g).heldRun then d1 else d1.chainRest g c
  else
    let d1 := if d0.is (F.RFG_CHAIN_MAP_CASTLING g) then d0.swapBack g (d0.get (F.RFG_CHAIN_MAP_SECTOR g)) 0
              else (d0.setCalState g 0).spareIdle g
    let d2 := if c < 8 then d1.chainRest g c else d1
    (d2.calEnded g)

/-- A castled or castling port leaves service (R241): castling ends at once with no swap back. -/
def Dev.calPortOut (d : Dev) (g s : Nat) : Dev :=
  let st := d.calState g
  if 1 ≤ st ∧ st ≤ 4 ∧ d.calChain g = s then
    let d1 := ((d.calGivenUp g).put (F.RFG_CHAIN_MAP_CASTLING g) 0).put (F.RFG_CHAIN_MAP_SECTOR g) 0xF
    let bad := (d1.calg g).badAfter
    let d2 := (d1.setCalg g { d1.calg g with badAfter := false }).setCalState g (if bad then 8 else 0)
    (((if bad then d2.raise 0x14 2 else d2).calEnded g).setChainState g s 0).spareIdle g
  else d

/-- ROUND.TEMPOS / 9: the interval that begins now (R232). -/
def Dev.calInterval (d : Dev) : Nat := d.get F.CAL_ROUND_TEMPOS / 9

/-- The conditions of R231 are looked at: a group in which they cease to hold stops, and begins afresh when they hold
again, from the boundary that follows if a tempo is under way (R232). -/
def Dev.calConditions (d : Dev) : Dev :=
  (List.range 4).foldl (fun x g =>
    let c := x.calg g
    if x.calRuns g then
      if c.on then x else
        let y := x.setCalg g { c with on := true, since := x.tempo + b2n (x.cycle != 0), interval := x.calInterval }
        if y.get (F.RFG_CHAIN_MAP_SECTOR g) = 0xF then y.spareIdle g else y
    else if c.on then
      let y := x.setCalg g { c with on := false, due := false }
      let z := y.calAbandon g
      if z.get (F.RFG_CHAIN_MAP_SECTOR g) = 0xF then z.spareIdle g else z
    else x) d

/-- Every VALID entry of a port's table is VALID in the spare's table of its sector (R235). -/
def Dev.spareCovers (d : Dev) (g s : Nat) : Bool :=
  (List.range 64).all (fun i => !ptValid (d.ptWord (8 * g + s) i) || ptValid (d.spareWord g s i))

/-- The chain that the next calibration takes (R232), and whether it is the round's own. -/
def Dev.calChoose (d : Dev) (g : Nat) (temps : List Int) : Nat × Bool :=
  let c := d.calg g
  let delta : Int := d.get F.CAL_CFG_TEMP_DELTA
  let named := match c.req with
    | some (_, left, _) => (List.range 9).find? (fun k => left.contains k)
    | none => none
  let moved := if delta = 0 then none else (List.range 9).find? (fun k => match c.temps.getD k none with
    | some t => decide (delta ≤ temps.getD k t - t) || decide (delta ≤ t - temps.getD k t)
    | none => false)
  match named, moved with
  | some k, _ => (k, false)
  | none, some k => (k, false)
  | none, none => (c.round, true)

/-- A calibration starts on a chain, if the sequencer's state lets it (R233 to R235, R241). -/
def Dev.calStart (d : Dev) (g c : Nat) (own : Bool) : Dev :=
  let r := d.calg g
  let st := d.calState g
  let d0 := d.setCalg g { r with due := false, round := if own then (r.round + 1) % 9 else r.round,
                                 roundEnd := own && c == 8, staged := [], stagedTrims := [], committed := false }
  let named := match r.req with
    | some (_, left, _) => left.contains c
    | none => false
  let go := fun (x : Dev) (state : Nat) =>
    ((x.setCalState g state).put (F.CAL_GSTAT_CHAIN g) c).put (F.CAL_GSTAT_STEPS_LEFT g) (calItems g c).length
  let skip := fun (x : Dev) => x.calEnded g
  let held := d.is (F.RFG_CHAIN_MAP_CASTLING g) && d.get (F.RFG_CHAIN_MAP_SECTOR g) == c
  if c = 8 then
    if st = 7 ∨ (st = 8 ∧ !named) then skip d0
    else
      let x := go d0 (if st = 8 then 8 else 6)
      if x.chainState g 8 = 0 then x.setChainState g 8 1 else x
  else if st = 7 ∧ held = true then
    if named then go (d0.setCalg g { d0.calg g with heldRun := true }) 7 else skip d0
  else if !d.inService (8 * g + c) then (go d0 (if st = 7 ∨ st = 8 then st else 5)).setChainState g c 1
  else if st ≠ 0 ∨ d.is F.UPD_STAT_PAUSE then skip d0
  else if !d.spareCovers g c then ((d0.calOutcome (8 * g + c) 4 0xF).calReqDone g c false).calEnded g
  else
    let p := 8 * g + c
    let f := match d0.slotTx p with
      | some t => t.freq
      | none => d0.synthAt p
    ((go d0 1).tune (32 + g) f).setTxLock g 8 false

/-- The greatest OUT of the entries that a step trims (R225, R227). -/
def calOut (g : Nat) (entries : List (Nat × Nat)) : Int :=
  entries.foldl (fun m x => max m (ptOut (startupPt g (x.1 % 64)))) (-512)

/-- A chain fails its calibration (R228, R230, R241). A castled chain that fails leaves the port on the spare; its own chain stays in
CAL, and so does one that fails again while HELD. -/
def Dev.calFail (d : Dev) (g c item : Nat) : Dev :=
  let d1 := (d.calOutcome (deviceChain g c) (if item = 0 then 2 else 1) item).put ⟨R.CAL_FAULT g, c, c⟩ 1
  let st := d.calState g
  let d2 :=
    if c = 8 then ((d1.setCalState g 8).raise 0x14 2).spareIdle g
    else if st = 2 then (d1.setCalState g 7).raise 0x14 1
    else
      let x := d1.raise 0x14 1
      if (d.calg g).heldRun then x else (if st = 5 then x.setCalState g 0 else x).chainRest g c
  (d2.calReqDone g c false).calEnded g

/-- The word of an entry after its trim: BIAS and GAIN codes, VALID, and OUT at its target (R225). -/
def trimmed (g i bias gain : Nat) (valid : Bool) : Nat :=
  bias % 256 * 2 ^ 24 + gain % 256 * 2 ^ 16 + b2n valid * 2 ^ 15 + startupPt g i % 2 ^ 10

/-- What a step trimmed is staged: the code of an item 0 to 4, or the entries of a PA step with, in group 2, the gain-code offset of
range 2H (R224). -/
def Dev.stageTrims (d : Dev) (g ch step item code : Nat) (trims : List Trim) : Dev :=
  let c := d.calg g
  if item = 5 then
    d.setCalg g { c with
      staged := c.staged ++ trims.map (fun (x : Trim) => (x.entry, trimmed g (x.entry % 64) x.bias x.gain x.met))
      stagedTrims := if g = 2 then trims.foldl (fun l (x : Trim) => kvSet l (1000 * ch + 100 + x.entry) (x.offset % 256)) c.stagedTrims
                     else c.stagedTrims }
  else d.setCalg g { c with stagedTrims := kvSet c.stagedTrims (1000 * ch + step) code }

/-- The number of the step that comes next, and its item (R224). -/
def Dev.calStepNo (d : Dev) (g : Nat) : Nat := (calItems g (d.calChain g)).length - d.get (F.CAL_GSTAT_STEPS_LEFT g)
def Dev.calItem (d : Dev) (g : Nat) : Nat := (calItems g (d.calChain g)).getD (d.calStepNo g) 5

/-- The load that a step counts, mW (R227): of a PA step, that of the greatest entry it trims; of a leaking transmitter a free value. -/
def Dev.stepLoad (d : Dev) (g item : Nat) (trims : List Trim) : Nat × Dev :=
  if item = 5 then (loadMw (calOut g (trims.map (fun x => (x.entry, x.entry)))), d)
  else if item = 4 then let x := d.draw; (Config.freeNat x.1 % (loadMw (hwMax g) + 1), x.2)
  else (0, d)

/-- A group counts a load for its calibration step (R227). -/
def Dev.setStepLoad (d : Dev) (g w : Nat) : Dev :=
  let d1 := d.setCalg g { d.calg g with load := w }
  let d2 := d1.peak F.VAULT_RF_LOAD_PEAK_MW d1.rfLoad
  { d2 with tab := { d2.tab with telemRf := max d2.tab.telemRf d2.rfLoad } }

/-- The job holds its guaranteed slice in this tempo (R43). -/
def Dev.holdsSlice (d : Dev) (rank : Nat) : Bool := d.is (F.SYS_BG_STAT_GUARANTEED rank)

/-- One calibration step runs within a tempo (R224, R227, R228): deferred where its load finds no room, unless a guaranteed slice
has reserved it; what was reserved beyond the step's load is released (R206). -/
def Dev.calStep (d : Dev) (g : Nat) (ok : Bool) (temp : Int) (code : Nat) (trims : List Trim) : Dev :=
  let c := d.calChain g
  let left := d.get (F.CAL_GSTAT_STEPS_LEFT g)
  let item := d.calItem g
  let (w, d0) := (d.setCalg g { d.calg g with load := 0 }).stepLoad g item trims
  if !(d0.fitsBudget w || d.holdsSlice 0) then d
  else
    let e := d0.setStepLoad g w
    let d1 := (if w < (d.calg g).load then e.recheckBudget else e).bgDo 0 g 1
    if !ok then
      if (d1.calg g).again then d1.calFail g c item else d1.setCalg g { d1.calg g with again := true }
    else
      let d2 := (d1.setCalg g { d1.calg g with again := false, temp := temp }).stageTrims g c (d.calStepNo g) item code trims
      let d3 : Dev := d2.put (F.CAL_GSTAT_STEPS_LEFT g) (left - 1)
      let d4 := if left = 1 then d3.put (F.CAL_GSTAT_ITEM g) 0xF else d3
      if left = 1 ∧ d4.calState g = 2 then d4.setCalState g 3 else d4

/-- The staged table of a chain is committed: a port's table (R34), or the spare's sector tables (R226). -/
def Dev.calCommit (d : Dev) (g c : Nat) : Dev :=
  let r := d.calg g
  if c = 8 then d.setCalg g { r with spareTab := r.staged.foldl (fun l y => kvSet l y.1 y.2) r.spareTab, staged := [] }
  else
    let d1 := r.staged.foldl (fun (x : Dev) y => x.wr (ptKey g c (y.1 % 64)) y.2) (d.setCalg g { r with staged := [] })
    d1.put (F.RFG_PT_VER_VERSION g) ((d1.get (F.RFG_PT_VER_VERSION g) + 1) % 65536)

/-- A chain whose last step is done passes (R34, R234, R243): its table is committed, its outcome, age and temperature are recorded, and
its trims are in force unless it is to take them at the swap back. -/
def Dev.calPassed (d : Dev) (g : Nat) : Dev :=
  let c := d.calChain g
  let k := deviceChain g c
  let temp := (d.calg g).temp
  let d1 := (((d.calCommit g c).calOutcome k 0 0xF).put (F.CAL_CHAIN_SINCE k) 0).put (F.CAL_CHAIN_TEMP k) (ofSigned 8 temp)
  let d2 := d1.setCalg g { d1.calg g with temps := setAt (d1.calg g).temps c (some temp), committed := true }
  if d.calState g = 3 ∨ (d.calg g).heldRun = true then d2 else d2.takeTrims g

/-- Item 1 of R39 for a group: the power table of a chain whose last step is done is committed. Then the load of the ended tempo's step
is released (R227), and a chain with steps to run enters CAL, with the item of the tempo that begins (R233, R234, R243). -/
def Dev.calTempo (d : Dev) (g : Nat) : Dev :=
  let d0 := if (d.calg g).load = 0 then d else d.setCalg g { d.calg g with load := 0 }
  let c := d0.calChain g
  let left := d0.get (F.CAL_GSTAT_STEPS_LEFT g)
  if c = 0xF ∨ d0.calRuns g = false then d0
  else if left = 0 then
    if [3, 5, 6, 7, 8].contains (d0.calState g) && !(d0.calg g).committed then d0.calPassed g else d0
  else if [2, 5, 6, 7, 8].contains (d0.calState g) then (d0.setChainState g c 5).put (F.CAL_GSTAT_ITEM g) (d0.calItem g)
  else d0
/-- Item 1 of R39 for the four groups; transmissions that are held meet the budget again once a step's load is released (R206, R227). -/
def Dev.calBoundary (d : Dev) : Dev :=
  let d1 := (List.range 4).foldl (fun (x : Dev) g => x.calTempo g) d
  if d.cal.any (fun c => c.load != 0) then d1.recheckBudget else d1

/-- After the commit the sequencer moves on (R234, R241): a castled chain, or one held that has passed, goes to SYNTH, tunes as the spare
did and prepares to return; a chain calibrated directly rests. -/
def Dev.calReturn (d : Dev) (g : Nat) : Dev :=
  let st := d.calState g
  let c := d.calChain g
  if st = 3 ∨ (st = 7 ∧ (d.calg g).heldRun = true) then
    let d1 := (d.setCalState g 4).returnTune g c
    let d2 := d1.setCalg g { d1.calg g with settled := false, lost := false, heldRun := false }
    ((d2.calReqDone g c true).put (F.CAL_GSTAT_ITEM g) 0xF).put (F.CAL_GSTAT_STEPS_LEFT g) 0
  else
    let d1 := d.setCalState g (if st = 7 ∨ (st = 8 ∧ c ≠ 8) then st else 0)
    let d2 := if c = 8 then d1.spareIdle g else d1.chainRest g c
    (d2.calReqDone g c true).calEnded g

/-- CAL_REQUEST (R242). -/
def Dev.cmdCalRequest (d : Dev) (src : Src) (e : Entry) : Dev :=
  let g := e.p1 0; let chains := e.p2 1
  let gg := g % 4
  let held := d.calState gg == 7
  let heldOn := d.get (F.RFG_CHAIN_MAP_SECTOR gg)
  let named := (List.range 9).filter (fun c => bit chains c)
  let stuck := named.any (fun c => c != 8 && d.inService (8 * gg + c) &&
    (d.calState gg == 8 || (held && c != heldOn)))
  let code := oneCode
    (calRequestRange e ++ [(!d.calRuns gg, 0x03), ((d.calg gg).req.isSome, 0x06), (stuck, 0x07)])
  if code ≠ 0 then d.finish src code []
  else d.setCalg gg { d.calg gg with req := some (src, named, 0) }

/-! ### Meanings -/

/-- CAL_DUE: the calibration interval of a group expires, or the previous calibration has ended with one due, and the next
chain is chosen by the chain temperatures given, °C (R232). -/
def execCalDue (g : Fin 4) (temps : List Int) (s : State) : Host.Outcome State Fault Refusal :=
  runs s (fun d =>
    let c := d.calg g
    let elapsed := decide (c.interval ≤ d.tempo - c.since)
    if !c.on || !d.calRuns g || !(elapsed || c.due) then d
    else
      let d1 := if elapsed then d.setCalg g { c with since := d.tempo, interval := d.calInterval } else d
      if d1.calChain g ≠ 0xF then d1.setCalg g { d1.calg g with due := true }
      else
        let ch := d1.calChoose g temps
        d1.calStart g ch.1 ch.2)

/-- Whether a calibration step can run in a group in this tempo: its chain is in CAL with steps left, none has run in it, and an overrun
has not deferred the job (R41, R48, R224). -/
def Dev.calCan (d : Dev) (g : Nat) : Bool :=
  d.calRuns g && d.calChain g != 0xF && decide (0 < d.get (F.CAL_GSTAT_STEPS_LEFT g)) && [2, 5, 6, 7, 8].contains (d.calState g)
    && d.chainState g (d.calChain g) == 5 && d.bgDid 0 g == 0 && d.bg.overrun != some 0

/-- CAL_STEP: the calibration step of a group's tempo, with its outcome and what it measured and trimmed (R224, R228). -/
def execCalStep (g : Fin 4) (ok : Bool) (found : CalFound) (s : State) : Host.Outcome State Fault Refusal :=
  runs s (fun d => if d.calCan g then d.calStep g ok found.temp found.code.toNat found.trims else d)

/-- CASTLING_SETTLED: the spare in PREPARE, or the port's chain in RETURN, has settled through the tap (R234). -/
def execCastlingSettled (g : Fin 4) (s : State) : Host.Outcome State Fault Refusal :=
  runs s (fun d =>
    if (d.calg g).settled then d
    else
      let d1 := d.setCalg g { d.calg g with settled := true, settledAt := d.monoCycles }
      if d.calState g = 1 then (d1.setTxLock g 8 true).setRxLock g 8 true
      else if d.calState g = 4 then (d1.setTxLock g (d.calChain g) true).setRxLock g (d.calChain g) true
      else d)

/-- The swap point of R236: settled, no command of the port between its release and the end of its ramp-down, and either a ramp-down
ends now or SWAP_WAIT has passed since settling. -/
def Dev.swapPoint (d : Dev) (g p : Nat) : Bool :=
  (d.calg g).settled && (d.airTx p).isNone
    && ((d.ra.rampDown.getD p 0 != 0 && d.ra.rampDown.getD p 0 == d.monoCycles)
        || decide ((d.calg g).settledAt + 400 * d.get F.CAL_CFG_SWAP_WAIT ≤ d.monoCycles))

/-- CASTLING_RETURN: the results of a named chain's calibration having been committed at this boundary, a castled chain prepares to return, and
a chain calibrated directly rests (R234). -/
def execCastlingReturn (g : Fin 4) (chain : Fin 9) (s : State) : Host.Outcome State Fault Refusal :=
  runs s (fun d =>
    if d.calChain g == chain.val && (d.calg g).committed && [3, 5, 6, 7, 8].contains (d.calState g) then d.calReturn g else d)

/-- CAL_REQUEST: the begun command queues calibrations of named chains (R242). -/
def execCalRequest (ring : Fin 8) (hseq : Nat) (s : State) : Host.Outcome State Fault Refusal :=
  runs s (fun d => d.runRow ring hseq 0x0210 Dev.cmdCalRequest)

end Sys2Proof.Machine
end

