-- ==== Sys2Proof/Machine/Background.lean ====
section
/-! DEFINITION. Deferral of the background jobs and their guaranteed slices (R41 to R48). -/

namespace Sys2Proof.Machine

/-- Whether a background job is enabled (R46, R85): calibration, scrub, sweeper, telemetry, pawn chain, self-test. -/
def Dev.jobEnabled (d : Dev) (rank : Nat) : Bool :=
  match rank with
  | 0 => (List.range 4).any (fun g => d.calRuns g)
  | 1 => true
  | 2 => (List.range 4).any (fun g => d.enabled (0x24 + g) && d.is (F.FWD_CFG_SWEEP_EN g))
  | 3 => d.enabled 0x21 && d.is F.TMEM_TELEM_CFG_EN
  | 4 => d.enabled 0x0E && d.pw.phase == .run
  | _ => d.is F.BIST_RUNTIME_EN

/-- Whether a job did not complete its normal slice in the tempo that ends (R42). The pawn chain's is its airtime budget: `pawnShort`
says that at the close some group still had a frame and the budget for it (R41, R503). A tempo that began with no telemetry record queued is never deferred (R369). -/
def Dev.jobShort (d : Dev) (rank : Nat) (pawnShort : Bool) : Bool :=
  (d.bg.overrun == some rank && (rank != 3 || decide (0 < d.bgDue 3 0))) ||
    (if rank = 3 then decide (d.bgDid 3 0 < d.bgDue 3 0) && !d.tab.telemQueue.isEmpty
     else if rank = 4 then pawnShort
     else (List.range 4).any (fun u => decide (d.bgDid rank u < d.bgDue rank u)))

/-- The count of a job at the boundary (R43): a deferred tempo adds one, a completed slice or the end of a guaranteed tempo
sets it to 0. The Bool says that its guaranteed slice begins. -/
def Dev.jobCount (d : Dev) (rank : Nat) (pawnShort : Bool) : Dev × Bool :=
  let run := d.get (F.SYS_BG_STAT_RUN rank)
  let d0 := d.put (F.SYS_BG_STAT_GUARANTEED rank) 0
  if !d.jobEnabled rank then (d0.put (F.SYS_BG_STAT_RUN rank) 0, false)
  else if run = 16 then (d0.put (F.SYS_BG_STAT_RUN rank) 0, false)
  else if d.jobShort rank pawnShort then
    let d1 := (d0.put (F.SYS_BG_STAT_RUN rank) (run + 1)).bump (F.SYS_BG_STAT_DEFER_TOTAL rank) 1
    if run + 1 = 16 then ((d1.put (F.SYS_BG_STAT_GUARANTEED rank) 1).evt (ev 0 2) 1, true) else (d1, false)
  else (d0.put (F.SYS_BG_STAT_RUN rank) 0, false)

/-- The normal slices of the tempo that begins (R41). Calibration has one where its chain is in CAL with steps left, so a tempo in
which a chosen chain can run no step is not deferred (DESIGN CHOICE, log entry 118). The sweeper's accumulator stands still while its
job is disabled (DESIGN CHOICE, log entry 104). -/
def Dev.bgAssign (d : Dev) : Dev :=
  let en := d.is F.TMEM_SCRUB_CFG_EN
  let (n, acc) := accAdd d.bg.scrubAcc (if en then 16777216 else 6291456) (d.get F.TMEM_SCRUB_CFG_PERIOD)
  let sw := (List.range 4).map (fun g =>
    if d.enabled (0x24 + g) && d.is (F.FWD_CFG_SWEEP_EN g) then
      accAdd (d.bg.sweepAcc.getD g (0, 1)) 262144 (d.get (F.FWD_SWEEP_TEMPOS g))
    else (0, d.bg.sweepAcc.getD g (0, 1)))
  let cal := (List.range 4).map (fun g =>
    b2n (d.calRuns g && d.calChain g != 0xF && decide (0 < d.get (F.CAL_GSTAT_STEPS_LEFT g)) && d.chainState g (d.calChain g) == 5))
  { d with bg := { d.bg with
      scrubAcc := acc, sweepAcc := sw.map (fun x => x.2)
      due := [cal, [n], sw.map (fun x => x.1), [if d.jobEnabled 3 then min 64 d.tab.telemQueue.length else 0], [0, 0, 0, 0], [b2n (d.jobEnabled 5)]]
      did := Background.reset.did } }

/-- Step 6 of R39 at the boundary: deferral counts, guaranteed slices, and with an overrun the deferral of the lowest-ranked
enabled job that holds none (R43, R48). -/
def Dev.bgBoundary (d : Dev) (overrun pawnShort : Bool) : Dev :=
  let (d1, g) := (List.range 6).foldl
    (fun (x : Dev × List Nat) r => let y := x.1.jobCount r pawnShort; (y.1, if y.2 then x.2 ++ [r] else x.2)) (d, [])
  let victim := if overrun then ((List.range 6).filter (fun r => d1.jobEnabled r && !g.contains r)).getLast? else none
  let d2 := if overrun then d1.put F.SYS_OVERRUN_LAST_DEFERRED (victim.getD 0xF) else d1
  { d2 with bg := { d2.bg with granted := g, overrun := victim } }.bgAssign

end Sys2Proof.Machine
end

