-- ==== Sys2Proof/Machine/Image.lean ====
section
/-! DEFINITION. Gyver images and staging slots: the image check, the newest valid image and the start-time copy (R486 to R488,
R492). -/

namespace Sys2Proof.Machine

/-- Whether a is greater than b, modulo 2^32 over half the range (R97, R488). -/
def newer32 (a b : Nat) : Bool :=
  let x := (a + 2 ^ 32 - b % 2 ^ 32) % 2 ^ 32
  decide (0 < x) && decide (x < 2 ^ 31)

/-- Bytes i to i + n − 1, and whether they are all zero. -/
def slice (b : List Byte) (i n : Nat) : List Byte := (b.drop i).take n
def zeros (b : List Byte) (i n : Nat) : Bool := (slice b i n).all (fun x => x == 0)

/-! ### The header (R486) -/

def imgEpoch (b : List Byte) : Nat := beField b 9 1
def imgHandover (b : List Byte) : Nat := beField b 10 1
def imgOwnerSig (b : List Byte) : Bool := bit (beField b 11 1) 0
def imgVersion (b : List Byte) : Nat := beField b 12 4
def imgBodyLen (b : List Byte) : Nat := beField b 16 4
def imgEntry (b : List Byte) : Nat := beField b 20 4

/-- The fields that R486 fixes, its zero fields, its ranges and the image's length. -/
def imgFormatOk (b : List Byte) : Bool :=
  let n := imgBodyLen b
  beField b 0 4 == 0x47595652 && beField b 4 2 == 0x0001 && beField b 6 2 == 0x6032 && beField b 8 1 == 0xB0
    && decide (beField b 11 1 < 2) && zeros b 24 8 && zeros b 64 64 && zeros b 208 48
    && (imgOwnerSig b || zeros b 192 16)
    && decide (1024 ≤ n) && decide (n ≤ 2621440) && n % 16 == 0
    && imgEntry b % 4 == 0 && decide (imgEntry b < n) && b.length == 256 + n

/-- The owner's countersignature, where the image carries one or the owner requires one (R487). -/
def Dev.imgOwnerOk (d : Dev) (b : List Byte) : Bool :=
  !(imgOwnerSig b || d.fw.reqOwner) ||
    match d.ks.owner with
    | some k => imgOwnerSig b && aesCmac k (b.take 192) == slice b 192 16
    | none => false

/-- The image check (R487): 0, or the code of R24's choice among the tests that fail. -/
def Dev.imageCode (d : Dev) (b : List Byte) : Nat :=
  oneCode
    [(!ecdsaOk Config.vendorKey (sha256 (b.take 128)) (slice b 128 32) (slice b 160 32), 0x08),
     (!d.imgOwnerOk b, 0x08),
     (!imgFormatOk b, 0x13),
     (sha256 (b.drop 256) != slice b 32 32, 0x13),
     (decide (imgEpoch b < d.fw.epoch), 0x13)]

/-! ### Staging slots (R488) -/

def Dev.fwSlot (d : Dev) (n : Nat) : FwSlot := d.fw.slots.getD n FwSlot.empty
def Dev.setFwSlot (d : Dev) (n : Nat) (x : FwSlot) : Dev := { d with fw := { d.fw with slots := setAt d.fw.slots n x } }

/-- The newest valid image: the VALID slot whose STAGE_SEQ is greater. -/
def Dev.newestSlot (d : Dev) : Option Nat :=
  let v0 := (d.fwSlot 0).state == 2
  let v1 := (d.fwSlot 1).state == 2
  if v0 && v1 then some (if newer32 (d.fwSlot 1).seq (d.fwSlot 0).seq then 1 else 0)
  else if v0 then some 0 else if v1 then some 1 else none

/-- UPD.LAST takes an action, its code and its slot (R506). -/
def Dev.updLast (d : Dev) (action code slot : Nat) : Dev :=
  ((d.put F.UPD_LAST_ACTION action).put F.UPD_LAST_CODE code).put F.UPD_LAST_SLOT slot

/-- A refusal of R491 or a failed image check is counted and raised. -/
def Dev.updRefused (d : Dev) : Dev := (d.bump F.UPD_COUNT_REFUSED 1).raise 0x0C 1

/-- A body is copied into the code region of a lane's SRAM (R492, R493). -/
def LaneMem.loaded (m : LaneMem) (body : List Byte) : LaneMem := { m with code := body ++ m.code.drop body.length }

/-- The Copy phase writes the body of slot n into the SRAM of lanes A to D and zero into their data regions (R492). -/
def Dev.lanesLoaded (d : Dev) (n : Nat) : Dev :=
  { d with ln := { d.ln with mem := d.ln.mem.map (fun (m : LaneMem) => { m.loaded ((d.fwSlot n).bytes.drop 256) with data := [] }) } }

/-- The lanes of a list start at the ENTRY of slot n's image (R492, R493). -/
def Dev.lanesStart (d : Dev) (l : List Nat) (n : Nat) : Dev :=
  let e := imgEntry (d.fwSlot n).bytes
  { d with ln := { d.ln with mem := d.ln.mem.zipIdx.map (fun (x : LaneMem × Nat) => if l.contains x.2 then { x.1 with start := e } else x.1) } }

/-- The slot's image goes into service: RUN_SLOT names it, and the recorded epoch is raised to the image's (R492). -/
def Dev.runImage (d : Dev) (n : Nat) : Dev :=
  { d with fw := { d.fw with runSlot := n, epoch := max d.fw.epoch (d.fwSlot n).epoch } }

/-- The Copy phase: the newest valid image that passes the check, or none (R492); a failed check is counted (R491). Each slot is tried at most
once. -/
def Dev.copyImage (d : Dev) : Nat → Dev × Bool
  | 0 => (d, false)
  | k + 1 =>
    match d.newestSlot with
    | none => (d, false)
    | some n =>
      let code := d.imageCode (d.fwSlot n).bytes
      if code = 0 then ((d.runImage n).lanesLoaded n, true)
      else ((d.setFwSlot n { d.fwSlot n with state := 3 }).updLast 3 code n).updRefused.copyImage k

end Sys2Proof.Machine
end

