-- ==== Sys2Proof/Machine/Resign.lean ====
section
/-! DEFINITION. Resignation: the record sealed at the trigger, the cut, and the save (R81, R94 to R100). -/

namespace Sys2Proof.Machine

/-- A full slow tick in units of the always-on count (R38: 390,625 / 32 core cycles). -/
def aonTick : Nat := 390625

/-- The 48-bit always-on count (R80, R103). -/
def Dev.aonCount (d : Dev) : Nat := d.pw.aonAcc / aonTick % 2 ^ 48

/-! ### The record's bytes (R10, R11, R97, R99) -/

/-- Bytes 0x0000 to 0x605F of a record. -/
def Rec.body (r : Rec) : List Byte :=
  beBytes 4 0x51524553 ++ beBytes 2 0x0001 ++ beBytes 1 r.reason ++ beBytes 1 r.flags ++ beBytes 4 r.seq ++ beBytes 4 0x6064
    ++ beBytes 8 r.systime ++ beBytes 6 r.aon ++ beBytes 5 (16 * r.tempo) ++ beBytes 4 r.minutePos ++ List.replicate 25 0
    ++ (List.range 8).flatMap (fun n => beBytes 2 (r.rings.getD n (0, 0)).1 ++ beBytes 2 (r.rings.getD n (0, 0)).2)
    ++ (List.range 64).flatMap (fun k => beBytes 2 (r.events.getD k (0x3BF, 0)).1 ++ beBytes 6 (r.events.getD k (0x3BF, 0)).2)
    ++ (List.range 32).flatMap (fun s => (List.range 60).flatMap (fun m => beBytes 4 ((r.duty.getD s []).getD (59 - m) 0)))
    ++ (List.range 4096).flatMap (fun k => beBytes 4 (((r.fcnt.find? (fun x => x.1 == k)).map (fun x => x.2)).getD 0xFFFFFFFF))

/-- The whole record, with its CRC. -/
def Rec.bytes (r : Rec) : List Byte := r.body ++ beBytes 4 (crc32 r.body)

/-- The next k fields of n bytes each. -/
def beFields (n : Nat) : Nat → List Byte → List Nat
  | 0, _ => []
  | k + 1, b => beField (b.take n) 0 n :: beFields n k (b.drop n)

/-- The record that a slot holds, where it is valid: MAGIC, FORMAT, LENGTH and CRC-32 match (R97). -/
def Rec.read (b : List Byte) : Option Rec :=
  if beField b 0 4 = 0x51524553 ∧ beField b 4 2 = 0x0001 ∧ beField b 12 4 = 0x6064 ∧ b.length = 0x6064
      ∧ beFields 4 1 (b.drop 0x6060) = [crc32 (b.take 0x6060)] then
    let rings := beFields 2 16 (b.drop 0x40)
    let bins := beFields 4 1920 (b.drop 0x260)
    some {
      reason := beField b 6 1, flags := beField b 7 1, seq := beField b 8 4, systime := beField b 0x10 8, aon := beField b 0x18 6
      tempo := beField b 0x1E 5 / 16, minutePos := beField b 0x23 4
      rings := (List.range 8).map (fun n => (rings.getD (2 * n) 0, rings.getD (2 * n + 1) 0))
      events := (beFields 8 64 (b.drop 0x60)).map (fun x => (x / 2 ^ 48, x % 2 ^ 48))
      duty := (List.range 32).map (fun s => ((bins.drop (60 * s)).take 60).reverse)
      fcnt := (beFields 4 4096 (b.drop 0x2060)).zipIdx.filterMap (fun x => if x.1 = 0xFFFFFFFF then none else some (x.2, x.1)) }
  else none

def Dev.recAt (d : Dev) (n : Nat) : Option Rec := Rec.read (d.pw.records.getD n [])

/-- The slot of the newest valid record (R97). -/
def Dev.newestRec (d : Dev) : Option Nat :=
  match d.recAt 0, d.recAt 1 with
  | some a, some b => some (if newer32 b.seq a.seq then 1 else 0)
  | some _, none => some 0
  | none, some _ => some 1
  | none, none => none

/-- What the resignation buffer holds beside the times latched at the cut: as the live state has it, or in the PROMOTE pause as the held
outputs left it at boundary P (R94, R98; log entry 107). -/
def Dev.bufferNow (d : Dev) : Rec :=
  { reason := 0, flags := 0, seq := 0, systime := 0, aon := 0, tempo := 0, minutePos := 0
    rings := (List.range 8).map (fun n => (d.lastHseq n, d.lastDseq n)), events := d.pw.evcBuf, duty := d.ra.duty
    fcnt := d.ks.slots.map (fun k => (k.slot, k.next)) }

def Dev.buffer (d : Dev) : Rec := ((d.fw.promote.bind (fun (p : Promote) => p.held)).getD d.bufferNow)

/-- The duty bins of a slot with 250 µs for each port of it that transmits at the cut (R96). -/
def Dev.sealedBins (d : Dev) (s : Nat) : List Nat :=
  let b := d.buffer.duty.getD s []
  let n := (d.ra.txs.filter (fun t => t.onPort && t.vslot == s)).length
  setAt b 0 (b.getD 0 0 + 250 * n)

/-- The record of a resignation, sealed at the trigger (R94, R96, R99). -/
def Dev.sealRecord (d : Dev) (reason : Nat) : Rec :=
  { reason := reason
    flags := b2n (d.is F.TIM_SYSTIME_STAT_SYNC) + 2 * b2n (d.pw.phase == .sleep) + 4 * b2n (!d.pw.vinPresent)
    seq := match d.newestRec.bind (fun n => d.recAt n) with
      | some r => (r.seq + 1) % 2 ^ 32
      | none => 1
    systime := d.sysNs, aon := d.aonCount, tempo := d.sysTempo, minutePos := d.tempo % 240000
    rings := d.buffer.rings
    events := d.buffer.events
    duty := (List.range 32).map (fun s => d.sealedBins s)
    fcnt := d.buffer.fcnt }

/-- What is left when everything outside the save domain is cut (R96), or when a power-up is abandoned (R105): what MRAM, OTP and
the always-on domain keep, the levels at the balls, and what has left the machine. -/
def Dev.cut (d : Dev) (ph : Phase) : Dev :=
  let z := Dev.reset
  { z with
    regs := [], cfg := d.cfg, pins := { d.pins with motionT := 0 }, freeCtr := d.freeCtr, out := d.out
    pw := { z.pw with phase := ph, pwrGood := false, vout3v3 := false, vinPresent := d.pw.vinPresent, vbakOk := d.pw.vbakOk,
                      aonAcc := d.pw.aonAcc, aonValid := d.pw.aonValid, aonLost := !d.pw.aonValid, bankT := none, saving := d.pw.saving,
                      records := d.pw.records, saveLane := d.pw.saveLane,
                      zeroised := d.pw.zeroised, eraseMark := d.pw.eraseMark, nextCause := d.pw.nextCause, selfItem := 0 }
    cal := z.cal.map (fun (c : CalGroup) => { c with temps := List.replicate 9 none })
    ln := { z.ln with mem := List.replicate 4 { code := [], data := [], start := 0 } }
    bg := { z.bg with scrubAcc := (0, 1), due := z.bg.did }
    fw := { z.fw with slots := d.fw.slots, runSlot := d.fw.runSlot, epoch := d.fw.epoch, reqOwner := d.fw.reqOwner,
                      vehicle := d.fw.vehicle, failReport := d.fw.failReport, safeUs := 0 }
    ks := { d.ks with slots := [], gens := [] }
    ra := { z.ra with vault := d.ra.vault.cut }
    bh := { z.bh with nextUid := d.bh.nextUid, nextPkt := d.bh.nextPkt } }

/-- The always-on domain is lost once VIN is absent and VBAK does not feed it (R80, R83, R86). -/
def Dev.aonFed (d : Dev) : Dev :=
  if d.pw.vinPresent || d.pw.vbakOk then d else { d with pw := { d.pw with aonValid := false, aonAcc := 0 } }

/-- The live lane with the highest claim latched for this tempo (R178, R193). -/
def Dev.saveLane (d : Dev) : Option Nat :=
  ((List.range 4).filter (fun i => bits (d.rd R.LANE_ROLES) (4 * i + 3) (4 * i) == 0)).foldl (fun b i => match b with
    | none => some i
    | some j => if d.rd (R.LANE_CLAIM j) < d.rd (R.LANE_CLAIM i) then some i else some j) none

/-- A trigger of R95 after release: the save lane seals the record, and everything outside the save domain is cut. An erasure under way
leaves its mark, and ZEROISED at 0 (R125); PWR_GOOD falls on a sag only (R82). -/
def Dev.resign (d : Dev) (reason : Nat) : Dev :=
  if d.released then
    let r := d.sealRecord reason
    let d1 := d.cut .resigning
    { d1 with pw := { d1.pw with saving := some r.bytes, saveLane := d.saveLane, nextCause := 1,
                                 eraseMark := d.pw.eraseMark || d.pw.erasing, zeroised := d.pw.zeroised && !d.pw.erasing,
                                 pwrGood := d.pw.pwrGood && reason != 0x01 } }
  else d

/-- A power-up is abandoned, and writes nothing (R95, R105). The next one reports it, whatever came before it (DESIGN CHOICE,
log entry 108). -/
def Dev.abandonUp (d : Dev) (ph : Phase) : Dev :=
  let d1 := d.cut ph
  { d1 with pw := { d1.pw with nextCause := 2 } }

/-- A thermal or clock fault abandons a power-up and restarts it: the rails that are up stay up, with VOUT_3V3 and PWR_GOOD
(R70, R82, R105). -/
def Dev.restartUp (d : Dev) : Dev :=
  let d1 := d.abandonUp .rails
  { d1 with pw := { d1.pw with vout3v3 := d.pw.vout3v3, pwrGood := d.pw.pwrGood } }.put F.PWR_FLAGS_BANK_READY (b2n d.pw.pwrGood)

/-- STANDBY, or OFF where nothing feeds the always-on domain (R86). -/
def Dev.powerOff (d : Dev) : Dev :=
  let d1 := d.aonFed
  { d1 with pw := { d1.pw with phase := if d.pw.vinPresent || d.pw.vbakOk then .standby else .off, pwrGood := false } }

/-- The reset hold, with the rails up (R70, R106). -/
def Dev.resetHold (d : Dev) : Dev := { d with pw := { d.pw with phase := .resetHold, vout3v3 := true } }

/-- RESET_N low ends a power-up or SAFE in the reset hold, whose rails stay up (R82, R105, R106, R118). -/
def Dev.holdKept (d : Dev) (good : Bool) : Dev :=
  let d1 := d.resetHold
  { d1 with pw := { d1.pw with pwrGood := good } }

/-- Bytes with some of them changed: where a write to MRAM left them wrong. -/
def poke (b : List Byte) (flaws : List (Nat × Byte)) : List Byte := flaws.foldl (fun l x => setAt l x.1 x.2) b

/-- The save writes the slot that does not hold the newest valid record, reads it back, and writes once more on a mismatch; cut short,
its first bytes alone stand in the slot (R96, R97). -/
def Dev.saveEnd (d : Dev) (written : Nat) (flaws again : List (Nat × Byte)) : Dev :=
  match d.pw.saving with
  | none => d
  | some b =>
    let slot := if d.newestRec = some 0 then 1 else 0
    let w := poke b flaws
    let final := if written < b.length then w.take written ++ (d.pw.records.getD slot []).drop written
                 else if w = b then w else poke b again
    { d with pw := { d.pw with records := setAt d.pw.records slot final, saving := none, saveLane := none } }

/-! ### Meanings -/

/-- SAG: VIN falls below 9.5 V; after release a resignation begins, and a power-up is abandoned (R81, R105). -/
def execSag (s : State) : Host.Outcome State Fault Refusal :=
  runs s (fun d =>
    let d1 := { d with pw := { d.pw with vinPresent := false } }
    if d1.released then (d1.resign 0x01).aonFed
    else if d1.pw.phase = .resigning then { d1 with pw := { d1.pw with pwrGood := false } }.aonFed
    else if d1.poweringUp then (d1.abandonUp .standby).powerOff
    else if d1.pw.phase = .safe ∨ d1.pw.phase = .resetHold then (d1.cut .standby).powerOff
    else d1.powerOff)

/-- SAVE_COMPLETE: the save ends, with the bytes that each of its writes left wrong, or cut short after some bytes; with VIN present or
not, the device goes to STANDBY, OFF or the reset hold (R86, R96). -/
def execSaveComplete (w : SaveWrites) (vin : Bool) (s : State) : Host.Outcome State Fault Refusal :=
  runs s (fun d =>
    if d.pw.phase = .resigning then
      let d1 := { d.saveEnd w.written w.flaws w.again with pw := { (d.saveEnd w.written w.flaws w.again).pw with vinPresent := vin } }
      if !d1.pins.resetN && vin then d1.resetHold else d1.powerOff
    else d)

/-- THERMAL_SHUTDOWN: the junction reaches 125 °C (R95, R105). -/
def execThermalShutdown (s : State) : Host.Outcome State Fault Refusal :=
  runs s (fun d => if d.released then d.resign 0x04 else if d.poweringUp then d.restartUp else d)

/-- The reference has been started: in RUN and IDLE, and in SLEEP once a wake has begun (R84, R86). -/
def Dev.refStarted (d : Dev) : Bool := d.awake || (d.pw.phase == .sleep && d.pw.trans == .waking)

/-- REF_STOPPED: no reference edge for 1 µs (R90); the reference is off in SLEEP until a wake starts it (R86). -/
def execRefStopped (s : State) : Host.Outcome State Fault Refusal :=
  runs s (fun d => if d.refStarted then d.resign 0x05 else if d.poweringUp then d.restartUp else d)

/-- PLL_UNLOCK: the lock detector reports an unlock (R90). -/
def execPllUnlock (s : State) : Host.Outcome State Fault Refusal :=
  runs s (fun d => if d.refStarted then d.resign 0x05 else if d.poweringUp then d.restartUp else d)

/-- RESET_N_LOW: RESET_N is held low past its deglitch (R95, R105, R106). -/
def execResetNLow (s : State) : Host.Outcome State Fault Refusal :=
  runs s (fun d =>
    let d1 := { d with pins := { d.pins with resetN := false } }
    if d1.released then d1.resign 0x02
    else if d1.poweringUp then (d1.abandonUp .resetHold).holdKept d1.pw.pwrGood
    else if d1.pw.phase = .safe then (d1.cut .resetHold).holdKept d1.pw.pwrGood
    else d1)

end Sys2Proof.Machine
end

