-- ==== Sys2Proof/Machine/Power.lean ====
section
/-! DEFINITION. Supplies, the power states RUN, IDLE and SLEEP and their transitions, wake sources, clock faults, the hold-up
bank, zeroisation and the runtime self-test (R80 to R93, R120, R124, R125, R127). -/

namespace Sys2Proof.Machine

def Dev.setPhase (d : Dev) (p : Phase) : Dev := { d with pw := { d.pw with phase := p } }
def Dev.setTrans (d : Dev) (t : Trans) : Dev := { d with pw := { d.pw with trans := t } }

/-- PWR.MODE.CURRENT (R103). -/
def Dev.current (d : Dev) : Nat := match d.pw.phase with
  | .idle => 1
  | .sleep => 2
  | _ => 0

/-- The supplies are watched and their flags held: from the start of a power-up to a cut. -/
def Dev.watched (d : Dev) : Bool := d.released || d.poweringUp || d.pw.phase == .safe

/-- A flag of PWR.FLAGS rises, and sets its bit of PWR.IRQ_RAW on that edge, if it has one (R103). -/
def Dev.flagUp (d : Dev) (f : Fld) (irq : Option Nat) : Dev :=
  if !d.watched || d.is f then d
  else match irq with
    | some b => (d.put f 1).raise 0x01 b
    | none => d.put f 1

def Dev.flagDown (d : Dev) (f : Fld) : Dev := if d.watched then d.put f 0 else d

/-! ### Chains (R86, R197) -/

/-- Every chain that carries the duty of a port in service takes a state, unless it calibrates; its locks are given. -/
def Dev.serviceChains (d : Dev) (state : Nat) (locked : Bool) : Dev :=
  (List.range 32).foldl (fun (x : Dev) p =>
    let g := portGroup p; let c := x.chainOf p
    if x.inService p && x.chainState g c != 5 then ((x.setChainState g c state).setTxLock g c locked).setRxLock g c locked
    else x) d

/-- The spares that carry no duty and are not calibrating, or being prepared, follow the device's state (R240). -/
def Dev.idleSpares (d : Dev) : Dev :=
  (List.range 4).foldl (fun (x : Dev) g =>
    if x.get (F.RFG_CHAIN_MAP_SECTOR g) = 0xF ∧ [0, 5, 8].contains (x.calState g) = true ∧ x.calChain g ≠ 8 then x.spareIdle g
    else x) d

/-- Every chain is in SLEEP. -/
def Dev.sleepChains (d : Dev) : Dev :=
  (List.range 4).foldl (fun (x : Dev) g => (x.wr (R.RFG_CHAIN_STATE g) 0).wr (R.RFG_LOCK g) 0) d

/-! ### RUN and IDLE (R86) -/

/-- A frame at steps 4 to 7 that is not yet on air. -/
def stopsForIdle (t : Tx) : Bool := preAir t.stage || t.stage == .repeating

/-- RUN to IDLE begins: frames at steps 4 to 7 that are not on air end, and no grant follows. -/
def Dev.beginIdle (d : Dev) : Dev :=
  let d1 := d.setTrans .toIdle
  (d1.ra.txs.filter (fun t => stopsForIdle t)).foldl (fun (x : Dev) t => x.txFinish t 0x03 5 false 0) d1

/-- IDLE to RUN begins: the chains of ports in service go to SYNTH. -/
def Dev.beginRun (d : Dev) : Dev := (d.setTrans .toRun).serviceChains 2 false

/-- A request for SLEEP begins its wait for the entry condition. -/
def Dev.beginSleep (d : Dev) : Dev := { d with pw := { d.pw with trans := .toSleep, sleepAskedAt := d.tempo } }

/-- TARGET is acted on, once no transition is under way; a SLEEP request that still waits is withdrawn by another TARGET. -/
def Dev.targetAct (d : Dev) : Dev :=
  let t := d.get F.PWR_MODE_TARGET
  let d0 := if d.pw.trans = .toSleep ∧ t ≠ 2 then d.setTrans .none else d
  if d0.pw.trans ≠ .none then d0
  else match d0.pw.phase, t with
    | .run, 1 => d0.beginIdle
    | .run, 2 => d0.beginSleep
    | .idle, 0 => d0.beginRun
    | .idle, 2 => d0.beginSleep
    | _, _ => d0

/-- The device is in IDLE: its chains in STBY, its contexts released. -/
def Dev.enterIdle (d : Dev) : Dev :=
  let d1 := (d.setPhase .idle).setTrans .none
  let d2 := (d1.serviceChains 1 false).releaseCtxs (fun _ => true)
  d2.calConditions.idleSpares

/-! ### SLEEP (R86, R87) -/

/-- A transmission that holds SLEEP off: granted (also where it has gone back to its backoff), or in a transmit slot, on air
included. -/
def inSlotOrGranted (t : Tx) : Bool :=
  [TxStage.granted, .voted, .displaced, .slot, .onAir, .rampDown].contains t.stage || (t.stage == .backoff && t.counted)

/-- A PROMOTE of the service port has been accepted (R87, R484). -/
def Dev.svcPromotes (d : Dev) : Bool :=
  match d.fw.request with
  | some (type, _) => type == 6
  | none => false

/-- A staging write is under way: a staging request is being processed (R87, R484). -/
def Dev.stagingWrite (d : Dev) : Bool :=
  match d.fw.request with
  | some (type, _) => decide (2 ≤ type) && decide (type ≤ 5)
  | none => false

/-- The entry condition of SLEEP (R87). -/
def Dev.sleepReady (d : Dev) : Bool :=
  d.inflight.isEmpty && !d.ra.txs.any inSlotOrGranted && !d.stagingWrite && !d.svcPromotes && d.fw.promote.isNone
    && !d.is F.CLK_STAT_SLOW_FAULT

/-- The device goes to SLEEP through IDLE: links and module supplies go down, the reference goes off. -/
def Dev.enterSleep (d : Dev) : Dev :=
  let d1 := if d.pw.phase = .run then d.beginIdle.enterIdle else d
  let d2 := (d1.setPhase .sleep).setTrans .none
  let d3 := ((d2.linkSet 0 false false).linkSet 1 false false).sleepChains
  let off := fun (x : Dev) (n : Nat) =>
    if x.is (F.BHL_LINK_VSFP n) then (x.vsfpUpdate n).raise (0x30 + n) 1 else x
  let d4 := off (off d3 0) 1
  let d5 := (d4.pcieReset.put F.PCIE_LINK_UP 0).put F.CLK_STAT_PLL_LOCK 0
  let d6 : Dev := d5.put F.CLK_STAT_REF_OK 0
  { d6 with tm := { d6.tm with sleepCapt := [] }, pw := { d6.pw with aonSlept := 0 } }

/-- The always-on count has reached slow tick `tick` of the sleep (R84). -/
def Dev.aonTo (d : Dev) (tick : Nat) : Dev :=
  { d with pw := { d.pw with aonAcc := d.pw.aonAcc + (tick - d.pw.aonSlept) * aonTick, aonSlept := max tick d.pw.aonSlept } }

/-- A wake source fires: the reference starts, and the cause is kept (R88). -/
def Dev.wakeBy (d : Dev) (b : Nat) : Dev :=
  if d.pw.phase = .sleep ∧ bit (d.rd R.PWR_WAKE_EN) b = true then
    let d1 := if d.pw.trans = .waking then d else d.wr R.PWR_WAKE_CAUSE 0
    (d1.put ⟨R.PWR_WAKE_CAUSE, b, b⟩ 1).setTrans .waking
  else d

/-- An edge of a capture source in SLEEP, timed on the slow clock (R469); the event counters see it (R475). -/
def Dev.sleepEdge (d : Dev) (src : Nat) (rising : Bool) (tick : Nat) : Dev :=
  let d0 := d.aonTo tick
  let d1 := if src < 4 then d0.evt (ev 12 (src + if rising then 0 else 4)) 1
    else if src = 4 ∧ rising = true then d0.evt (ev 12 8) 1
    else if src = 6 then d0.evt (ev 12 9) 1 else d0
  d1.captureSlow src rising tick

/-- A GPIO edge in SLEEP is seen where its WAKE bit and its RISE or FALL bit are set (R514). -/
def Dev.gpioSleepSeen (d : Dev) (j : Nat) (rising : Bool) : Bool :=
  bit (d.rd R.GPIO_WAKE) j && bit (d.rd (if rising then R.GPIO_RISE else R.GPIO_FALL)) j

/-- A transaction on the service port is discarded (R482, R485). -/
def Dev.svcDiscard (d : Dev) : Dev := ((d.put F.SVC_STAT_FRAME_ERR 1).bump F.SVC_COUNT_ERRORS 1).raise 0x0D 1

/-- The time slept is made up: tempo, timers, SYSTIME, the always-on count, the duty bins and the timing table (R38, R314, R378,
R468, R472). -/
def Dev.makeUp (d : Dev) (ticks : Nat) : Dev :=
  let c := d.cycle + (ticks * 390625 + d.tm.frac) / 32
  let t := d.tempo + c / 100000
  let d1 := ((d.sleepMakeup ticks).dutyAge (t / 240000 - d.ra.rolledT / 240000)).aonTo ticks
  let d2 := { d1 with
    tempo := t, cycle := c % 100000
    ra := { d1.ra with rolledT := max d1.ra.rolledT (t / 240000 * 240000) } }
  if 16384 * 32768 ≤ ticks then
    let d3 := (d2.put F.DIR_TCLEAR_NEXT 0).put F.DIR_TCLEAR_ACTIVE 1
    { d3 with tab := { d3.tab with clearFrom := t + 1 } }
  else d2

/-- The device resumes in IDLE, and goes on to WAKE_TO (R86). -/
def Dev.enterAwake (d : Dev) (pllCycles : Nat) : Dev :=
  let d1 := ((d.setPhase .idle).setTrans .none).put F.PWR_MODE_TARGET (d.get F.PWR_MODE_WAKE_TO)
  let d2 := ((d1.put F.CLK_STAT_REF_OK 1).put F.CLK_STAT_PLL_LOCK 1).put F.CLK_PLL_LOCK_T_CYCLES pllCycles
  let d3 := ((d2.serviceChains 1 false).idleSpares.vsfpUpdate 0).vsfpUpdate 1
  d3.blankUpdate.targetAct

/-! ### The hold-up bank and the clocks (R90, R93) -/

/-- The bank's usable energy, µJ, and its voltage, 10 mV, as measured (R93). -/
def Dev.bankMeasured (d : Dev) (usable volt : Nat) : Dev :=
  let d1 := { (d.put F.PWR_BANK_USABLE usable).put F.PWR_BANK_VOLT volt with pw := { d.pw with bankT := some d.tempo } }
  if usable < 1350 then d1.flagUp F.PWR_FLAGS_BANK_WEAK (some 2) else d1.put F.PWR_FLAGS_BANK_WEAK 0

/-- Whether the bank is to be measured now: at this start, or 14,400,000 tempos after the last measurement, in RUN and IDLE (R93). Tempos
made up after a SLEEP count (DESIGN CHOICE, log entry 126). -/
def Dev.bankDue (d : Dev) : Bool := match d.pw.bankT with
  | none => d.poweringUp
  | some t => d.awake && decide (t + 14400000 ≤ d.tempo)

/-- Every internal rail is in regulation before release: in a power-up from its Rails phase on where the rails are up already (R106), else from
Load on; in SAFE; and in the reset hold (R82, R107). -/
def Dev.railsUp (d : Dev) : Bool :=
  (d.poweringUp && (d.pw.phase != .rails || d.pw.vout3v3)) || d.pw.phase == .safe || d.pw.phase == .resetHold

/-- A measurement that no command supplied: its values are free. -/
def Dev.bankFree (d : Dev) : Dev :=
  let x := d.draw
  x.2.bankMeasured (Config.freeNat x.1 % 65536) ((Config.freeByte x.1 0).toNat + 256 * ((Config.freeByte x.1 1).toNat % 4))

/-- THERM_WARN follows the junction temperature and its threshold (R103). -/
def Dev.thermWarn (d : Dev) : Dev :=
  if toSigned 8 (d.get F.PWR_THERM_WARN) ≤ toSigned 8 (d.get F.PWR_THERM_TJ) then d.flagUp F.PWR_FLAGS_THERM_WARN (some 4)
  else d.flagDown F.PWR_FLAGS_THERM_WARN

/-- A window of R90 ends with a deviation in parts per 10^9. -/
def Dev.refWindow (d : Dev) (ppb : Int) : Dev :=
  let d1 := d.put F.CLK_REF_DEV_PPB (ofSigned 32 ppb)
  let limit : Int := d.get F.CLK_DEV_LIMIT_PPM * 1000
  if limit < ppb ∨ ppb < -limit then
    let d2 := (((d1.put F.CLK_STAT_REF_DEV 1).put F.CLK_STAT_TX_HELD 1).bump F.CLK_FAULT_CNT_DEV 1).raise 0x02 2
    { d2 with pw := { d2.pw with goodWindows := 0 } }
  else
    let d2 : Dev := d1.put F.CLK_STAT_REF_DEV 0
    if d2.is F.CLK_STAT_TX_HELD then
      let n := d2.pw.goodWindows + 1
      if 3 ≤ n then { d2.put F.CLK_STAT_TX_HELD 0 with pw := { d2.pw with goodWindows := 0 } }.recheckBudget
      else { d2 with pw := { d2.pw with goodWindows := n } }
    else d2

/-! ### Zeroisation and self-test (R120, R124, R125) -/

/-- The whole key store, every reservation and the device key are erased (R124), and REQ_OWNER with them (R492). -/
def Dev.erased (d : Dev) : Dev :=
  { d with
    ks := { d.ks with slots := [], gens := [], copies := [], owner := none, deviceKey := none, lock := false }
    fw := { d.fw with reqOwner := false }
    pw := { d.pw with zeroised := true, eraseMark := false, erasing := false } }

/-- Item of a slice of the runtime self-test (R112, R120). -/
def runtimeItem (slice : Nat) : Nat := if slice < 2 then 0 else if slice < 6 then 1 else if slice < 22 then 2 else 3

/-- The lanes stop using serial link 16 × RF die + lane (R192). -/
def Dev.linkStop (d : Dev) (loc : Nat) : Dev :=
  let w := d.ln.linkOut.getD (loc / 16) 0 ||| BitVec.ofNat 16 (2 ^ (loc % 16))
  { d with ln := { d.ln with linkOut := setAt d.ln.linkOut (loc / 16) w } }

/-- An RF die carries its group's traffic at full rate: at most 4 of its 16 links are out of use (R192). What it carries with more is not
stated. -/
def Dev.fullRate (d : Dev) (die : Nat) : Bool :=
  decide (((List.range 16).filter (fun i => (d.ln.linkOut.getD die 0).getLsbD i)).length ≤ 4)

/-- One slice of the runtime self-test; a fault has an item code of R116 other than 0, and in item 3 it names a link by RF die × 16 + lane,
which goes out of use (R120, R192). -/
def Dev.runtimeTest (d : Dev) (fault loc : Nat) : Dev :=
  let n := d.pw.runtimeSlice
  let d1 := d.bgDo 5 0 1
  let d2 := if fault = 0 then d1
    else
      let x := ((d1.put F.BIST_RUNTIME_LAST_ITEM (runtimeItem n)).put F.BIST_RUNTIME_LAST_CODE fault).raise 0x03 0
      if runtimeItem n = 3 then x.linkStop loc else x
  if n + 1 = 54 then { d2.bump F.BIST_RUNTIME_PASSES 1 with pw := { d2.pw with runtimeSlice := 0 } }
  else { d2 with pw := { d2.pw with runtimeSlice := n + 1 } }

/-! ### Meanings -/

/-- VIN_LOW: VIN below 11.6 V for 1 s (R80). -/
def execVinLow (s : State) : Host.Outcome State Fault Refusal := runs s (fun d => d.flagUp F.PWR_FLAGS_VIN_LOW (some 0))

/-- VIN_LOW_CLEARED: VIN at or above 11.8 V for 1 s (R80). -/
def execVinLowCleared (s : State) : Host.Outcome State Fault Refusal := runs s (fun d => d.flagDown F.PWR_FLAGS_VIN_LOW)

/-- VIN_HIGH: VIN above 13.8 V for 10 ms (R80). -/
def execVinHigh (s : State) : Host.Outcome State Fault Refusal := runs s (fun d => d.flagUp F.PWR_FLAGS_VIN_HIGH (some 3))

/-- VIN_HIGH_CLEARED: VIN at or below 13.6 V for 10 ms (R80). -/
def execVinHighCleared (s : State) : Host.Outcome State Fault Refusal := runs s (fun d => d.flagDown F.PWR_FLAGS_VIN_HIGH)

/-- VBAK_LOW: VBAK below 2.7 V for 1 s (R80). -/
def execVbakLow (s : State) : Host.Outcome State Fault Refusal := runs s (fun d => d.flagUp F.PWR_FLAGS_VBAK_LOW (some 1))

/-- VBAK_LOW_CLEARED: VBAK at or above 2.8 V for 1 s (R80). -/
def execVbakLowCleared (s : State) : Host.Outcome State Fault Refusal := runs s (fun d => d.flagDown F.PWR_FLAGS_VBAK_LOW)

/-- VBAK_ABSENT: VBAK below 2.3 V; STANDBY with VIN absent falls to OFF (R80, R86). -/
def execVbakAbsent (s : State) : Host.Outcome State Fault Refusal :=
  runs s (fun d =>
    let d1 := { d with pw := { d.pw with vbakOk := false } }
    if d1.pw.phase = .standby then d1.powerOff else d1.aonFed.flagUp F.PWR_FLAGS_VBAK_ABSENT none)

/-- VBAK_ABSENT_CLEARED: VBAK at or above 2.4 V for 1 s (R80). -/
def execVbakAbsentCleared (s : State) : Host.Outcome State Fault Refusal :=
  runs s (fun d => { d with pw := { d.pw with vbakOk := true } }.flagDown F.PWR_FLAGS_VBAK_ABSENT)

/-- BANK_MEASURE: the bank's usable energy is measured, at a start and then once an hour (R93). -/
def execBankMeasure (usable : BitVec 16) (volt : BitVec 10) (s : State) : Host.Outcome State Fault Refusal :=
  runs s (fun d => if d.bankDue then d.bankMeasured usable.toNat volt.toNat else d)

/-- BANK_CHARGED: the rails are in regulation and the bank reaches 4.75 V (R82). -/
def execBankCharged (s : State) : Host.Outcome State Fault Refusal :=
  runs s (fun d =>
    if d.railsUp then { d.put F.PWR_FLAGS_BANK_READY 1 with pw := { d.pw with pwrGood := true } } else d)

/-- IDLE_ENTRY: the last transmission on air has ended, and the device is in IDLE (R86). -/
def execIdleEntry (s : State) : Host.Outcome State Fault Refusal :=
  runs s (fun d =>
    if d.pw.trans = .toIdle ∧ d.ra.txs.all (fun t => !t.onPort) = true then d.enterIdle.targetAct else d)

/-- RUN_ENTRY: the chains reach RX; reception restarts at the next boundary, and every peer counts as heard now (R86, R302). -/
def execRunEntry (s : State) : Host.Outcome State Fault Refusal :=
  runs s (fun d =>
    if d.pw.trans = .toRun then
      let d1 := ((d.setPhase .run).setTrans .none).serviceChains 3 true
      let peers := d1.ra.peers.map (fun (x : Peer) => { x with heardT := d1.tempo })
      { d1 with pw := { d1.pw with rxRestart := true }, ra := { d1.ra with peers := peers } }.calConditions.idleSpares.targetAct
    else d)

/-- SLEEP_ENTRY: the entry condition holds (R86, R87). -/
def execSleepEntry (s : State) : Host.Outcome State Fault Refusal :=
  runs s (fun d => if d.pw.trans = .toSleep ∧ d.awake = true ∧ d.sleepReady = true then d.enterSleep else d)

/-- SLEEP_REQUEST_TIMEOUT: the entry condition has not held for 400 tempos, and does not hold (R86). -/
def execSleepRequestTimeout (s : State) : Host.Outcome State Fault Refusal :=
  runs s (fun d =>
    if d.pw.trans = .toSleep ∧ d.pw.sleepAskedAt + 400 ≤ d.tempo ∧ d.sleepReady = false then
      ((d.put F.PWR_MODE_TARGET d.current).setTrans .none).reject 0x01 0x06 R.PWR_MODE (d.rd R.PWR_MODE)
    else d)

/-- WAKE: an edge in SLEEP on a source of R88 (0 GPIO, 1 CAPT_n, 2 MOTION, 3 SVC_CS_N low), at a slow tick of the sleep. -/
def execWake (src : Fin 4) (line : Fin 16) (rising : Bool) (tick : Nat) (s : State) : Host.Outcome State Fault Refusal :=
  runs s (fun d =>
    if d.pw.phase ≠ .sleep then d
    else match src with
      | 0 => if d.gpioSleepSeen line rising then ((d.aonTo tick).gpioEdge line rising).wakeBy 1 else d
      | 1 =>
        let c := line.val % 4
        let d1 := { d with pins := { d.pins with capt := if rising then d.pins.capt ||| BitVec.ofNat 4 (2 ^ c)
                                                         else d.pins.capt &&& ~~~(BitVec.ofNat 4 (2 ^ c)) } }
        (d1.sleepEdge c rising tick).wakeBy 2
      | 2 => ((d.motionEdge rising).sleepEdge 6 rising tick).wakeBy 3
      | _ => if bit (d.rd R.PWR_WAKE_EN) 4 then (d.aonTo tick).svcDiscard.wakeBy 4 else d)

/-- WAKE_TIMER_EXPIRY: the SLEEP wake timer reaches its ticks, counted from SLEEP entry (R88, R103): the always-on count stands there. A
sleep that has already lasted longer has passed that instant. -/
def execWakeTimerExpiry (s : State) : Host.Outcome State Fault Refusal :=
  runs s (fun d =>
    let n := d.getPair F.PWR_WAKE_TIMER_LO_TICKS F.PWR_WAKE_TIMER_HI_TICKS
    if n = 0 ∨ n < d.pw.aonSlept ∨ d.pw.phase ≠ .sleep then d else (d.aonTo n).wakeBy 0)

/-- WAKE_COMPLETE: the PLL locks after so many core cycles and the lanes resume, N slow ticks after they stopped; what the sleep
stopped is made up (R38, R86). -/
def execWakeComplete (ticks : Nat) (pllCycles : Fin 80001) (s : State) : Host.Outcome State Fault Refusal :=
  runs s (fun d => if d.pw.phase = .sleep ∧ d.pw.trans = .waking then (d.makeUp ticks).enterAwake pllCycles else d)

/-- REF_DEVIATION_WINDOW: a 1 s window ends with this deviation, in parts per 10^9 (R90). -/
def execRefDeviationWindow (ppb : BitVec 32) (s : State) : Host.Outcome State Fault Refusal :=
  runs s (fun d => if d.awake then d.refWindow ppb.toInt else d)

/-- SLOW_CLOCK_STOPPED: no slow edge for 100 µs, measured on the reference, which runs from Rails on (R90). SLOW_FAULT stays set until the
next power-up (DESIGN CHOICE, log entry 108). -/
def execSlowClockStopped (s : State) : Host.Outcome State Fault Refusal :=
  runs s (fun d =>
    if d.awake || d.pw.phase == .safe || (d.poweringUp && d.is F.CLK_STAT_REF_OK) then
      { (((d.put F.CLK_STAT_SLOW_FAULT 1).bump F.CLK_FAULT_CNT_SLOW 1).raise 0x02 3) with pw := { d.pw with aonValid := false } }
    else d)

/-- ZEROISE_COMPLETE: the erasure is verified, and the device resigns (R125). -/
def execZeroiseComplete (s : State) : Host.Outcome State Fault Refusal :=
  runs s (fun d =>
    if d.pw.erasing && d.released then
      let d1 := d.erased.resign 0x03
      { d1 with pw := { d1.pw with nextCause := 3 } }
    else d)

/-- RUNTIME_SELFTEST_SLICE: one slice of the runtime self-test, with what it finds (R120). -/
def execRuntimeSelftestSlice (fault : TestFault) (s : State) : Host.Outcome State Fault Refusal :=
  runs s (fun d =>
    if d.awake && d.jobEnabled 5 && decide (0 < d.bgLeft 5 0) then d.runtimeTest fault.code fault.loc else d)

/-- OPENING_END: the running tempo count has reached 4,000 (R127). -/
def execOpeningEnd (s : State) : Host.Outcome State Fault Refusal :=
  runs s (fun d =>
    if d.awake ∧ 4000 ≤ d.tempo ∧ d.pw.openEnded = false then { d.raise 0x00 1 with pw := { d.pw with openEnded := true } } else d)

end Sys2Proof.Machine
end

