-- ==== Sys2Proof/Machine/Staging.lean ====
section
/-! DEFINITION. Staging words of the listen tables, the PAN descriptors and the filter and mask sets: what loads them from the
entries in force (R270, R288, R289, R328). -/

namespace Sys2Proof.Machine

/-- A register's staging words loaded from the words in force. -/
def Dev.wrAll (d : Dev) (l : List (Nat × Nat)) : Dev := l.foldl (fun (x : Dev) (kv : Nat × Nat) => x.wr kv.1 kv.2) d

/-- RXP.LDATA from the listen entry that LSEL names (R270). -/
def Dev.loadListen (d : Dev) : Dev :=
  let g := d.get F.RXP_LSEL_GROUP
  let i := d.get F.RXP_LSEL_ENTRY
  d.wrAll ((List.range 7).map (fun k => (R.RXP_LDATA k, d.leWord g i k)))

/-- MAC_g.PAN_DATA from the descriptor that PAN_SEL names (R328). -/
def Dev.loadPan (d : Dev) (g : Nat) : Dev :=
  let p := d.get (F.MAC_PAN_SEL_PAN g)
  d.wrAll ((List.range 9).map (fun k => (R.MAC_PAN_DATA g k, d.panWord p k)))

/-- KIND, GROUP and SET of SET_SEL. -/
def Dev.setSel (d : Dev) : Nat × Nat × Nat := (d.get F.TXP_SET_SEL_KIND, d.get F.TXP_SET_SEL_GROUP, d.get F.TXP_SET_SEL_SET)

/-- The staging copy from the set in force (R288). -/
def Dev.loadSet (d : Dev) : Dev :=
  let (k, g, n) := d.setSel
  { d with ra := { d.ra with staging := (List.range (setLen k)).map (fun i => d.rd (setKey k g n i)) } }

/-- The staged word at INDEX. -/
def Dev.setWord (d : Dev) : Nat := d.ra.staging.getD (d.get F.TXP_SET_SEL_INDEX) 0

/-- INDEX advances after an access of SET_DATA while AUTO_INC is 1, wrapping within the set (R289). -/
def Dev.setAdvance (d : Dev) : Dev :=
  if d.is F.TXP_SET_SEL_AUTO_INC then
    d.put F.TXP_SET_SEL_INDEX ((d.get F.TXP_SET_SEL_INDEX + 1) % setLen (d.get F.TXP_SET_SEL_KIND))
  else d

/-- Every staging copy as it stands after a load of the tables. -/
def Dev.loadStaging (d : Dev) : Dev := (List.range 4).foldl (fun (x : Dev) g => x.loadPan g) d.loadListen.loadSet

end Sys2Proof.Machine
end

