-- ==== Sys2Proof/Machine/Views.lean ====
section
/-! DEFINITION. What a register shows: the entry that a window selects, and the fields made from state that no register stores
(the tables of spec/ that each definition names). -/

namespace Sys2Proof.Machine

/-! ### Common header (R135, R136, R428) -/

/-- BLOCK of PAGE_ID: the first page of the page's block. -/
def blockOf (p : Nat) : Nat :=
  if 0x10 ≤ p ∧ p ≤ 0x13 then 0x10
  else if 0x18 ≤ p ∧ p ≤ 0x1B then 0x18
  else if 0x24 ≤ p ∧ p ≤ 0x27 then 0x24
  else if 0x28 ≤ p ∧ p ≤ 0x2F then 0x28
  else if 0x30 ≤ p ∧ p ≤ 0x31 then 0x30
  else p

/-- The header register of a page at an offset up to 0x028. -/
def Dev.header (d : Dev) (p off : Nat) : Nat :=
  match off with
  | 0x000 => blockOf p * 65536 + (p - blockOf p) * 256 + p
  | 0x004 => 0x0100
  | 0x008 => b2n (d.enabled p) + 4 * b2n (d.is (H.freeze p))
  | 0x00C => b2n (d.enabled p) + 2 * b2n (d.resetting.contains p) + 4 * b2n (d.is (H.freeze p))
  | 0x010 => d.rd (H.irqRaw p)
  | 0x014 => d.rd (H.irqMask p)
  | 0x018 => d.pend p
  | _ => d.rd (p * 0x1000 + off)

/-! ### Windows -/

/-- Flow, port-class and egress queue that the windows of QSCH show (R429 to R431). -/
def Dev.selFlow (d : Dev) : Nat := d.get F.QFLOW_SEL_FLOW
def Dev.selPc (d : Dev) : Nat := d.get F.QPCLS_SEL_PCLASS
def Dev.selEgr (d : Dev) : Nat := 64 * d.get F.QEGR_SEL_PORT + d.get F.QEGR_SEL_QUEUE

/-- The storage key of the register at a host address: the entry its window selects, or the address itself. -/
def Dev.shownKey (d : Dev) (a : Nat) : Nat :=
  let p := a / 0x1000
  let off := a % 0x1000
  let entry (i : Nat) : Nat := a + 2 ^ 20 * (i + 1)
  match p with
  | 0x0B => if 0x080 ≤ off ∧ off < 0x0C0 then entry (d.get F.VAULT_DRAFT_SEL_SLOT) else a
  | 0x10 | 0x11 | 0x12 | 0x13 =>
    if off = 0x05C then entry (64 * d.get (F.RFG_PT_SEL_SECTOR (p - 0x10)) + d.get (F.RFG_PT_SEL_INDEX (p - 0x10))) else a
  | 0x16 => if off = 0x044 then profKey (d.get F.TXP_PROF_SEL_GROUP) (d.get F.TXP_PROF_SEL_PHY) else a
  | 0x29 => if 0x044 ≤ off ∧ off ≤ 0x078 then entry d.selFlow else a
  | 0x2A => if 0x044 ≤ off ∧ off ≤ 0x068 then entry d.selPc else a
  | 0x2B => if off = 0x06C ∨ off = 0x070 then entry (64 * d.get F.QEGR_SEL_PORT)
            else if 0x044 ≤ off ∧ off ≤ 0x074 then entry d.selEgr else a
  | 0x33 => if off = 0x048 ∨ off = 0x04C then entry (d.get F.LOWPAN_PFX_SEL_PAN) else a
  | _ => a

/-! ### Fields made from other state -/

/-- Bit i of a number for each i below n for which f holds. -/
def bitsOf (n : Nat) (f : Nat → Bool) : Nat := ((List.range n).map (fun i => b2n (f i) * 2 ^ i)).sum

/-- The IRQ summary registers (R164, R169). -/
def Dev.srcBits (d : Dev) (first : Nat) : Nat := bitsOf 32 (fun i => d.asserted (first + i))
def Dev.pendBits (d : Dev) (first : Nat) : Nat := bitsOf 32 (fun i => d.srcPending (first + i))

/-- GPIO.IN: outputs drive while the page is enabled in RUN or IDLE; an open drain releases its ball for a 1 (R513, R514). -/
def Dev.gpioIn (d : Dev) : Nat :=
  bitsOf 16 (fun j =>
    if d.awake && d.enabled 0x09 && bit (d.rd R.GPIO_DIR) j then
      (if bit (d.rd R.GPIO_OD) j && bit (d.rd R.GPIO_OUT) j then d.pins.gpio.getLsbD j else bit (d.rd R.GPIO_OUT) j)
    else d.pins.gpio.getLsbD j)

/-- UPD.STAT (R488 to R494). -/
def Dev.updStat (d : Dev) : Nat :=
  d.fw.epoch % 256 * 256 + 64 * b2n (d.is F.UPD_STAT_PAUSE) + 32 * b2n d.fw.session.isSome + 16 * b2n (d.is F.UPD_STAT_MOVING)
    + 8 * b2n d.fw.vehicle + 4 * b2n d.fw.reqOwner + d.fw.runSlot % 2

/-- UPD.SLOT_INFO_n (R488). -/
def Dev.slotInfo (d : Dev) (n : Nat) : Nat :=
  let x := d.fwSlot n
  x.state * 2 ^ 28 + x.epoch % 256 * 2 ^ 16 + x.handover % 256 * 2 ^ 8

/-- RFG_g.SLOT_STAT (R221). -/
def Dev.slotStat (d : Dev) (g : Nat) : Nat :=
  bitsOf 8 (fun s => (d.slotTx (8 * g + s)).isSome)
    + 256 * bitsOf 8 (fun s => d.ra.txs.any (fun t => t.port == 8 * g + s && t.stage == .slot && !d.tunedFor t))
    + 65536 * bitsOf 8 (fun s => (d.airTx (8 * g + s)).isSome)

/-- Sentries that the listen table of group g makes on sector s (R247). -/
def Dev.sentries (d : Dev) (g s : Nat) : Nat :=
  ((List.range 16).map (fun i => if d.leEn g i && bit (d.leWord g i 0) (16 + s) then d.leCount g i else 0)).sum

/-- RXP.LUSE (R270). -/
def Dev.lUse (d : Dev) : Nat :=
  let n := (List.range 8).map (fun s => d.sentries (d.get F.RXP_LSEL_GROUP) s)
  n.sum * 65536 + n.foldl max 0 % 512

/-- MAC_g.DUTY_USED (R328): hour + reserved of the slot, 0 where it is not a slot of group g. -/
def Dev.dutyUsed (d : Dev) (g s : Nat) : Nat :=
  match d.slotInForce s with
  | some r => if r.defined && r.group == g then (d.dutyHour s + d.dutyReserved s 0) % 2 ^ 32 else 0
  | none => 0

/-- MAC_g.PEER_DATA_k of a record (R328). -/
def Dev.peerWord (d : Dev) (i k : Nat) : Nat :=
  match d.peer i with
  | none => 0
  | some x =>
    match k with
    | 0 => x.brId / 2 ^ 32
    | 1 => x.brId % 2 ^ 32
    | 2 => x.panId * 65536 + x.group * 256 + x.state
    | 3 => x.interval * 65536
    | 4 => x.blocks / 2 ^ 32
    | 5 => x.blocks % 2 ^ 32
    | _ => x.heardT % 2 ^ 32

/-- SEC.KEY_INFO_k of a slot (R355); an EMPTY slot shows 0. -/
def Dev.keyInfoWord (d : Dev) (s k : Nat) : Nat :=
  match d.keySlot s with
  | none => 0
  | some x =>
    match k with
    | 0 => x.state * 2 ^ 28 + x.type * 2 ^ 24 + x.levels * 65536 + x.index * 256 + x.pan
    | 1 => x.next % 2 ^ 32
    | 2 => x.block * 65536 + b2n x.reserving
    | _ => min (d.slotRefs s) 0x7FFFFF

/-- DIR.BMAP_DATA (R399's page table): the page of a PAN's block. -/
def Dev.bmapWord (d : Dev) : Nat :=
  match d.blockPage (d.get F.DIR_BMAP_SEL_PAN) (d.get F.DIR_BMAP_SEL_BLOCK) with
  | some x => 2 ^ 31 + x.page * 2048 + x.used
  | none => 0

/-- The prefix table entry that DIR.XPFX_SEL names. -/
def Dev.xpfx (d : Dev) : Option Prefix := d.tab.prefixes.find? (fun x => x.index == d.get F.DIR_XPFX_SEL_INDEX)

/-- BHL_n.SESS_s and SEQ_s. -/
def Dev.sessWord (d : Dev) (n s : Nat) : Nat :=
  match d.sessionAt n s with
  | some x => 2 ^ 31 + x.rxSub % 16 * 65536 + x.evSub % 4 * 256 + min 255 ((d.tempo - x.lastRxT) / 4000)
  | none => 0
def Dev.sessSeq (d : Dev) (n s : Nat) : Nat := ((d.sessionAt n s).map (fun x => x.highest % 2 ^ 32)).getD 0

/-- A flow's registers that live in its record of table memory (R429). -/
def Dev.flowWord (d : Dev) (f off : Nat) : Option Nat :=
  match off with
  | 0x05C => some (d.fDepth f * 65536 + d.fHwm f)
  | 0x060 => some (d.mem (flowAddr f 1) % 2 ^ 32)
  | 0x064 => some (d.mem (flowAddr f 1) / 2 ^ 32)
  | 0x068 => some (d.mem (flowAddr f 2) % 2 ^ 32)
  | 0x06C => some (d.mem (flowAddr f 2) / 2 ^ 32)
  | 0x070 => some (d.mem (flowAddr f 0) % 2 ^ 32)
  | 0x074 => some (d.mem (flowAddr f 0) / 2 ^ 32)
  | 0x078 => some (d.mem (flowAddr f 6) % 2 ^ 32)
  | _ => none

/-- A configuration value that awaits its boundary, which reads show (R413, R288). -/
def Dev.pendingValue (d : Dev) (k : Nat) : Option Nat :=
  ((d.sch.pending ++ d.ra.profPending).find? (fun x => x.1 == k)).map (fun x => x.2)

/-- HOST per-ring status (R168). -/
def Dev.ringStat (d : Dev) (n stored : Nat) : Nat :=
  bits stored 19 19 * 2 ^ 19 + b2n (d.fetching n && decide (512 ≤ d.inflight.length)) * 2 ^ 18
    + b2n (d.ringPcie n && decide (4096 ≤ d.cqUsed n)) * 2 ^ 17 + b2n (d.ringIdle n) * 65536 + d.ringInflight n

/-- What the register of storage key k shows in place of its stored word w, by page and offset. -/
def Dev.viewSys (d : Dev) (off w : Nat) : Nat :=
  match off with
  | 0x040 => d.sysTempo % 2 ^ 32
  | 0x044 => d.sysTempo / 2 ^ 32
  | 0x04C => d.tempo / 2 ^ 36 % 4096
  | 0x080 => w % 512 + (if d.opening then 2 ^ 31 + (4000 - d.tempo) * 65536 else 0)
  | 0x090 => withBits w 1 0 (if Config.gradeIB then 1 else 2)
  | 0x094 => Config.brId.toNat % 2 ^ 32
  | 0x098 => Config.brId.toNat / 2 ^ 32
  | _ => w

def Dev.viewPwr (d : Dev) (off w : Nat) : Nat :=
  match off with
  | 0x040 => withBits w 5 4 d.current
  | 0x06C => d.aonCount % 2 ^ 32
  | 0x070 => d.aonCount / 2 ^ 32
  | _ => w

def Dev.viewHost (d : Dev) (off w : Nat) : Nat :=
  if off = 0x044 then withBits w 9 0 d.inflight.length
  else if off < 0x100 then w
  else
    let n := (off - 0x100) / 0x40
    match (off - 0x100) % 0x40 with
    | 0x24 => d.heldOldest n * 65536 + w % 65536
    | 0x28 => d.ringStat n w
    | _ => w

def Dev.viewIrq (d : Dev) (off w : Nat) : Nat :=
  match off with
  | 0x040 => d.srcBits 0
  | 0x044 => d.srcBits 32
  | 0x050 => d.pendBits 0
  | 0x054 => d.pendBits 32
  | _ => w

def Dev.viewVault (d : Dev) (off w : Nat) : Nat :=
  let v := d.ra.vault
  if off = 0x040 then v.used % 16 * 65536 + (v.inForce.getD 0xF) % 16 * 256 + v.bad % 256
  else if off = 0x050 then withBits w 12 0 d.rfLoad
  else if 0x800 ≤ off then
    match v.inForce with
    | some n => d.genWord n ((off - 0x800) / 64) ((off - 0x800) / 4 % 16)
    | none => 0
  else w

def Dev.viewUpd (d : Dev) (off w : Nat) : Nat :=
  match off with
  | 0x040 => d.updStat
  | 0x050 => d.slotInfo 0
  | 0x054 => (d.fwSlot 0).version % 2 ^ 32
  | 0x058 => (d.fwSlot 0).seq % 2 ^ 32
  | 0x060 => d.slotInfo 1
  | 0x064 => (d.fwSlot 1).version % 2 ^ 32
  | 0x068 => (d.fwSlot 1).seq % 2 ^ 32
  | _ => w

def Dev.viewSec (d : Dev) (off w : Nat) : Nat :=
  let n (p : KeySlot → Bool) : Nat := (d.ks.slots.filter p).length
  match off with
  | 0x044 => d.ks.oseq % 65536 * 65536 + 4 * b2n d.ks.lock + 2 * b2n d.ks.owner.isSome + b2n d.ks.deviceKey.isSome
  | 0x048 => n (fun k => k.state == 1 || k.state == 2) * 65536 + n (fun k => k.state == 3)
  | 0x05C => withBits w 3 0 d.engBusy
  | 0x064 => d.keyInfoWord (d.get F.SEC_KEY_SEL_SLOT) 0
  | 0x068 => d.keyInfoWord (d.get F.SEC_KEY_SEL_SLOT) 1
  | 0x06C => d.keyInfoWord (d.get F.SEC_KEY_SEL_SLOT) 2
  | 0x070 => d.keyInfoWord (d.get F.SEC_KEY_SEL_SLOT) 3
  | _ => w

def Dev.viewMac (d : Dev) (g off w : Nat) : Nat :=
  if off = 0x054 then d.dutyUsed g (d.get (F.MAC_DUTY_SEL_SLOT g))
  else if off = 0x0A8 then b2n (d.ra.panPending.getD g none).isSome * 65536
  else if 0x0B0 ≤ off ∧ off ≤ 0x0C8 then d.peerWord (d.get (F.MAC_PEER_SEL_PEER g)) ((off - 0x0B0) / 4)
  else w

def Dev.viewTxp (d : Dev) (off w : Nat) : Nat :=
  match off with
  | 0x04C => d.setWord
  | 0x050 => b2n d.ra.setPending.isSome * 65536
  | _ => w

def Dev.viewRxp (d : Dev) (off w : Nat) : Nat :=
  match off with
  | 0x070 => b2n d.rx.pending.isSome * 65536
  | 0x074 => d.lUse
  | _ => w

def Dev.viewDir (d : Dev) (off w : Nat) : Nat :=
  match off with
  | 0x060 => d.bmapWord
  | 0x068 => (d.xpfx.map (fun x => x.value)).getD 0
  | 0x06C => (d.xpfx.map (fun x => 2 ^ 31 + x.count)).getD 0
  | _ => w

def Dev.viewQsch (d : Dev) (off w : Nat) : Nat :=
  if off = 0x070 then d.pendEntries.length
  else if 0x100 ≤ off then
    let p := (off - 0x100) / 4
    withBits (withBits w 27 16 (min (d.waitingOf p) 4095)) 5 0 (min (d.stagedOf p) 63)
  else w

def Dev.viewBhl (d : Dev) (n off w : Nat) : Nat :=
  if 0x070 ≤ off ∧ off < 0x090 then
    if (off - 0x070) % 8 = 0 then d.sessWord n ((off - 0x070) / 8) else d.sessSeq n ((off - 0x070) / 8)
  else w

/-- The word that the register of storage key k shows now, at offsets from 0x02C on; the key carries the entry of a window. -/
def Dev.show (d : Dev) (k : Nat) : Nat :=
  let off := keyOff k
  let w := (d.pendingValue k).getD (d.rd k)
  match keyPage k with
  | 0x00 => d.viewSys off w
  | 0x01 => d.viewPwr off w
  | 0x05 => d.viewHost off w
  | 0x06 => d.viewIrq off w
  | 0x08 => if off = 0x040 then d.sysNs % 2 ^ 32 else if off = 0x044 then d.sysNs / 2 ^ 32 else w
  | 0x09 => if off = 0x054 then d.gpioIn else w
  | 0x0A => if off = 0x04C then
      d.pins.blank.toNat * 8 + 4 * b2n d.pins.coexGrant + 2 * b2n d.coexPri + b2n d.coexReq else w
  | 0x0B => d.viewVault off w
  | 0x0C => d.viewUpd off w
  | 0x0F => d.viewSec off w
  | 0x10 | 0x11 | 0x12 | 0x13 => if off = 0x050 then d.slotStat (keyPage k - 0x10) else w
  | 0x15 => d.viewRxp off w
  | 0x16 => d.viewTxp off w
  | 0x18 | 0x19 | 0x1A | 0x1B => d.viewMac (keyPage k - 0x18) off w
  | 0x20 => d.viewDir off w
  | 0x21 => if off = 0x064 then withBits w 15 0 (min d.tab.ueLines.length 65535)
            else if off = 0x074 then withBits w 8 0 d.tab.telemQueue.length else w
  | 0x28 => d.viewQsch off w
  | 0x29 => (d.flowWord (keyEntry k) off).getD w
  | 0x2B => if off = 0x054 then d.egrCells (keyEntry k) else w
  | 0x30 | 0x31 => d.viewBhl (keyPage k - 0x30) off w
  | _ => w

/-- The MSI-X table and pending-bit array within the IRQ page (R170). -/
def msixTable (a : Nat) : Bool := decide (0x6800 ≤ a) && decide (a < 0x6C00)
def msixPba (a : Nat) : Bool := decide (0x6C00 ≤ a) && decide (a < 0x6C08)

/-- The pending bit of a vector: set, and not cleared since by servicing every source on it (R170). -/
def Dev.pbaBit (d : Dev) (v : Nat) : Bool :=
  d.pba.contains v && (List.range 64).any (fun s => d.get (F.IRQ_VEC_VECTOR s) == v && d.srcPending s)

/-- A live register at a host address, with no effect on it: 0 where nothing is defined (R52, R140). -/
def Dev.liveWord (d : Dev) (a : Nat) : Nat :=
  let p := a / 0x1000
  let off := a % 0x1000
  if !pageAssigned p || off % 4 != 0 then 0
  else if off ≤ 0x028 then d.header p off
  else if msixTable a then d.rd a
  else if msixPba a then bitsOf 32 (fun i => d.pbaBit (8 * (a - 0x6C00) + i))
  else if (findReg p off).isNone then 0
  else d.show (d.shownKey a) &&& ((findReg p off).map (fun r => r.mask (fun f => f.acc != .wo))).getD 0

/-- Every offset a register of a page stands at, from 0x02C on. -/
def RegDesc.offsets (r : RegDesc) : List Nat :=
  (List.range (if r.stride1 = 0 then 1 else r.count1)).flatMap (fun i =>
    (List.range (if r.stride2 = 0 then 1 else r.count2)).map (fun j => r.off + i * r.stride1 + j * r.stride2))

/-- The bits of a register that FREEZE holds: its RO and RC fields (R138). -/
def RegDesc.heldMask (r : RegDesc) : Nat :=
  r.mask (fun f => f.acc == .ro || f.acc == .rc || f.acc == .rcMax || f.acc == .rcMin)

/-- The value that a frozen page holds for the register at a host address, with its storage key; none where the page is not
frozen (R138). A register with no entry held 0. -/
def Dev.frozenAt (d : Dev) (a : Nat) : Option (Nat × Nat) :=
  (d.frozen.find? (fun x => x.1 == a / 0x1000)).map (fun x => (x.2.find? (fun y => keyAddr y.1 == a)).getD (d.shownKey a, 0))

/-- What a read of a host address returns: the live register, with the fields that FREEZE holds as they were. -/
def Dev.readView (d : Dev) (a : Nat) : Nat :=
  let w := d.liveWord a
  if a % 0x1000 ≤ 0x028 then w
  else match d.frozenAt a, findReg (a / 0x1000) (a % 0x1000) with
    | some (_, v), some r => merge32 r.heldMask v w
    | _, _ => w

/-- What every register of every assigned page reads at an instant: address and value, without those that read 0 (R494). -/
def Dev.snapshotAll (d : Dev) : List (Nat × Nat) :=
  assignedPages.flatMap (fun p =>
    let offs := (List.range 11).map (fun i => 4 * i) ++ (pageRegs p).flatMap (fun r => r.offsets)
      ++ (if p = 0x06 then (List.range 258).map (fun i => 0x800 + 4 * i) else [])
    (offs.map (fun o => (p * 0x1000 + o, d.readView (p * 0x1000 + o)))).filter (fun x => x.2 != 0))

end Sys2Proof.Machine
end

