-- ==== Sys2Proof/Machine/Bus.lean ====
section
/-! DEFINITION. Register reads: RC fields and what a read restarts (R21), the freeze of a page (R138), held values during the
PROMOTE pause (R494), and the accesses that a read makes happen (R289, R467). -/

namespace Sys2Proof.Machine

/-- The present value of a quantity whose greatest or least value a field holds; 0 where it has none (R21). -/
def Dev.presentOf (d : Dev) (k : Nat) (f : FieldDesc) : Nat :=
  let off := keyOff k
  match keyPage k with
  | 0x05 => d.inflight.length
  | 0x0B => d.rfLoad
  | 0x0F => d.engines.queue.length
  | 0x15 => if off = 0x044 then d.rx.ctxs.length else d.inUse ((off - 0x058) / 4)
  | 0x28 => d.get F.QSCH_BUF_FREE_FREE
  | 0x29 => d.fDepth (keyEntry k)
  | 0x2A => bits (d.rd (R.QPCLS_SAMPLE + 2 ^ 20 * (keyEntry k + 1))) f.hi f.lo
  | 0x2B => d.egrCells (keyEntry k)
  | 0x33 => d.bh.reasm.length
  | _ => 0

/-- A field of the register of a storage key replaced, where the register lives: in a flow's record, or in the register
file. -/
def Dev.putShown (d : Dev) (k : Nat) (f : FieldDesc) (v : Nat) : Dev :=
  if keyPage k = 0x29 ∧ keyOff k = 0x05C then d.setMemBits (flowAddr (keyEntry k) 5) 35 20 v
  else if keyPage k = 0x29 ∧ keyOff k = 0x078 then d.setMemBits (flowAddr (keyEntry k) 6) f.hi f.lo v
  else d.put ⟨k, f.hi, f.lo⟩ v

/-- A field that a read clears or restarts, cleared or restarted (R21). -/
def Dev.restart (d : Dev) (k : Nat) (f : FieldDesc) : Dev :=
  match f.acc with
  | .rc => d.putShown k f 0
  | .rcMax | .rcMin => d.putShown k f (min (d.presentOf k f) (2 ^ (f.hi + 1 - f.lo) - 1))
  | _ => d

/-- Every such field of a register. -/
def Dev.restartAll (d : Dev) (k : Nat) (r : RegDesc) : Dev := r.fields.foldl (fun (x : Dev) f => x.restart k f) d

/-! ### FREEZE (R138) -/

/-- The registers of a page that FREEZE holds, each under the key that its window shows. -/
def Dev.heldKeys (d : Dev) (p : Nat) : List (Nat × RegDesc) :=
  (pageRegs p).flatMap (fun r => if r.heldMask = 0 then [] else r.offsets.map (fun o => (d.shownKey (p * 0x1000 + o), r)))

/-- FREEZE := 1: what the page's RO and RC fields show is kept, and their counts start again out of sight. -/
def Dev.freezePage (d : Dev) (p : Nat) : Dev :=
  let ks := d.heldKeys p
  let vals := (ks.map (fun x => (x.1, d.show x.1 &&& x.2.heldMask, x.2))).filter
    (fun x => x.2.1 != 0 || x.2.2.fields.any (fun f => f.acc == .rcMin))
  let d1 := ks.foldl (fun (x : Dev) kr => x.restartAll kr.1 kr.2) d
  { d1 with frozen := d1.frozen.filter (fun x => x.1 != p) ++ [(p, vals.map (fun x => (x.1, x.2.1)))] }

/-- One field of a thawed register: what was held and what arose since are one count, or one greatest or least value. -/
def Dev.thawField (d : Dev) (k v : Nat) (f : FieldDesc) : Dev :=
  let now := bits (d.show k) f.hi f.lo
  let was := bits v f.hi f.lo
  match f.acc with
  | .rc => d.putShown k f (min (now + was) (2 ^ (f.hi + 1 - f.lo) - 1))
  | .rcMax => d.putShown k f (max now was)
  | .rcMin => d.putShown k f (min now was)
  | _ => d

/-- FREEZE := 0: the counts out of sight appear at once. -/
def Dev.thawPage (d : Dev) (p : Nat) : Dev :=
  match d.frozen.find? (fun x => x.1 == p) with
  | none => d
  | some (_, l) =>
    let d1 := l.foldl (fun (x : Dev) kv => match findReg p (keyOff kv.1) with
      | some r => r.fields.foldl (fun (y : Dev) f => y.thawField kv.1 kv.2 f) x
      | none => x) d
    { d1 with frozen := d1.frozen.filter (fun x => x.1 != p) }

/-- The held value of a register of a frozen page replaced. -/
def Dev.setFrozen (d : Dev) (p k v : Nat) : Dev :=
  { d with frozen := d.frozen.map (fun (x : Nat × List (Nat × Nat)) =>
      if x.1 = p then (x.1, x.2.filter (fun y => y.1 != k) ++ [(k, v)]) else x) }

/-- A frozen RC field after a read: a count clears, a greatest or least value restarts from what has been reached since. -/
def heldAfterRead (live : Nat) (v : Nat) (f : FieldDesc) : Nat :=
  match f.acc with
  | .rc => withBits v f.hi f.lo 0
  | .rcMax | .rcMin => withBits v f.hi f.lo (bits live f.hi f.lo)
  | _ => v

/-! ### Reads (R21, R140, R144) -/

/-- Whether an address is CCR_c_LO of a timer channel: unit and channel (R467). -/
def ccrLo (a : Nat) : Option (Nat × Nat) :=
  if a / 0x1000 = 0x08 ∧ 0x100 ≤ a % 0x1000 ∧ a % 0x1000 < 0x900 then
    let o := (a % 0x1000 - 0x100) % 0x80
    if 0x40 ≤ o ∧ o < 0x60 ∧ o % 8 = 0 then some ((a % 0x1000 - 0x100) / 0x80, (o - 0x40) / 8) else none
  else none

/-- What a read makes happen beside RC fields: a capture is consumed (R467), INDEX of SET_SEL advances (R289). -/
def Dev.readActs (d : Dev) (a : Nat) : Dev :=
  match ccrLo a with
  | some (n, c) =>
    if chMode (d.rd (R.TIM_CH_CFG n)) c = 1 then
      (d.put ⟨R.TIM_FLAGS n, c, c⟩ 0).put ⟨R.TIM_FLAGS n, 8 + c, 8 + c⟩ 0
    else d
  | none => if a = R.TXP_SET_DATA then d.setAdvance else d

/-- RC fields of a register that has been read. -/
def Dev.afterRead (d : Dev) (a : Nat) : Dev :=
  let p := a / 0x1000
  let off := a % 0x1000
  if !pageAssigned p then d
  else if off = 0x01C then d.put (H.errCount p) 0
  else if off ≤ 0x028 then d
  else match findReg p off with
    | none => d
    | some r =>
      if r.fields.any (fun f => f.acc == .rc || f.acc == .rcMax || f.acc == .rcMin) then
        match d.frozenAt a with
        | some (k, v) => d.setFrozen p k (r.fields.foldl (fun x f => heldAfterRead (d.show k) x f) v)
        | none => d.restartAll (d.shownKey a) r
      else d

/-- A register is read: the device after it, and the word returned. During the PROMOTE pause the held value is returned and
nothing changes (R494). -/
def Dev.busRead (d : Dev) (a : Nat) : Dev × Nat :=
  if d.is F.UPD_STAT_PAUSE then (d, ((d.heldView.find? (fun x => x.1 == a)).map (fun x => x.2)).getD 0)
  else ((d.afterRead a).readActs a, d.readView a)

end Sys2Proof.Machine
end

