-- ==== Sys2Proof/Machine/Lanes.lean ====
section
/-! DEFINITION. The control lanes: roles, votes, claims, drops, admissions and dry admissions (R171 to R193). -/

namespace Sys2Proof.Machine

/-! ### Roles and claims (R171, R173, R178) -/

def Dev.role (d : Dev) (i : Nat) : Nat := bits (d.rd R.LANE_ROLES) (4 * i + 3) (4 * i)
def Dev.live (d : Dev) : List Nat := (List.range 4).filter (fun i => d.role i == 0)
def Dev.claim (d : Dev) (i : Nat) : Nat := d.rd (R.LANE_CLAIM i)
def Dev.strikesOf (d : Dev) (i : Nat) : Nat := d.get (F.LANE_HIST_STRIKES i)

/-- A lane takes a role; MODE follows the number of live lanes. A lane that is not live reads AGE 0. -/
def Dev.setRole (d : Dev) (i v : Nat) : Dev :=
  let d1 := d.put ⟨R.LANE_ROLES, 4 * i + 3, 4 * i⟩ v
  let d2 := d1.put F.LANE_ROLES_MODE (3 - max 1 (min 3 d1.live.length))
  d2.put (F.LANE_CLAIM_AGE i) 0

/-- The lane of a list with the highest claim number. -/
def Dev.topClaim (d : Dev) (l : List Nat) : Option Nat :=
  l.foldl (fun b i => match b with
    | none => some i
    | some j => if d.claim j < d.claim i then some i else some j) none

/-! ### Admission (R185 to R187) -/

/-- The lane of a role with the fewest strikes, and among equals with the lowest RANK. -/
def Dev.chooseLane (d : Dev) (role : Nat) : Option Nat :=
  ((List.range 4).filter (fun i => d.role i == role)).foldl (fun b i => match b with
    | none => some i
    | some j => if d.strikesOf i ≤ d.strikesOf j then some i else some j) none

/-- The copy engine begins, from the live lane with the highest claim. -/
def Dev.startCopy (d : Dev) (i : Nat) : Dev :=
  { d with ln := { d.ln with copy := (d.topClaim d.live).map (fun s => (i, s)), copied := false } }

def Dev.admitLane (d : Dev) (i : Nat) : Dev := (d.setRole i 2).startCopy i

/-- An admission or a dry admission is in progress. -/
def Dev.admitting (d : Dev) : Bool := d.ln.copy.isSome || d.ln.dry.isSome

/-- An admission starts by itself where R185 lets it. -/
def Dev.autoAdmit (d : Dev) : Dev :=
  if decide (d.live.length < 3) && d.is F.LANE_CFG_AUTO_ADMIT && !d.admitting then
    match d.chooseLane 1 with
    | some i => d.admitLane i
    | none => d
  else d

/-- The lane that LANE.ADMIT.REQ admits, where R185 accepts the write. -/
def Dev.admitChoice (d : Dev) : Option Nat :=
  if 3 ≤ d.live.length || d.admitting then none
  else match d.chooseLane 1 with
    | some i => some i
    | none => d.chooseLane 6

/-! ### Dry admission (R188, R189) -/

/-- The conditions under which a START is rejected with STATE. -/
def Dev.dryRefused (d : Dev) (lane : Nat) : Bool :=
  d.get F.LANE_ROLES_MODE != 0 || !(d.role lane == 1 || d.role lane == 6) || d.admitting

/-- A dry admission starts: the lane is DRY and is copied. -/
def Dev.dryStart (d : Dev) (lane tempos : Nat) : Dev :=
  let was := d.role lane
  let d1 := (d.setRole lane 3).startCopy lane
  let d2 := (((d1.put F.LANE_DRY_RESULT_MISMATCH 0).put F.LANE_DRY_RESULT_FIRST_STAGE 0xF).put F.LANE_DRY_RESULT_LANE lane).put
    F.LANE_DRY_RESULT_STATE 1
  { d2.put F.LANE_DRY_LEFT_TEMPOS tempos with
    ln := { d2.ln with dry := some lane, dryPrev := was, shadow := false, dryAbort := false, dryJoin := false } }

/-- The dry admission is over. -/
def Dev.dryOver (d : Dev) (state : Nat) : Dev :=
  let d1 := (d.put F.LANE_DRY_RESULT_STATE state).put F.LANE_DRY_LEFT_TEMPOS 0
  { d1 with ln := { d1.ln with dry := none, shadow := false, dryAbort := false, dryJoin := false } }

/-- What a dropped live lane does to a dry admission (R189); of it and an ABORT before one boundary the later takes effect (DESIGN CHOICE, log
entry 127). -/
def Dev.dryDrop (d : Dev) : Dev :=
  match d.ln.dry with
  | none => d
  | some i =>
    if 0 < d.get F.LANE_DRY_RESULT_MISMATCH then ((d.setRole i 6).dryOver 3).raise 0x04 3
    else if d.ln.shadow || d.ln.copied then { d with ln := { d.ln with dryJoin := true, dryAbort := false } }
    else ((d.setRole i 2).dryOver 2).raise 0x04 3

/-! ### Drops (R182 to R184, R187) -/

/-- One lane is dropped with a cause. Boundaries before release are counted nowhere (R108), so the test of a lane dropped then ends when
the command says so. Tempos made up after a SLEEP count toward its 160 boundaries (DESIGN CHOICE, log entry 126). -/
def Dev.dropLane (d : Dev) (i cause : Nat) : Dev :=
  let d1 := (d.bump (F.LANE_HIST_STRIKES i) 1).put (F.LANE_HIST_LAST_CAUSE i) cause
  let out := decide (d1.get F.LANE_CFG_STRIKE_LIMIT ≤ d1.strikesOf i)
  let d2 := d1.setRole i (if out then 5 else 4)
  let d3 := { d2 with ln := { d2.ln with quarEnd := setAt d2.ln.quarEnd i (if d2.awake then d2.tempo + 160 else 0) } }
  (d3.evt (ev 13 3) 1).raise 0x04 1

/-- Lanes are dropped; SIMPLEX, a copy whose source is gone, a dry admission and the next admission follow. An SRAM_UE on the only live lane drops
it too, and leaves none (DESIGN CHOICE, log entry 127). -/
def Dev.dropLanes (d : Dev) (l : List Nat) (cause : Nat) : Dev :=
  if l.isEmpty then d
  else
    let wasSimplex := d.live.length == 1
    let d1 := l.foldl (fun (x : Dev) i => x.dropLane i cause) d
    let d2 :=
      if d1.live.length = 1 ∧ !wasSimplex then
        let x := d1.raise 0x04 4
        if x.is F.LANE_CFG_SIMPLEX_IDLE then (x.put F.PWR_MODE_TARGET 1).targetAct else x
      else d1
    let d3 := match d2.ln.copy with
      | some (i, src) => if l.contains src && !d2.ln.copied then d2.startCopy i else d2
      | none => d2
    d3.dryDrop.autoAdmit

/-! ### Votes (R174 to R180) -/

/-- What a vote gives: the output that passes, and the lanes it drops. -/
structure Ballot where
  passed : Option Nat
  dropped : List Nat
  cause : Nat
  deriving DecidableEq, Repr

/-- The output of a lane, none where it is late (R175). -/
def outOf (outs : List (Option Nat)) (i : Nat) : Option Nat := outs.getD i none

/-- The output that two live lanes present identically. -/
def agreed (live : List Nat) (outs : List (Option Nat)) : Option Nat :=
  match live.find? (fun i => (outOf outs i).isSome && live.any (fun j => j != i && outOf outs j == outOf outs i)) with
  | some i => outOf outs i
  | none => none

/-- The vote of the live lanes (R175, R176). -/
def Dev.ballot (d : Dev) (outs : List (Option Nat)) : Ballot :=
  let live := d.live
  match live with
  | [i] => ⟨outOf outs i, [], 0⟩
  | _ => match agreed live outs with
    | some v => ⟨some v, live.filter (fun i => outOf outs i != some v), 0⟩
    | none => match d.topClaim (live.filter (fun i => (outOf outs i).isSome)) with
      | some w => ⟨outOf outs w, live.filter (fun i => i != w), 1⟩
      | none => ⟨none, [], 0⟩

/-- A disagreement is recorded and raised (R180). -/
def Dev.disagreed (d : Dev) (stage kind lanes : Nat) : Dev :=
  let d1 := ((d.bump F.LANE_DISAGREE_COUNT 1).put F.LANE_DISAGREE_LAST_STAGE stage).put F.LANE_DISAGREE_LAST_KIND kind
  ((d1.put F.LANE_DISAGREE_LAST_LANES lanes).evt (ev 13 2) 1).raise 0x04 0

/-- A dry lane's output is compared with the voted one (R188). -/
def Dev.dryCompare (d : Dev) (stage : Nat) (outs : List (Option Nat)) (passed : Option Nat) : Dev :=
  match d.ln.dry with
  | some i =>
    if d.ln.shadow && outOf outs i != passed then
      let d1 := d.bump F.LANE_DRY_RESULT_MISMATCH 1
      if d1.get F.LANE_DRY_RESULT_FIRST_STAGE = 0xF then d1.put F.LANE_DRY_RESULT_FIRST_STAGE stage else d1
    else d
  | none => d

/-- The output that a stage issues: that of the vote, or where the voter's halves differ that of the live lane which half 0 chose (R171, R177,
R179). In SIMPLEX outputs pass unvoted (R173). -/
def Dev.votedOutput (d : Dev) (outs : List (Option Nat)) (half0 : Option (Fin 4)) : Option Nat :=
  match half0 with
  | some i => if d.live.length = 1 then (d.ballot outs).passed else if d.live.contains i then outOf outs i else none
  | none => (d.ballot outs).passed

/-- Stages 0 to 4 issue their voted output and hold it as their last; MARK issues nothing (R174, R177). -/
def Dev.stageOut (d : Dev) (stage : Nat) (v : Option Nat) : Dev :=
  match v with
  | some x => if stage < 5 then { d with ln := { d.ln with issued := setAt d.ln.issued stage v } }.emit (.voted stage x) else d
  | none => d

/-- A vote at a stage; where the voter's halves differ, no lane is dropped (R179). -/
def Dev.vote (d : Dev) (stage : Nat) (outs : List (Option Nat)) (half0 : Option (Fin 4)) : Dev :=
  let b := d.ballot outs
  let v := d.votedOutput outs half0
  let d1 := d.dryCompare stage outs v
  let d2 :=
    if half0.isSome && d.live.length != 1 then d1.disagreed stage 4 0
    else if b.dropped.isEmpty then d1
    else
      let cause := if stage = 5 then 2 else b.cause
      (d1.disagreed stage cause ((b.dropped.map (fun i => 2 ^ i)).sum)).dropLanes b.dropped cause
  d2.stageOut stage v

/-- A vote on an output that the lanes present alike (R175): they agree, and the stage issues it. Its bits are a free value (DESIGN CHOICE, log
entry 103). -/
def Dev.voteAgreed (d : Dev) (stage : Nat) : Dev :=
  let x := d.draw
  x.2.vote stage (List.replicate 4 (some (Config.freeNat x.1))) none

/-- The lanes run: from Lane start, not in SLEEP, not in SAFE (R107, R118, R172). -/
def Dev.lanesUp (d : Dev) : Bool := d.awake || d.pw.phase == .calibration || d.pw.phase == .releaseWait

/-- The lanes run and present outputs: not halted by the debugger, not stopped by PROMOTE. -/
def Dev.lanesRun (d : Dev) : Bool :=
  d.lanesUp && !d.tm.halted && (!d.is F.UPD_STAT_PAUSE || match d.fw.promote with
    | some p => p.restarted
    | none => false)

/-- Every lane's signature as presented at the mark, and the corrected errors that each met in its SRAM since its last (R181, R182). -/
def Dev.marks (d : Dev) (outs : List (Option (BitVec 36))) (ce : List Nat) : Dev :=
  let d1 := (List.range 4).foldl (fun (x : Dev) i => x.bump (F.LANE_HIST_CE i) (ce.getD i 0)) d
  { d1 with ln := { d1.ln with sigs := outs } }

/-- The end-of-tempo mark is reached: the mark of this tempo, or one still owed by the tempo before (R181, R191). -/
def Dev.mark (d : Dev) : Dev :=
  if d.ln.lateMark then { d with ln := { d.ln with lateMark := false } }
  else
    let d1 := (d.put F.LANE_EXEC_MARK d.cycle).peak F.LANE_EXEC_PEAK_PEAK d.cycle
    { d1 with ln := { d1.ln with marked := true },
              fw := { d1.fw with promote := d1.fw.promote.map (fun (p : Promote) =>
                if p.restarted && p.ready.isNone then { p with ready := some d.tempo } else p) } }

/-! ### Boundaries -/

/-- The claim record of a lane at a boundary: TRUST from its strikes, AGE of a live lane. Tempos made up after a SLEEP have no boundary that runs,
and do not age it (DESIGN CHOICE, log entry 126). -/
def Dev.laneClaim (d : Dev) (i : Nat) : Dev :=
  let y := d.put (F.LANE_CLAIM_TRUST i) (15 - d.strikesOf i)
  if y.role i = 0 then y.bump (F.LANE_CLAIM_AGE i) 1 else y.put (F.LANE_CLAIM_AGE i) 0

/-- The claim records of all four lanes. -/
def Dev.laneClaims (d : Dev) : Dev := (List.range 4).foldl (fun (x : Dev) i => x.laneClaim i) d

/-- A dry admission in lockstep counts its tempos down (R188). -/
def Dev.dryTick (d : Dev) : Dev :=
  if d.ln.shadow then d.put F.LANE_DRY_LEFT_TEMPOS (d.get F.LANE_DRY_LEFT_TEMPOS - 1) else d

/-- An aborted dry admission ends at the boundary, its lane returned to its earlier role (R189), from which R185 may admit it. -/
def Dev.dryCut (d : Dev) : Dev :=
  match d.ln.dry with
  | some i => if d.ln.dryAbort then
      let x := (d.setRole i d.ln.dryPrev).dryOver 0
      { x with ln := { x.ln with copy := none, copied := false } }.autoAdmit
    else d
  | none => d

/-- The new tempo's mark is awaited; a mark not reached in the ended tempo is owed (R181, R191). However many tempos in a row lack theirs, one mark is
owed; and the 0x1_FFFF of such a tempo does not enter EXEC_PEAK (DESIGN CHOICE, log entry 127). -/
def Dev.lateMarks (d : Dev) (late : Bool) : Dev :=
  let d1 := if late then d.put F.LANE_EXEC_MARK 0x1FFFF else d
  { d1 with ln := { d1.ln with marked := false, lateMark := d1.ln.lateMark || late } }

/-- The lanes at a tempo boundary: claims latch, a dry admission counts or is aborted, and the mark of the ended tempo is looked
for (R178, R188, R189, R191). The Bool says that the mark is late. -/
def Dev.laneBoundary (d : Dev) : Dev × Bool :=
  let late := !d.ln.marked && !d.is F.UPD_STAT_PAUSE
  (d.laneClaims.dryTick.dryCut.lateMarks late, late)

/-! ### Meanings -/

/-- VOTE: the lanes present an output of a stage TX, BHL, TMEM, REG or MRAM, each lane's as a value or late; `half0` says that the
voter's halves differ, and which lane half 0 chose. A transmit command voted at stage TX is the oldest granted one of a port (R174 to
R180). -/
def execVote (stage : Fin 5) (port : Fin 32) (outs : List (Option Nat)) (half0 : Option (Fin 4)) (s : State) :
    Host.Outcome State Fault Refusal :=
  runs s (fun d =>
    if !d.lanesRun || d.is F.UPD_STAT_PAUSE then d
    else
      let d1 := d.vote stage outs half0
      if stage = 0 ∧ (d.votedOutput outs half0).isSome = true then match d1.ra.txs.find? (fun t => t.port == port.val && t.stage == .granted) with
        | some t => if d1.noGrants then d1 else d1.txUpd t.id (fun (x : Tx) => { x with stage := .voted })
        | none => d1
      else d1)

/-- END_OF_TEMPO_MARK: the lanes reach their mark, present their signatures at stage MARK and fold anew (R181, R191), and report the
single-bit errors that each has met in its SRAM since its last mark (R182). LANE.EXEC counts the tempos after release only (R108). -/
def execEndOfTempoMark (marks : LaneMarks) (half0 : Option (Fin 4)) (s : State) :
    Host.Outcome State Fault Refusal :=
  runs s (fun d => if d.lanesRun && (!d.awake || d.ln.lateMark || !d.ln.marked) then
      let d1 := (d.marks marks.sigs marks.ce).vote 5 (marks.sigs.map (fun o => o.map (fun x => x.toNat))) half0
      if d.awake then d1.mark else d1
    else d)

/-- SRAM_UE: an uncorrectable error in a live lane's SRAM drops it (R182). -/
def execSramUe (lane : Fin 4) (s : State) : Host.Outcome State Fault Refusal :=
  runs s (fun d => if d.lanesUp && d.role lane == 0 then d.dropLanes [lane.val] 3 else d)

/-- QUARANTINE_END: at the 160th boundary after a drop the lane's test ends (R183). -/
def execQuarantineEnd (lane : Fin 4) (pass : Bool) (s : State) : Host.Outcome State Fault Refusal :=
  runs s (fun d =>
    if d.lanesUp && d.role lane == 4 && decide (d.ln.quarEnd.getD lane 0 ≤ d.tempo) then (d.setRole lane (if pass then 1 else 5)).autoAdmit
    else d)

/-- The copy engine has transferred the SRAM of lane `src` to lane i, with what the live lanes wrote meanwhile (R186). -/
def Dev.copied (d : Dev) (i src : Nat) : Dev :=
  { d with ln := { d.ln with copied := true, mem := match d.ln.mem[src]? with
      | some m => setAt d.ln.mem i m
      | none => d.ln.mem } }

/-- ADMISSION_COPY_DONE: the copy engine ends (R186). -/
def execAdmissionCopyDone (s : State) : Host.Outcome State Fault Refusal :=
  runs s (fun d => match d.ln.copy with
    | some (i, src) => if d.lanesUp then d.copied i src else d
    | none => d)

/-- ADMISSION_COMPLETE: at the boundary after the copy the lane becomes LIVE, or a dry lane begins to run in lockstep (R186, R188,
R189). -/
def execAdmissionComplete (s : State) : Host.Outcome State Fault Refusal :=
  runs s (fun d =>
    if !d.lanesUp then d
    else match d.ln.dry, d.ln.copy with
      | some i, c =>
        if d.ln.dryJoin then
          let d1 := (((d.setRole i 0).dryOver 2).raise 0x04 3).raise 0x04 2
          { d1 with ln := { d1.ln with copy := none, copied := false } }.autoAdmit
        else if c.isSome && d.ln.copied then { d with ln := { d.ln with copy := none, copied := false, shadow := true } }
        else d
      | none, some (i, _) =>
        if d.ln.copied then
          let d1 := { d with ln := { d.ln with copy := none, copied := false } }
          ((d1.setRole i 0).raise 0x04 2).autoAdmit
        else d
      | none, none => d)

/-- DRY_END: the shadow duration has elapsed (R189). -/
def execDryEnd (s : State) : Host.Outcome State Fault Refusal :=
  runs s (fun d => match d.ln.dry with
    | some i =>
      if d.awake && d.ln.shadow && !d.ln.dryJoin && d.get F.LANE_DRY_LEFT_TEMPOS == 0 then
        let bad := decide (0 < d.get F.LANE_DRY_RESULT_MISMATCH)
        ((d.setRole i (if bad then 6 else 1)).dryOver (if bad then 3 else 2)).raise 0x04 3
      else d
    | none => d)

end Sys2Proof.Machine
end

