-- ==== Sys2Proof/Machine/Startup.lean ====
section
/-! DEFINITION. The power-up sequence: its phases, the self-test, the copy, the start-up calibration and the release, with the use
of the resignation record (R101, R105 to R119, R126, R229, R230, R348, R492, R495, R533). -/

namespace Sys2Proof.Machine

/-- A power-up begins with the Rails phase (R107): every register is at its reset value. -/
def Dev.powerUp (d : Dev) : Dev :=
  let hold := d.pw.phase == .resetHold
  let d1 := d.cut .rails
  let good := hold && d.pw.pwrGood
  { d1 with pw := { d1.pw with vinPresent := true, vout3v3 := hold, pwrGood := good } }.put F.PWR_FLAGS_BANK_READY (b2n good)

/-! ### Load (R107, R335, R336, R348) -/

/-- NEXT_FCNT of one slot at power-up (R348). -/
def Dev.loadCounter (d : Dev) (r : Option Rec) (k : KeySlot) : Dev :=
  let kept := r.bind (fun x => (x.fcnt.find? (fun y => y.1 == k.slot)).map (fun y => y.2))
  match (if k.state = 1 then kept else some k.next) with
  | some n => d.setKeySlot { k with next := n }
  | none =>
    if 0xFFFF ≤ k.block then d.setKeySlot { k with state := 2, next := 0xFFFFFFFF }
    else
      let d1 := (d.setKeySlot { k with reserving := true }).reserveDone k.slot
      match d1.keySlot k.slot with
      | some x => d1.setKeySlot { x with next := x.block * 65536 }
      | none => d1

/-- A copy that reads wrong: its CRC-32 no longer fits. -/
def SlotCopy.flawed (c : SlotCopy) : SlotCopy := { c with crc := crc32 c.body + 1 }

/-- One of the copies of a slot reads wrong in MRAM: the second one, or the first. -/
def Dev.flawCopy (d : Dev) (s : Nat) (second : Bool) : Dev :=
  let x := d.copiesOf s
  d.setCopies s (if second then (x.1, x.2.flawed) else (x.1.flawed, x.2))

/-- A slot from one of its copies, with a state and its key. -/
def SlotCopy.slot (c : SlotCopy) (s state : Nat) (key : List Byte) : KeySlot :=
  { slot := s, state := state, type := c.type, levels := c.levels, pan := c.pan, index := c.index, gen := c.gen, key := key, next := 0,
    block := c.block, refs := 0, reserving := false, failed := false, warned := false, stallT := 0, retryT := 0 }

/-- A slot is read at Load: its newer valid copy is unwrapped under the device key; without one, or where the unwrap fails, the slot is
DAMAGED; an EMPTY one leaves its generation byte (R335). -/
def Dev.loadSlot (d : Dev) (s : Nat) : Dev :=
  let x := d.copiesOf s
  match newerCopy x.1 x.2 with
  | none => d.setKeySlot (SlotCopy.fresh.slot s 3 [])
  | some second =>
    let c := if second then x.2 else x.1
    if c.state = 0 then { d with ks := { d.ks with gens := (s, c.gen) :: d.ks.gens } }
    else match keyUnwrap (d.ks.deviceKey.getD []) c.wrapped with
      | some k => d.setKeySlot (c.slot s c.state k)
      | none => d.setKeySlot (c.slot s 3 [])

/-- The device key is created where none exists, of bytes that the random-bit generator supplies (R336). -/
def Dev.makeDeviceKey (d : Dev) : Dev :=
  if d.ks.deviceKey.isSome then d
  else { d with ks := { d.ks with deviceKey := some ((List.range 16).map (Config.freeByte d.freeCtr)) }, freeCtr := d.freeCtr + 1 }

/-- The key store at Load, with copies found wrong: the device key, then every slot that has been written (R335, R336). -/
def Dev.loadKeys (d : Dev) (flaws : List (Fin 4096 × Bool)) : Dev :=
  let d1 := flaws.foldl (fun (x : Dev) (f : Fin 4096 × Bool) => x.flawCopy f.1 f.2) d.makeDeviceKey
  (d1.ks.copies.map (fun x => x.1)).foldl (fun (x : Dev) s => x.loadSlot s) d1

/-- OTP and MRAM are loaded (R107). Where an erasure was cut, the key store stays unread (R125). -/
def Dev.load (d : Dev) (flaws : List (Fin 4096 × Bool)) : Dev :=
  let d1 := d.cfg.foldl (fun (x : Dev) c => x.wr c.1 (merge32 (if c.1 < 2 ^ 20 then savedMask c.1 else 0xFFFFFFFF) c.2.toNat (x.rd c.1))) d
  let d2 := { d1 with ra := { d1.ra with vault := d1.ra.vault.loaded }, bh := { d1.bh with subsys := d1.rd R.PCIE_SUBSYS } }.reloadDraft.loadStaging
  let d3 := ((d2.put F.BIST_TEST_ZEROISED (b2n d.pw.zeroised)).put F.BIST_TEST_TEST_EN_SEEN (b2n d.pins.testEn)).put
    F.BIST_TEST_ACCESS (b2n (d.pw.zeroised && d.pins.testEn))
  let d4 : Dev := (d3.put F.PWR_FLAGS_AON_LOST (b2n d.pw.aonLost)).put F.BIST_RESET_CAUSE_CAUSE d.pw.nextCause
  if d.pw.eraseMark then { d4 with ks := { d4.ks with slots := [], gens := [], copies := [], owner := none, deviceKey := none } }
  else
    let d5 := d4.loadKeys flaws
    let r := d5.newestRec.bind (fun n => d5.recAt n)
    d5.ks.slots.foldl (fun (x : Dev) k => x.loadCounter r k) d5

/-! ### The power-up self-test (R112 to R118) -/

/-- Slices of an item's run; item 6 runs its path test where a cage carries a loopback module (R112, R115). -/
def itemSlices (i : Nat) (path : Bool) : Nat :=
  match i with
  | 0 => 2 | 1 => 4 | 2 => 16 | 3 => 32 | 4 => 72 | 5 => 24 | 6 => if path then 16 else 8 | _ => 4

/-- The power-up ends in SAFE, with the endpoint in reset, so many µs after VIN rose (R111, R118); PWRUP_T holds whole tenths of a ms (DESIGN CHOICE, log entry 108). -/
def Dev.toSafe (d : Dev) (us : Nat) : Dev :=
  let d1 := ((d.put F.BIST_RESULT_OUTCOME 3).put F.BIST_RESET_CAUSE_PWRUP_T (min (us / 100) 0xFFFF)).wr R.PCIE_LINK 0
  { d1 with pw := { d1.pw with phase := .safe, nextCause := 0 }, fw := { d1.fw with safeUs := us } }

/-- An item fails with a code and a location; the first failure is the one reported (R116, R134). -/
def Dev.itemFailed (d : Dev) (i code loc : Nat) : Dev :=
  let d1 := (d.put (F.BIST_ITEM_CODE i) code).put ⟨R.BIST_RESULT, 8 + i, 8 + i⟩ 1
  if d1.get F.BIST_RESULT_FIRST_ITEM = 0xF then
    ((d1.put F.BIST_RESULT_FIRST_ITEM i).put F.BIST_FAIL_LOC_CODE code).put F.BIST_FAIL_LOC_LOC loc
  else d1

/-- The next item begins, or the self-test is over (R117). -/
def Dev.nextItem (d : Dev) (i : Nat) : Dev :=
  let d1 := { d with pw := { d.pw with selfItem := i + 1, selfSlice := 0, selfRetry := false, selfFault := none, selfNote := 0 } }
  if i = 7 then (d1.put F.BIST_RESULT_OUTCOME (if d1.get F.BIST_RESULT_FAILED = 0 then 1 else 2)).setPhase .copy else d1

/-- The last slice of an item's run decides the item, or starts its retry (R112, R117). An item 5 or 6 that passes with EXT_DRIVEN or
NOT_TESTED noted keeps that code, after a retry too (DESIGN CHOICE, log entry 43). -/
def Dev.itemEnd (d : Dev) (us : Nat) : Dev :=
  let i := d.pw.selfItem
  match d.pw.selfFault with
  | none => (d.put (F.BIST_ITEM_CODE i) d.pw.selfNote).nextItem i
  | some (code, loc) =>
    if d.pw.selfRetry then
      let d1 := d.itemFailed i code loc
      if 5 ≤ i ∧ bit (d1.rd R.BIST_WAIVE) (i - 5) = true then d1.nextItem i else d1.toSafe us
    else { d.put (F.BIST_ITEM_RETRIED i) 1 with pw := { d.pw with selfSlice := 0, selfRetry := true, selfFault := none, selfNote := if i = 6 then d.pw.selfNote else 0 } }

/-- One slice of the self-test: a fault's code (0 for none) and location, an external drive seen in item 5, and for the first
slice of item 6 the cages whose module answers the loopback probe; the path of one with SFP_MODABS_n low is tested (R115). -/
def Dev.selfSlice (d : Dev) (fault loc : Nat) (ext : Bool) (cages : BitVec 2) (us : Nat) : Dev :=
  let p := d.pw
  let i := p.selfItem
  let first := i == 6 && p.selfSlice == 0 && !p.selfRetry
  let probed := cages &&& d.pins.modPresent
  let path := if first then probed != 0 else p.selfPath
  let note := if first then (if probed = 3 then 0 else 0x11) else if i = 5 ∧ ext = true then 0x10 else p.selfNote
  let f := match p.selfFault with
    | some x => some x
    | none => if fault = 0 then none else some (fault, loc)
  let d1 := ((d.bump F.BIST_RESULT_SLICES 1).bump (F.BIST_ITEM_SLICES i) 1)
  let d2 := { d1 with pw := { d1.pw with selfSlice := p.selfSlice + 1, selfPath := path, selfNote := note, selfFault := f } }
  if p.selfSlice + 1 = itemSlices i path then d2.itemEnd us else d2

/-! ### Start-up calibration (R229, R230) -/

/-- Runs that step j of a chain takes in start-up calibration: none after the step that fails, two where it is repeated or fails. -/
def stepRuns (fail : Option Nat) (again : List Nat) (j : Nat) : Nat :=
  match fail with
  | some f => if f < j then 0 else if f = j ∨ again.contains j = true then 2 else 1
  | none => if again.contains j then 2 else 1

/-- The steps of a chain that use the group's calibration load, and those that do not, by number (R224). -/
def loadSteps (g c : Nat) (uses : Bool) : List Nat :=
  ((calItems g c).zipIdx.filter (fun x => decide (4 ≤ x.1) == uses)).map (fun x => x.2)

/-- Tempos of a group's start-up calibration (R229): its chains side by side through the steps without the load, then each chain's steps
with it in turn, the spare last. `fail` and `again` give each chain's failing step and repeated steps. -/
def startTempos (g : Nat) (fail : Nat → Option Nat) (again : Nat → List Nat) : Nat × Nat :=
  let runs := fun (c : Nat) (uses : Bool) => ((loadSteps g c uses).map (fun j => stepRuns (fail c) (again c) j)).sum
  (((List.range 9).map (fun c => runs c false)).foldl max 0, ((List.range 9).map (fun c => runs c true)).sum)

/-- Loads of a chain's steps with the load, tempo by tempo: of a leaking transmitter a free value; of the PA steps, in which one of them trims the
greatest of the chain's entries, that entry's load there, and in the others no more. Which step trims which entry is not stated (free values
from number n on; log entry 128). -/
def chainLoads (g c n : Nat) (fail : Option Nat) (again : List Nat) (entries : List (Nat × Nat)) : List Nat :=
  let w := loadMw (if entries.isEmpty then hwMax g else calOut g entries)
  let items := calItems g c
  let pa := (items.filter (fun x => x == 5)).length
  (loadSteps g c true).flatMap (fun j => List.replicate (stepRuns fail again j)
    (if items.getD j 5 = 4 then Config.freeNat (n + j) % (loadMw (hwMax g) + 1)
     else if j = items.length - pa + Config.freeNat n % pa then w else 1 + Config.freeNat (n + j) % w))

/-- Loads that a group's start-up calibration counts, tempo by tempo: none while no step uses the load; then chain by chain (R227, R229). -/
def startLoads (g n : Nat) (t : Nat × Nat) (fail : Nat → Option Nat) (again : Nat → List Nat) (entries : Nat → List (Nat × Nat)) : List Nat :=
  List.replicate t.1 0 ++ (List.range 9).flatMap (fun c => chainLoads g c (n + 70 * c) (fail c) (again c) (entries c))

/-- The greatest sum of the loads of the four groups in one tempo; no more than one load of a group is driven at once (R229). -/
def startPeak (l : List (List Nat)) : Nat :=
  ((List.range ((l.map List.length).foldl max 0)).map (fun i => (l.map (fun x => x.getD i 0)).sum)).foldl max 0

/-- A chain that failed keeps no VALID entry; a failed spare is SPARE_BAD. -/
def Dev.startFail (d : Dev) (k item : Nat) : Dev :=
  let g := chainGroup k; let c := chainInGroup k
  let d1 := (d.calOutcome k (if item = 0 then 2 else 1) item).put ⟨R.CAL_FAULT g, c, c⟩ 1
  if c = 8 then d1.setCalState g 8
  else (List.range 64).foldl (fun (x : Dev) i => x.wr (ptKey g c i) (startupPt g i - 0x8000)) d1

/-- A chain that passed: its outcome, its temperature, the entries it trimmed, and in group 2 their offsets for range 2H. Its trims that the
command does not bring are free values (R224, R229). -/
def Dev.startPass (d : Dev) (k : Nat) (temp : Int) (trims : List Trim) : Dev :=
  let g := chainGroup k; let c := chainInGroup k
  let d1 := ((d.calOutcome k 0 0xF).put (F.CAL_CHAIN_SINCE k) 0).put (F.CAL_CHAIN_TEMP k) (ofSigned 8 temp)
  let words := trims.map (fun (x : Trim) => (x.entry, trimmed g (x.entry % 64) x.bias x.gain x.met))
  let r := d1.calg g
  let d2 := d1.setCalg g { r with
    temps := setAt r.temps c (some temp)
    spareTab := if c = 8 then words.foldl (fun l y => kvSet l y.1 y.2) r.spareTab else r.spareTab
    trims := if g = 2 then trims.foldl (fun l (x : Trim) => kvSet l (1000 * c + 100 + x.entry) (x.offset % 256)) r.trims else r.trims }
  if c = 8 then d2 else words.foldl (fun (x : Dev) y => x.wr (ptKey g c (y.1 % 64)) y.2) d2

/-- Start-up calibration of all 36 chains: steps that failed for good, steps repeated, chain temperatures and trimmed entries, by chain; the
budget's PEAK takes in the loads (R227, R229, R230). -/
def Dev.startCalibrate (d : Dev) (fails again : List (Fin 36 × Nat)) (temps : List Int) (trims : List (Fin 36 × Trim)) : Dev :=
  let fail := fun (k : Nat) => (fails.find? (fun f => f.1.val == k)).map (fun (f : Fin 36 × Nat) => f.2)
  let rep := fun (k : Nat) => (again.filter (fun f => f.1.val == k)).map (fun (f : Fin 36 × Nat) => f.2)
  let named := fun (k : Nat) => ((trims.filter (fun t => t.1.val == k)).map (fun (t : Fin 36 × Trim) => (t.2.entry, t.2.entry)))
  let loads := (List.range 4).map (fun g =>
    let f := fun (c : Nat) => fail (deviceChain g c)
    let r := fun (c : Nat) => rep (deviceChain g c)
    startLoads g (d.freeCtr + 1024 * g) (startTempos g f r) f r (fun c => named (deviceChain g c)))
  let d0 := { d with freeCtr := d.freeCtr + 4096, cal := d.cal.map (fun (c : CalGroup) => { c with trimSeed := d.freeCtr, trims := [] }) }.peak F.VAULT_RF_LOAD_PEAK_MW (startPeak loads)
  (List.range 36).foldl (fun (x : Dev) k =>
    match fail k with
    | some j => x.startFail k ((calItems (chainGroup k) (chainInGroup k)).getD j 5)
    | none => x.startPass k (temps.getD k 0) ((trims.filter (fun t => t.1.val == k)).map (fun (t : Fin 36 × Trim) => t.2))) d0

/-! ### Release (R101, R108, R126, R533) -/

/-- Minute bins, current first, after k minute boundaries. -/
def agedBins (k : Nat) (b : List Nat) : List Nat := (List.replicate (min k 60) 0 ++ b).take 60

/-- Where no record is valid, a slot's current bin holds its whole budget (R101). -/
def Dev.spentBins (d : Dev) (s : Nat) : List Nat :=
  ((match d.slotInForce s with
    | some r => if r.defined then r.budgetUs else 0
    | none => 0) :: List.replicate 59 0)

/-- Sources and counts of the event counters. -/
def Dev.restoreEvents (d : Dev) (l : List (Nat × Nat)) : Dev :=
  (List.range 64).foldl (fun (x : Dev) k =>
    let e := l.getD k (0x3BF, 0)
    (x.put (F.EVC_SRC_ID k) e.1).putPair (F.EVC_COUNT_LO_COUNT k) (F.EVC_COUNT_HI_COUNT k) e.2) d

/-- The record found is reported and used, or its absence is (R101, R102, R533). -/
def Dev.useRecord (d : Dev) : Dev :=
  match d.newestRec, d.newestRec.bind (fun n => d.recAt n) with
  | some slot, some r =>
    let lost := d.pw.aonLost
    let n := if lost then 0 else (d.aonCount + 2 ^ 48 - r.aon) % 2 ^ 48
    let k := (r.minutePos + n * 1000 / 8192) / 240000
    let d1 := ((d.put F.PWR_LAST_REC_VALID 1).put F.PWR_LAST_REC_SLOT slot).put F.PWR_LAST_REC_REASON r.reason
    let d2 := (d1.put F.PWR_REC_SEQ_SEQ r.seq).putPair F.PWR_AON_AT_SAVE_LO_COUNT F.PWR_AON_AT_SAVE_HI_COUNT r.aon
    let d3 := (List.range 8).foldl (fun (x : Dev) i =>
      let p := r.rings.getD i (0, 0)
      (x.put (F.HOST_RING_STATE_LAST_HSEQ i) p.1).put (F.HOST_RING_STATE_LAST_DSEQ i) p.2) d2
    let d4 := d3.restoreEvents r.events
    { d4 with
      systime := (r.systime * 2 ^ 32 + n * (1953125 * 2 ^ 26)) % 2 ^ 96
      ra := { d4.ra with duty := r.duty.map (fun b => if lost then b else agedBins k b) } }.raise 0x01 5
  | _, _ =>
    let d1 := d.restoreEvents []
    { d1 with systime := 0, ra := { d1.ra with duty := (List.range 32).map (fun s => d1.spentBins s) } }

/-- What is reported at release: DAMAGED key slots (R335), chains that failed (R230), and a PROMOTE that failed (R495). -/
def Dev.releaseReports (d : Dev) : Dev :=
  let d1 := if d.ks.slots.any (fun k => k.state == 3) then d.raise 0x0F 5 else d
  let faults := (List.range 4).map (fun g => d1.rd (R.CAL_FAULT g))
  let d2 := if faults.any (fun w => w % 256 != 0) then d1.raise 0x14 1 else d1
  let d3 := if faults.any (fun w => bit w 8) then d2.raise 0x14 2 else d2
  match d3.fw.failReport with
  | some s => ({ d3.updLast 4 0x13 s with fw := { d3.fw with failReport := none } }).raise 0x0C 3
  | none => d3

/-- UPD.STAT.MOVING: in the vehicle profile, MOTION as qualified and held (R490). -/
def Dev.movingNow (d : Dev) : Dev := d.put F.UPD_STAT_MOVING (b2n (d.fw.vehicle && d.pins.moved))

/-- The device is released: tempo 0 begins (R108, R126). -/
def Dev.releaseNow (d : Dev) (pwrupT : Nat) : Dev :=
  let d1 := { d.put F.BIST_RESET_CAUSE_PWRUP_T (min pwrupT 0xFFFF) with
    tempo := 0, cycle := 0, pw := { d.pw with phase := .run, trans := .none, nextCause := 0, aonValid := !d.is F.CLK_STAT_SLOW_FAULT } }
  let d2 := d1.useRecord.releaseReports
  let d3 := { d2 with
    ra := { d2.ra with admitLimit := d2.get F.SYS_OPENING_ADMIT }
    pw := { d2.pw with evcBuf := (List.range 64).map (fun k => (d2.get (F.EVC_SRC_ID k), d2.evcCount k)) } }
  let d4 := (d3.serviceChains 2 false).burstLevels.pawnFull.blankUpdate
  let d5 := ((d4.vsfpUpdate 0).vsfpUpdate 1).calConditions.idleSpares
  d5.movingNow.bgAssign

/-! ### Meanings -/

/-- POWER_UP: Qualify passes, with TEST_EN at a level, and a power-up begins (R105 to R107). -/
def execPowerUp (testEn : Bool) (s : State) : Host.Outcome State Fault Refusal :=
  runs s (fun d =>
    if d.pins.resetN && (d.pw.phase == .off || d.pw.phase == .standby || d.pw.phase == .resetHold) then
      { d with pins := { d.pins with testEn := testEn } }.powerUp
    else d)

/-- RESET_N_HIGH: RESET_N rises; in the reset hold a power-up starts, at once where VIN has qualified (R106). -/
def execResetNHigh (qualified testEn : Bool) (s : State) : Host.Outcome State Fault Refusal :=
  runs s (fun d =>
    let d1 := { d with pins := { d.pins with resetN := true, testEn := if d.pw.phase = .resetHold then testEn else d.pins.testEn } }
    if d1.pw.phase = .resetHold ∧ qualified = true then d1.powerUp else d1)

/-- RAILS_UP: the rails, the reference and the PLL are up, and Load begins (R70, R91, R107). -/
def execRailsUp (pllCycles : Fin 80001) (s : State) : Host.Outcome State Fault Refusal :=
  runs s (fun d =>
    if d.pw.phase = .rails then
      let d1 := ((d.put F.CLK_STAT_REF_OK 1).put F.CLK_STAT_PLL_LOCK 1).put F.CLK_PLL_LOCK_T_CYCLES pllCycles
      { d1 with pw := { d1.pw with phase := .load, vout3v3 := true } }
    else d)

/-- LOAD_COMPLETE: OTP and MRAM are loaded, with these copies of key slots (the second one, or the first) reading wrong, and self-test begins (R107, R335). -/
def execLoadComplete (flaws : List (Fin 4096 × Bool)) (s : State) : Host.Outcome State Fault Refusal :=
  runs s (fun d => if d.pw.phase = .load then (d.load flaws).setPhase .selftest else d)

/-- SELFTEST_SLICE: one slice of the power-up self-test (R112). -/
def execSelftestSlice (fault : Fin 9) (loc : BitVec 14) (ext : Bool) (cages : BitVec 2) (us : Nat) (s : State) :
    Host.Outcome State Fault Refusal :=
  runs s (fun d => if d.pw.phase = .selftest then d.selfSlice fault loc.toNat ext cages us else d)

/-- COPY_COMPLETE: the image is copied into lane SRAM and table memory is zero; with no image, SAFE (R109, R492). -/
def execCopyComplete (us : Nat) (s : State) : Host.Outcome State Fault Refusal :=
  runs s (fun d =>
    if d.pw.phase = .copy then
      let x := d.copyImage 2
      if x.2 then x.1.setPhase .laneStart else (x.1.itemFailed 1 0x09 0).toSafe us
    else d)

/-- The lanes start at the image's ENTRY, and the voters check one agreed output of each stage (R107, R492). -/
def Dev.laneStart (d : Dev) : Dev :=
  (List.range 5).foldl (fun (x : Dev) st => x.voteAgreed st) (d.lanesStart [0, 1, 2, 3] d.fw.runSlot)

/-- LANE_START: the lanes start in lockstep (R107). -/
def execLaneStart (s : State) : Host.Outcome State Fault Refusal :=
  runs s (fun d => if d.pw.phase = .laneStart then d.laneStart.setPhase .calibration else d)

/-- STARTUP_CALIBRATION: every chain has been calibrated: steps that failed their repeat too, and steps that passed it, each by chain and
number; chain temperatures, °C; and the entries trimmed, by chain (R228 to R230). Its steps and their load pass within the command
(DESIGN CHOICE, log entry 120). An erasure cut by a sag is completed beside it (R125). -/
def execStartupCalibration (steps : CalRepeats) (temps : List Int) (trims : List (Fin 36 × Trim)) (s : State) :
    Host.Outcome State Fault Refusal :=
  runs s (fun d =>
    if d.pw.phase = .calibration then
      let d1 := d.startCalibrate steps.fails steps.again temps trims
      let d2 := if d1.pw.eraseMark then d1.erased.put F.BIST_TEST_ZEROISED 1 else d1
      d2.setPhase .releaseWait
    else d)

/-- RELEASE: at a boundary after BANK_READY the device is released, so many slow ticks after the always-on count was last held,
and so many tenths of a ms after VIN rose (R108, R111). The bank's measurement of this start, if no command brought it, is taken with
free values (R93; DESIGN CHOICE, log entry 121). -/
def execRelease (ticks pwrupT : Nat) (s : State) : Host.Outcome State Fault Refusal :=
  runs s (fun d =>
    if d.pw.phase = .releaseWait ∧ d.is F.PWR_FLAGS_BANK_READY = true then
      let d1 := if d.pw.bankT.isNone then d.bankFree else d
      { d1 with pw := { d1.pw with aonAcc := d1.pw.aonAcc + ticks * aonTick } }.releaseNow pwrupT
    else d)

end Sys2Proof.Machine
end

