-- ==== Sys2Proof/Machine/Service.lean ====
section
/-! DEFINITION. The service port, staging, PROMOTE, the vehicle profile and the owner's change of key (R343, R351, R479 to R496). -/

namespace Sys2Proof.Machine

/-! ### The service port (R479 to R485) -/

/-- The status byte (R480). -/
def Dev.svcStatus (d : Dev) : Nat :=
  bits (d.rd R.SVC_STAT) 3 0 + 64 * b2n d.fw.session.isSome + 128 * b2n (d.pw.phase == .safe)

/-- The port answers transactions after release, not in SLEEP, while its page is enabled; and in SAFE every request, whatever
ENABLE is (R118). -/
def Dev.svcUp (d : Dev) : Bool := (d.awake && d.enabled 0x0D) || d.pw.phase == .safe

/-- The lengths that a request type takes; none for a type not listed (R484). -/
def svcLenOk (type len : Nat) : Bool :=
  match type with
  | 0x01 | 0x04 | 0x05 | 0x06 | 0x08 => len == 0
  | 0x02 => len == 4
  | 0x03 => decide (5 ≤ len) && decide (len ≤ 2048)
  | 0x07 => len == 16
  | 0x10 => len == 64
  | _ => false

/-- A REQUEST transaction of well-formed length, synchronisation and CRC (R482): the bytes after the operation byte. -/
def svcFrameOk (b : List Byte) : Bool :=
  let n := beField b 4 2
  decide (10 ≤ b.length) && beField b 0 2 == 0x5351 && decide (n ≤ 2048) && b.length == 10 + n
    && crc32 (b.take (6 + n)) == beField b (6 + n) 4

/-- The 24-byte self-test report (R119). The time to SAFE entry is a free value where SAFE was not entered. -/
def Dev.selfReport (d : Dev) : Dev × List Byte :=
  let (t, d1) := if d.pw.phase = .safe then (d.fw.safeUs, d) else let x := d.draw; (Config.freeNat x.1, x.2)
  let first := d.get F.BIST_RESULT_FIRST_ITEM
  (d1, beBytes 1 (d.get F.BIST_RESULT_OUTCOME) ++ beBytes 1 (d.get F.BIST_FAIL_LOC_CODE) ++ beBytes 1 (if first = 0xF then 0xFF else first)
    ++ beBytes 1 (d.get F.BIST_RESULT_FAILED) ++ beBytes 2 (d.get F.BIST_FAIL_LOC_LOC) ++ beBytes 2 (d.get F.BIST_RESULT_SLICES)
    ++ ((List.range 8).map (fun i => BitVec.ofNat 8 (d.get (F.BIST_ITEM_CODE i)))) ++ beBytes 4 0x1603256F ++ beBytes 4 t)

/-- BUSY for a PROMOTE: a session, another PROMOTE, a lane admission or a dry admission (R491). -/
def Dev.promoteBusy (d : Dev) : Bool := d.fw.session.isSome || d.admitting

/-- The conditions of R491 for a request of a type; they are tested when it is accepted. -/
def Dev.requestConds (d : Dev) (type : Nat) : List (Bool × Nat) :=
  match type with
  | 2 => d.updRefusals ++ [(d.fw.session.isSome || d.fw.promote.isSome, 0x06)]
  | 3 | 4 => d.updRefusals ++ [(d.fw.session.isNone, 0x03)]
  | 5 => [(d.fw.session.isNone, 0x03)]
  | 6 => d.updRefusals ++ [(d.promoteBusy || d.fw.promote.isSome, 0x06)]
  | _ => []

/-- An accepted request (R480, R482); one of the staging session restarts its idle time (R489). -/
def Dev.svcAccept (d : Dev) (type fseq crc : Nat) (payload : List Byte) : Dev :=
  let staging := d.fw.session.isSome && decide (3 ≤ type) && decide (type ≤ 5)
  let d1 := (((d.put F.SVC_STAT_FRAME_ERR 0).put F.SVC_STAT_OVERRUN 0).put F.SVC_STAT_RESP_READY 0).put F.SVC_STAT_BUSY 1
  let d2 := ((d1.put F.SVC_STAT_LAST_TYPE type).put F.SVC_STAT_LAST_FSEQ fseq).bump F.SVC_COUNT_REQUESTS 1
  let d3 := { d2 with fw := { d2.fw with
    request := some (type, fseq, payload), svcRan := false, response := none, latest := some (type, fseq, crc)
    blocked := oneCode (d.requestConds type), again := d.fw.latest == some (type, fseq, crc)
    sessionT := if staging then d.tempo else d2.fw.sessionT } }
  d3.raise 0x0D 0

/-- A repeat is answered with the stored response (R483). -/
def Dev.svcRepeat (d : Dev) : Dev :=
  let d1 := ((d.put F.SVC_STAT_BUSY 0).put F.SVC_STAT_RESP_READY 1).put F.SVC_STAT_LAST_STATUS (beField d.fw.stored 4 1)
  { d1 with fw := { d1.fw with request := none, response := some d1.fw.stored } }

/-- A request that no row of its own executes is answered: a repeat, one in SAFE, one of a type or length that R484 does not list; another is
left to its row. -/
def Dev.svcAnswer (d : Dev) (type n : Nat) : Dev :=
  if d.fw.again then d.svcRepeat
  else if d.pw.phase = .safe then
    let x := d.selfReport
    x.1.svcRespond 0x03 x.2
  else if !svcLenOk type n then d.svcRespond 0x01 []
  else d

/-- A REQUEST transaction: discarded, or accepted, and answered at once where no row executes it; during the PROMOTE pause every accepted
request waits, with BUSY set (R485). -/
def Dev.svcRequest (d : Dev) (b : List Byte) : Dev :=
  if d.fw.request.isSome then (d.put F.SVC_STAT_OVERRUN 1).bump F.SVC_COUNT_ERRORS 1 |>.raise 0x0D 1
  else if !svcFrameOk b then d.svcDiscard
  else
    let n := beField b 4 2
    let type := beField b 2 1; let fseq := beField b 3 1; let crc := beField b (6 + n) 4
    let d1 := d.svcAccept type fseq crc (slice b 6 n)
    if d.paused then d1 else d1.svcAnswer type n

/-- At the end of the PROMOTE pause a request that waited is answered, where no row executes it (R485). -/
def Dev.svcResume (d : Dev) : Dev :=
  match d.fw.request with
  | some (type, _, p) => if d.fw.svcRan then d else d.svcAnswer type p.length
  | none => d

/-- A request of a type is being processed; during the PROMOTE pause it waits (R485). -/
def Dev.svcRun (d : Dev) (type : Nat) (f : Dev → List Byte → Dev) : Dev :=
  match d.fw.request with
  | some (t, _, p) => if t = type ∧ d.awake = true ∧ d.is F.UPD_STAT_PAUSE = false ∧ d.fw.again = false then f d p else d
  | none => d

/-! ### Staging (R488 to R491) -/

/-- The staging session closes. -/
def Dev.sessionEnd (d : Dev) : Dev := { d.put F.UPD_PROGRESS_RECEIVED 0 with fw := { d.fw with session := none } }

/-- The slot that a staging session writes: the one that is not running (R488). -/
def Dev.stageSlot (d : Dev) : Nat := 1 - d.fw.runSlot % 2

/-- The codes that count as refusals of R491. -/
def isRefusal (code : Nat) : Bool := [0x0D, 0x0B, 0x0C, 0x06, 0x03].contains code

def Dev.stageBegin (d : Dev) (p : List Byte) : Dev :=
  let total := beField p 0 4
  let code := oneCode [(d.fw.blocked != 0, d.fw.blocked), (decide (total < 1280) || decide (2621696 < total), 0x01)]
  if code ≠ 0 then (if isRefusal code then d.updRefused else d).svcRespond code []
  else
    let s := d.stageSlot
    let d1 := d.setFwSlot s { d.fwSlot s with state := 1, bytes := [] }
    let d2 := { d1.put F.UPD_PROGRESS_RECEIVED 0 with fw := { d1.fw with session := some total, sessionT := d1.tempo } }
    d2.svcRespond 0 (beBytes 1 s ++ [0, 0, 0])

def Dev.stageData (d : Dev) (p : List Byte) : Dev :=
  let off := beField p 0 4
  let data := p.drop 4
  let got := d.get F.UPD_PROGRESS_RECEIVED
  match d.fw.session with
  | none =>
    let code := oneCode [(d.fw.blocked != 0, d.fw.blocked), (true, 0x03)]
    d.updRefused.svcRespond code []
  | some total =>
    let code := oneCode
      [(d.fw.blocked != 0, d.fw.blocked), (decide (off < got), 0x10), (decide (got < off), 0x09), (decide (total < off + data.length), 0x01)]
    if code ≠ 0 then (if isRefusal code then d.updRefused else d).svcRespond code []
    else
      let s := d.stageSlot
      let d1 := d.setFwSlot s { d.fwSlot s with bytes := (d.fwSlot s).bytes ++ data }
      (d1.put F.UPD_PROGRESS_RECEIVED (got + data.length)).svcRespond 0 (beBytes 4 (got + data.length))

def Dev.stageCommit (d : Dev) : Dev :=
  match d.fw.session with
  | none => d.updRefused.svcRespond (oneCode [(d.fw.blocked != 0, d.fw.blocked), (true, 0x03)]) []
  | some total =>
    if d.fw.blocked ≠ 0 then d.updRefused.svcRespond d.fw.blocked []
    else if d.get F.UPD_PROGRESS_RECEIVED ≠ total then d.svcRespond 0x03 []
    else
      let s := d.stageSlot
      let x := d.fwSlot s
      let bad := d.imageCode x.bytes
      if bad ≠ 0 then ((d.setFwSlot s { x with state := 3 }).sessionEnd.updRefused).svcRespond bad []
      else
        let o := d.fwSlot (1 - s)
        let q := ((if newer32 o.seq x.seq then o.seq else x.seq) + 1) % 2 ^ 32
        let y := { x with state := 2, seq := q, version := imgVersion x.bytes, epoch := imgEpoch x.bytes, handover := imgHandover x.bytes }
        let d1 := ((d.setFwSlot s y).sessionEnd.updLast 1 0 s).bump F.UPD_COUNT_STAGED 1
        (d1.raise 0x0C 0).svcRespond 0 (beBytes 1 s ++ [0, 0, 0] ++ beBytes 4 y.version ++ beBytes 4 q)

def Dev.stageAbort (d : Dev) : Dev :=
  if d.fw.session.isSome then d.sessionEnd.svcRespond 0 [] else d.updRefused.svcRespond 0x03 []

/-- OWNER_INIT (R343). -/
def Dev.ownerInit (d : Dev) (p : List Byte) : Dev :=
  if d.ks.owner.isSome then d.svcRespond 0x03 []
  else
    let d1 := { d with ks := { d.ks with owner := some (p.take 16), oseq := 0 }, pw := { d.pw with zeroised := false } }
    ((d1.put F.BIST_TEST_ZEROISED 0).raise 0x0F 8).svcRespond 0 []

/-! ### PROMOTE (R493 to R495) -/

/-- The slot that a PROMOTE puts into service, where it holds a newer VALID image than the running slot. -/
def Dev.promoteSlot (d : Dev) : Option Nat :=
  let s := d.stageSlot
  if (d.fwSlot s).state = 2 ∧ newer32 (d.fwSlot s).seq (d.fwSlot d.fw.runSlot).seq = true then some s else none

/-- PROMOTE's RESULT (R496). -/
def Dev.promoteResult (d : Dev) (s : Nat) : List Byte := beBytes 1 s ++ [0, 0, 0] ++ beBytes 4 (d.fwSlot s).version

/-- A PROMOTE is accepted or refused; `conds` are those of R491, as they stood when it was accepted, and `extra` those of its transport. -/
def Dev.promote (d : Dev) (src : Src) (conds extra : List (Bool × Nat)) : Dev :=
  let refusal := oneCode conds
  let slot := d.promoteSlot
  let moved := match slot with
    | some s => (d.fwSlot s).handover != (d.fwSlot d.fw.runSlot).handover
    | none => false
  let code := oneCode (conds ++ extra ++ [(slot.isNone, 0x11), (moved, 0x03)])
  if code ≠ 0 then (if code = refusal then d.updRefused else d).finish src code []
  else
    let p : Promote := { src := src, slot := slot.getD 0, verified := none, pausedAt := none, restarted := false, ready := none, held := none }
    { d with fw := { d.fw with promote := some p } }

/-- PROMOTE from a ring (opcode 0x0800). -/
def Dev.cmdPromote (d : Dev) (src : Src) (_ : Entry) : Dev :=
  d.promote src (d.requestConds 6) [(!d.enabled 0x0C, 0x03)]

/-- A PROMOTE ends with a code before its pause. -/
def Dev.promoteStop (d : Dev) (p : Promote) (code : Nat) : Dev :=
  ({ d with fw := { d.fw with promote := none } }.updRefused).finish p.src code []

/-- The holds of the pause are released (R493, R494): the writes held are done, the events held are set,
and the datagrams that waited are taken. -/
def Dev.promoteDone (d : Dev) (p : Promote) : Dev :=
  let d0 := d.put F.UPD_STAT_PAUSE 0
  let d1 := (d0.tab.heldWrites.foldl Dev.heldWrite { d0 with tab := { d0.tab with heldWrites := [] } }).updLast 2 0 p.slot
  let d2 := { d1 with fw := { d1.fw with promote := none, runSlot := p.slot }, heldEvents := [], heldView := [] }
  let d3 := d1.heldEvents.foldl (fun (x : Dev) (h : Nat × Nat) => x.raise h.1 h.2) d2
  let d4 := (d3.raise 0x0C 2).finish p.src 0 (d3.promoteResult p.slot)
  let dg := d4.bh.heldDg
  (dg.foldl (fun (x : Dev) (h : Nat × Nat × Nat × List Byte) => x.brzAny h) { d4 with bh := { d4.bh with heldDg := [] } }).svcResume

/-! ### Update commands (R496), motion (R490) -/

/-- UPD_POLICY (opcode 0x0801). -/
def Dev.cmdUpdPolicy (d : Dev) (src : Src) (e : Entry) : Dev :=
  let code := oneCode (d.updPolicyConds e)
  if code ≠ 0 then d.finish src code []
  else
    let d1 := { d with ks := { d.ks with oseq := e.p2 6 }, fw := { d.fw with reqOwner := e.p1 0 == 1, vehicle := e.p1 1 == 1 } }
    d1.movingNow.finish src 0 []

/-- UPD_INFO (opcode 0x0802). -/
def Dev.cmdUpdInfo (d : Dev) (src : Src) (_ : Entry) : Dev :=
  d.finish src 0 (beBytes 4 d.updStat ++ beBytes 4 (d.fwSlot 0).version ++ beBytes 4 (d.fwSlot 1).version
    ++ beBytes 4 ((d.newestSlot.map (fun n => (d.fwSlot n).seq)).getD 0))

/-- OWNER_REKEY (opcode 0x0405): where it is accepted, every session's completions leave and every session closes (R351). -/
def Dev.ownerRekey (d : Dev) (src : Src) (e : Entry) : Dev :=
  let (d1, ok) := d.cmdOwnerRekey src e
  let flushed := d1.sessions.foldl (fun (x : Dev) (u : Session) => x.flushCompl u.uid 4096) d1
  if ok then d1.sessions.foldl (fun (x : Dev) (u : Session) => x.closeWith u 2) flushed else d1

/-! ### Meanings -/

/-- POLL: the status byte is returned (R479, R480). -/
def execSvcPoll (s : State) : Host.Outcome State Fault Refusal :=
  runs s (fun d => if d.svcUp then d.emit (.svcByte d.svcStatus) else d)

/-- REQUEST: a transaction with these MOSI bytes, the operation first; an operation that is none of R479 ends as a framing
error (R479, R482). -/
def execSvcRequest (bytes : List Byte) (s : State) : Host.Outcome State Fault Refusal :=
  runs s (fun d =>
    if !d.svcUp then d
    else
      let d1 := d.emit (.svcByte d.svcStatus)
      if bytes.headD 0 = 0xA1 then d1.svcRequest (bytes.drop 1)
      else if bytes.headD 0 = 0x00 ∨ bytes.headD 0 = 0xA3 then d1 else d1.svcDiscard)

/-- READ: a transaction that clocks n bytes after its operation (R479, R480). -/
def execSvcRead (n : Nat) (s : State) : Host.Outcome State Fault Refusal :=
  runs s (fun d =>
    if !d.svcUp then d
    else
      let b := d.fw.response.getD []
      let d1 := (d.emit (.svcByte d.svcStatus)).emit (.svcFrame ((List.range n).map (fun k => b.getD k 0)))
      if d.fw.response.isSome ∧ b.length ≤ n then { d1.put F.SVC_STAT_RESP_READY 0 with fw := { d1.fw with response := none } } else d1)

/-- INFO: identity and slots are reported (R484). -/
def execSvcInfo (s : State) : Host.Outcome State Fault Refusal :=
  runs s (fun d => d.svcRun 0x01 (fun x _ => x.svcRespond 0 (beBytes 4 0x1603256F ++ beBytes 8 Config.brId.toNat ++ beBytes 4 x.updStat
    ++ beBytes 4 (x.slotInfo 0) ++ beBytes 4 (x.fwSlot 0).version ++ beBytes 4 (x.slotInfo 1) ++ beBytes 4 (x.fwSlot 1).version)))

/-- STAGE_BEGIN: a staging session opens (R489). -/
def execStageBegin (s : State) : Host.Outcome State Fault Refusal := runs s (fun d => d.svcRun 0x02 Dev.stageBegin)

/-- STAGE_DATA: bytes are written to the slot (R489). -/
def execStageData (s : State) : Host.Outcome State Fault Refusal := runs s (fun d => d.svcRun 0x03 Dev.stageData)

/-- STAGE_COMMIT: the slot is checked, and becomes VALID or FAILED (R489). -/
def execStageCommit (s : State) : Host.Outcome State Fault Refusal := runs s (fun d => d.svcRun 0x04 (fun x _ => x.stageCommit))

/-- STAGE_ABORT: the session closes (R489). -/
def execStageAbort (s : State) : Host.Outcome State Fault Refusal := runs s (fun d => d.svcRun 0x05 (fun x _ => x.stageAbort))

/-- STAGING_IDLE_TIMEOUT: IDLE_S seconds without a request of the session close it (R489). -/
def execStagingIdleTimeout (s : State) : Host.Outcome State Fault Refusal :=
  runs s (fun d =>
    if d.fw.session.isSome && decide (d.fw.sessionT + d.get F.UPD_SESSION_CFG_IDLE_S * 4000 ≤ d.tempo) then d.sessionEnd else d)

/-- SVC_PROMOTE: PROMOTE from the service port (R484, R493). -/
def execSvcPromote (s : State) : Host.Outcome State Fault Refusal :=
  runs s (fun d => d.svcRun 0x06 (fun x _ => if x.fw.svcRan then x else { x with fw := { x.fw with svcRan := true } }.promote .svc
    [(x.fw.blocked != 0, x.fw.blocked), (x.fw.promote.isSome, 0x06)] []))

/-- OWNER_INIT: the owner key is set (R343). -/
def execOwnerInit (s : State) : Host.Outcome State Fault Refusal := runs s (fun d => d.svcRun 0x07 Dev.ownerInit)

/-- SELFTEST: the self-test report is returned (R119, R484). -/
def execSelftest (s : State) : Host.Outcome State Fault Refusal :=
  runs s (fun d => d.svcRun 0x08 (fun x _ => let y := x.selfReport; y.1.svcRespond 0 y.2))

/-- PROMOTE: the ring command starts a PROMOTE (R493, R496). -/
def execPromote (ring : Fin 8) (hseq : Nat) (s : State) : Host.Outcome State Fault Refusal :=
  runs s (fun d => d.runRow ring hseq 0x0800 Dev.cmdPromote)

/-- PROMOTE_VERIFY_DONE: the staged slot has been read and checked (R493). -/
def execPromoteVerifyDone (s : State) : Host.Outcome State Fault Refusal :=
  runs s (fun d => match d.fw.promote with
    | some p =>
      if p.verified.isSome then d
      else
        let code := d.imageCode (d.fwSlot p.slot).bytes
        if code = 0 then { d with fw := { d.fw with promote := some { p with verified := some d.tempo } } }
        else (((d.setFwSlot p.slot { d.fwSlot p.slot with state := 3 }).updLast 2 code p.slot).promoteStop p code)
    | none => d)

/-- Verify ended in a tempo before this one. -/
def Promote.isVerified (p : Promote) (t : Nat) : Bool := match p.verified with
  | some v => decide (v < t)
  | none => false

/-- The new firmware has reached its first mark, in a tempo before this one. -/
def Promote.isReady (p : Promote) (t : Nat) : Bool := match p.ready with
  | some v => decide (v < t)
  | none => false

/-- PROMOTE_ENTRY: the first boundary after Verify; R491 is tested again, and the pause begins (R493). The outputs held from there on are also
the resignation buffer (R98). -/
def execPromoteEntry (s : State) : Host.Outcome State Fault Refusal :=
  runs s (fun d => match d.fw.promote with
    | some p =>
      if !p.isVerified d.tempo || p.pausedAt.isSome || !d.awake || d.cycle != 0 then d
      else
        let code := oneCode (d.updRefusals ++ [(d.promoteBusy, 0x06)])
        if code ≠ 0 then d.promoteStop p code
        else
          let d1 : Dev := { d with heldView := d.snapshotAll }
          { d1.put F.UPD_STAT_PAUSE 1 with fw := { d.fw with promote := some { p with pausedAt := some d.tempo, held := some d.bufferNow } } }
    | none => d)

/-- By boundary P + 4 the body has been copied into the code region of every live lane, and there they start at ENTRY (R493); the lanes of a device
in which none is live stay as they are. -/
def Dev.lanesPromoted (d : Dev) (slot : Nat) : Dev :=
  let body := (d.fwSlot slot).bytes.drop 256
  { d with ln := { d.ln with mem := d.ln.mem.zipIdx.map (fun (x : LaneMem × Nat) => if d.live.contains x.2 then x.1.loaded body else x.1) } }.lanesStart
    d.live slot

/-- PROMOTE_RESTART: at boundary P + 4 the live lanes start at ENTRY (R493). -/
def execPromoteRestart (s : State) : Host.Outcome State Fault Refusal :=
  runs s (fun d => match d.fw.promote with
    | some p => match p.pausedAt with
      | some t =>
        if t + 4 ≤ d.tempo ∧ d.cycle = 0 ∧ p.restarted = false then
          let x := d.lanesPromoted p.slot
          { x with fw := { x.fw with promote := some { p with restarted := true } }, ln := { x.ln with marked := false, lateMark := false } }
        else d
      | none => d
    | none => d)

/-- PROMOTE_READY: at the boundary after the new firmware's first mark, by P + 6, the holds are released (R493). -/
def execPromoteReady (s : State) : Host.Outcome State Fault Refusal :=
  runs s (fun d => match d.fw.promote with
    | some p => if p.isReady d.tempo && d.cycle == 0 then d.promoteDone p else d
    | none => d)

/-- PROMOTE_FAIL: no mark by boundary P + 6; the slot is FAILED and the device resigns (R495). -/
def execPromoteFail (s : State) : Host.Outcome State Fault Refusal :=
  runs s (fun d => match d.fw.promote with
    | some p => match p.pausedAt with
      | some t =>
        if t + 6 ≤ d.tempo ∧ p.ready = none then
          let d1 := d.setFwSlot p.slot { d.fwSlot p.slot with state := 3 }
          { d1 with fw := { d1.fw with failReport := some p.slot } }.resign 0x03
        else d
      | none => d
    | none => d)

/-- UPD_POLICY: REQ_OWNER and VEHICLE are stored (R496). -/
def execUpdPolicy (ring : Fin 8) (hseq : Nat) (s : State) : Host.Outcome State Fault Refusal :=
  runs s (fun d => d.runRow ring hseq 0x0801 Dev.cmdUpdPolicy)

/-- UPD_INFO: the update status is reported (R496). -/
def execUpdInfo (ring : Fin 8) (hseq : Nat) (s : State) : Host.Outcome State Fault Refusal :=
  runs s (fun d => d.runRow ring hseq 0x0802 Dev.cmdUpdInfo)

/-- OWNER_REKEY: the owner key is replaced and sessions close (R351). -/
def execOwnerRekey (ring : Fin 8) (hseq : Nat) (s : State) : Host.Outcome State Fault Refusal :=
  runs s (fun d => d.runRow ring hseq 0x0405 Dev.ownerRekey)

/-- MOTION_QUALIFY: MOTION has been high for 10 ms; in the vehicle profile the device is moving (R490). -/
def execMotionQualify (s : State) : Host.Outcome State Fault Refusal :=
  runs s (fun d =>
    let d1 := { d with pins := { d.pins with motion := true, moved := true } }
    if d1.released then d1.movingNow else d1)

/-- MOTION_HOLD_EXPIRY: MOTION fell, and HOLD_S seconds after that the device is no longer moving (R490). A fall that no other command has
reported is taken as now, so that its hold is still to run. -/
def execMotionHoldExpiry (s : State) : Host.Outcome State Fault Refusal :=
  runs s (fun d =>
    if d.pins.motion then d.motionEdge false
    else if d.pins.motionT + d.get F.UPD_MOTION_CFG_HOLD_S * 4000 ≤ d.tempo then
      let d1 := { d with pins := { d.pins with moved := false } }
      if d1.released then d1.movingNow else d1
    else d)

end Sys2Proof.Machine
end

