-- ==== Sys2Proof/Machine/HostRings.lean ====
section
/-! DEFINITION. Arrival, start and lateness of ring commands, completions on PCIe rings, RESYNC, and the delivery of interrupts
(R153 to R170, R446). -/

namespace Sys2Proof.Machine

/-! ### Commands on rings (R153 to R158) -/

/-- An entry arrives: fetched on a PCIe ring in its turn, while the link is up, or brought by a session on a Brioz Link ring. -/
def Dev.entryArrives (d : Dev) (n : Nat) (e : Entry) (via : Option Nat) : Dev :=
  if !d.awake || d.is F.UPD_STAT_PAUSE then d
  else if d.ringPcie n then
    if d.is F.PCIE_LINK_UP && d.fetching n && d.turnOf n && decide (d.inflight.length < 512) && via.isNone then
      { d with fetched := n }.offer n e none
    else d
  else if d.ringEn n then
    match d.sessions.find? (fun (s : Session) => via == some (4 * s.port + s.num)) with
    | some s => d.offer n e (some s.uid)
    | none => d
  else d

/-- LATEST_START applies to a command and has passed. -/
def Dev.tooLate (d : Dev) (e : Entry) : Bool := bit e.flags 1 && decide (e.latestStart < d.sysNs)

/-- Whether a command's completion is that of a transmission (R286). -/
def transmits (e : Entry) : Bool := [0x0300, 0x0320, 0x0321].contains e.opcode

/-- CAUSE of a command that would transmit and ends before it begins: LATE, or its port out of service (R286). -/
def lateCause (e : Entry) (code : Nat) : Nat := if code = 0x0F then 8 else if code = 0x03 ∧ e.opcode = 0x0300 then 5 else 0

/-- A command that is late before it begins ends with its one code (R152, R156, R286). -/
def Dev.endLate (d : Dev) (src : Src) (e : Entry) (code : Nat) : Dev :=
  let d1 := d.finish src code (if transmits e then txResult (lateCause e code) none none 0 0 else [])
  let notify := if e.opcode = 0x0300 then bit (e.p1 2) 6 else e.opcode == 0x0320 && bit (e.p1 12) 1
  if notify then d1.raise 0x16 0 else d1

/-- The commands of ring n accepted before one. -/
def Dev.earlier (d : Dev) (n hseq : Nat) : List Cmd :=
  (d.inflight.filter (fun c => c.ring == n)).takeWhile (fun c => c.e.hseq != hseq)

/-- Whether an accepted command may begin: in HSEQ order, and with FENCE only after every earlier one has completed (R156). -/
def Dev.mayBegin (d : Dev) (c : Cmd) : Bool :=
  let l := d.earlier c.ring c.e.hseq
  l.all (fun x => x.begun) && (!bit c.e.flags 2 || l.all (fun x => x.issued))

/-- A command counts as begun. -/
def Dev.begun (d : Dev) (n hseq : Nat) : Dev :=
  { d with inflight := d.inflight.map (fun (x : Cmd) => if x.ring == n && x.e.hseq == hseq then { x with begun := true } else x) }

/-- SYSTIME passes LATEST_START: a command not begun completes with LATE; a transmission not yet on air is late (R156, R286);
a frame in a flow queue is removed when it is next considered (R419). -/
def Dev.latestPass (d : Dev) (n hseq : Nat) : Dev :=
  match d.cmdOf n hseq with
  | none => d
  | some c =>
    if !d.tooLate c.e then d
    else if !c.begun then (d.begun n hseq).endLate (.ring n hseq) c.e ((d.begun n hseq).lateCode c.e)
    else match d.ra.txs.find? (fun t => t.src == .ring n hseq && t.stage != .onAir && t.stage != .rampDown && t.stage != .queued && !t.sent) with
      | some t => d.txLatestPassed t
      | none => d

/-- A ring over which the device may access host memory: enabled, with commands in flight, or with completions or replays to write. -/
def Dev.ringBusy (d : Dev) (n : Nat) : Bool := d.ringEn n || !d.ringIdle n || !(d.ring n).waiting.isEmpty

/-- A failed DMA stops ring n (R158): completions that waited are held only. -/
def Dev.ringFault (d : Dev) (n : Nat) : Dev :=
  let r := d.ring n
  let d1 := (d.put (F.HOST_RING_STAT_FAULT n) 1).setRing n { r with waiting := [], dead := true }
  (r.waiting.foldl (fun (x : Dev) (w : Waiting) => if w.own then x.retire n w.c.hseq else x) d1).raise 0x05 (8 + n)

/-- RESYNC (opcode 0x0003) for the session that carried it (R162). Of a ring bound to Brioz Link, a RESYNC that no session carried sends no
replay, and counts them all the same (DESIGN CHOICE, log entry 143). -/
def Dev.cmdResync (d : Dev) (src : Src) (e : Entry) : Dev :=
  let n := e.p1 0
  if 7 < n then d.finish src 0x01 []
  else
    let sess : Option Nat := match src with
      | .ring m h => (d.cmdOf m h).bind (fun c => c.sess)
      | _ => none
    let own : Bool := match src with
      | .ring m _ => m == n
      | _ => false
    let last := d.lastDseq n
    let oldest := d.heldOldest n
    let fr := e.p2 1
    let older := decide (32768 ≤ (fr + 65536 - oldest) % 65536)
    let ahead := (fr + 2 * 65536 - (last + 1)) % 65536
    let off := older || (decide (0 < ahead) && decide (ahead < 32768))
    let start := if off then oldest else fr
    let count := (last + 1 + 65536 - start) % 65536
    let l := (d.ring n).held.filter (fun c => decide ((c.dseq + 65536 - start) % 65536 < count))
    let d1 := l.foldl (fun (x : Dev) (c : Compl) => x.deliver n ⟨{ c with cflags := 1 }, false, sess⟩ (x.sessionOpen sess)) d
    let old' := if own then d.nextOldest n else oldest
    d1.finish src (if off || l.length != count then 0x11 else 0) (beBytes 2 l.length ++ beBytes 2 old' ++ beBytes 2 last)

/-! ### Interrupt delivery (R164 to R166) -/

/-- Source s is due for a delivery: pending and armed. -/
def Dev.dueSource (d : Dev) (s : Nat) : Bool := d.srcPending s && !d.disarmed.contains s

/-- Sources due on a vector. -/
def Dev.vectorDue (d : Dev) (v : Nat) : List Nat :=
  (List.range 64).filter (fun s => d.get (F.IRQ_VEC_VECTOR s) == v && d.dueSource s)

/-- The mask bit of a vector in the MSI-X table (R170). -/
def Dev.vectorMasked (d : Dev) (v : Nat) : Bool := bit (d.rd (0x6000 + 0x800 + 16 * v + 12)) 0

/-- A delivery on a vector: posted, or kept in the pending-bit array while it is masked or cannot be posted; within the gap it
waits, and its pending bit too (R166; the latter is a DESIGN CHOICE, log entry 116). A vector with nothing due has no pending bit. -/
def Dev.postVector (d : Dev) (v : Nat) (canPost : Bool) : Dev :=
  let l := d.vectorDue v
  if l.isEmpty then { d with pba := d.pba.filter (fun x => x != v) }
  else if d.gaps.contains v then d
  else if !canPost || !d.is F.PCIE_LINK_UP || d.vectorMasked v then
    { d with pba := if d.pba.contains v then d.pba else d.pba ++ [v] }
  else
    { d.emit (.msix v l) with
      disarmed := d.disarmed ++ l, pba := d.pba.filter (fun x => x != v)
      gaps := if d.get F.IRQ_MSIX_GAP_US = 0 then d.gaps else d.gaps ++ [v] }

/-- IRQ_PEND of the page that feeds a source: the first one with such a bit set. -/
def Dev.feedingPend (d : Dev) (s : Nat) : Nat :=
  match (srcPages s).find? (fun p => (List.range 32).any (fun b => srcOf p b == some s && bit (d.pend p) b)) with
  | some p => d.pend p
  | none => match (srcPages s).head? with
    | some p => d.pend p
    | none => 0

def Dev.foldCount (d : Dev) (s : Nat) : Nat := ((d.bh.evFold.find? (fun x => x.1 == s)).map (fun x => x.2)).getD 0

/-- The event record of a source (R446). -/
def Dev.eventRecord (d : Dev) (s : Nat) : List Byte :=
  beBytes 1 s ++ beBytes 1 (min 255 (d.foldCount s)) ++ [0, 0] ++ beBytes 4 (d.feedingPend s) ++ beBytes 8 d.sysNs
    ++ beBytes 5 (d.sysTempo * 16) ++ [0, 0, 0]

/-- Brioz Link delivery of a source (R166): one record for every subscribed session, or a further delivery folded into the next
record. -/
def Dev.eventSend (d : Dev) (s : Nat) : Dev :=
  let on := bit (d.rd (if s < 32 then R.IRQ_BRZ_EN_A else R.IRQ_BRZ_EN_B)) (s % 32)
  let subs := d.sessions.filter (fun u => bit u.evSub 0)
  let fresh := d.dueSource s
  if !on || subs.isEmpty then d
  else if d.bh.evSent.contains s then
    if fresh then
      { d with disarmed := d.disarmed ++ [s],
               bh := { d.bh with evFold := (s, d.foldCount s + 1) :: d.bh.evFold.filter (fun x => x.1 != s) } }
    else d
  else if fresh || decide (0 < d.foldCount s) then
    let r := d.eventRecord s
    { d with
      disarmed := if fresh then d.disarmed ++ [s] else d.disarmed
      bh := { d.bh with
        events := d.bh.events ++ subs.map (fun (u : Session) => (u.uid, r))
        evSent := d.bh.evSent ++ [s], evFold := d.bh.evFold.filter (fun x => x.1 != s) } }
  else d

/-! ### Meanings -/

/-- COMMAND_ENTRY: an entry of 64 bytes is fetched on a ring, or arrives by a session (4 × port + number) (R153 to R156). -/
def execCommandEntry (ring : Fin 8) (bytes : List Byte) (via : Option Nat) (s : State) : Host.Outcome State Fault Refusal :=
  runs s (fun d => d.entryArrives ring (Entry.ofBytes bytes) via)

/-- LATEST_START_PASS: SYSTIME passes LATEST_START (R156). -/
def execLatestStartPass (ring : Fin 8) (hseq : Nat) (s : State) : Host.Outcome State Fault Refusal :=
  runs s (fun d => d.latestPass ring hseq)

/-- COMPLETION_WRITE: a waiting completion is written, once the completion ring has space (R157). -/
def execCompletionWrite (ring : Fin 8) (s : State) : Host.Outcome State Fault Refusal :=
  runs s (fun d =>
    let r := d.ring ring
    match r.waiting with
    | w :: rest => if d.ringPcie ring && !r.dead && d.cqRoom ring then (d.setRing ring { r with waiting := rest }).cqWrite ring w else d
    | [] => d)

/-- RING_DMA_ERROR: a DMA access of a PCIe ring that is enabled, or that still writes completions, fails (R158): an
uncorrectable error of the link (R461, DEDUCED, log entry 140). -/
def execRingDmaError (ring : Fin 8) (s : State) : Host.Outcome State Fault Refusal :=
  runs s (fun d => if d.awake && d.ringBusy ring && !(d.ring ring).dead && d.ringPcie ring then (d.bump F.PCIE_ERR_UNCORR 1).ringFault ring else d)

/-- NOP: the command completes (R161). -/
def execNop (ring : Fin 8) (hseq : Nat) (s : State) : Host.Outcome State Fault Refusal :=
  runs s (fun d => d.runRow ring hseq 0x0000 (fun x src _ => x.finish src 0 []))

/-- RESYNC: held completions are replayed (R162). -/
def execResync (ring : Fin 8) (hseq : Nat) (s : State) : Host.Outcome State Fault Refusal :=
  runs s (fun d => d.runRow ring hseq 0x0003 Dev.cmdResync)

/-- MSIX_POST: a delivery on a vector falls due; `canPost` says that the endpoint can post a message (R166). -/
def execMsixPost (vector : Fin 64) (canPost : Bool) (s : State) : Host.Outcome State Fault Refusal :=
  runs s (fun d => if d.awake then d.postVector vector canPost else d)

/-- MSIX_GAP_EXPIRY: the gap on a vector ends, and a delivery that fell due in it is posted (R166). -/
def execMsixGapExpiry (vector : Fin 64) (canPost : Bool) (s : State) : Host.Outcome State Fault Refusal :=
  runs s (fun d => if d.awake then { d with gaps := d.gaps.filter (fun x => x != vector.val) }.postVector vector canPost else d)

/-- EVENT_RECORD_SEND: a Brioz Link event record of a source (R166). -/
def execEventRecordSend (source : Fin 64) (s : State) : Host.Outcome State Fault Refusal :=
  runs s (fun d => if d.awake then d.eventSend source else d)

end Sys2Proof.Machine
end

