-- ==== Sys2Proof/Machine/Checks.lean ====
section
/-! DEFINITION. When a register write is rejected, and with which code (R19, R20, R24, R52, R139 to R141, and the conditions of
each page's chapter). -/

namespace Sys2Proof.Machine

/-! ### Register pairs (R7, R8) -/

/-- Whether an address is the NAME_LO of a pair that software writes. -/
def pairLo (a : Nat) : Bool :=
  let off := a % 0x1000
  match a / 0x1000 with
  | 0x01 => off == 0x04C
  | 0x05 => decide (0x100 ≤ off) && decide (off < 0x300) && ((off - 0x100) % 0x40 == 0x04 || (off - 0x100) % 0x40 == 0x0C)
  | 0x08 => off == 0x040 || (decide (0x100 ≤ off) && decide (off < 0x900)
      && ([0x04, 0x0C, 0x40, 0x48, 0x50, 0x58].contains ((off - 0x100) % 0x80)))
  | 0x15 => decide (0x0A0 ≤ off) && decide (off < 0x120) && (off - 0x0A0) % 0x20 == 0x04
  | 0x30 | 0x31 | 0x33 => off == 0x048
  | _ => false

def pairHi (a : Nat) : Bool := decide (4 ≤ a) && pairLo (a - 4)

/-- The half staged for NAME_LO, or the half as it stands (R8). -/
def Dev.stagedLo (d : Dev) (lo : Nat) : Nat :=
  ((d.staged.find? (fun x => x.1 == lo)).map (fun x => x.2)).getD (d.show (d.shownKey lo))

/-! ### The commits of the staged tables -/

/-- Whether the band of width b around f lies in the range of a PHY on a group (R195, R245, R248). -/
def inRange (g phy f b : Nat) : Bool :=
  let within (e : Nat × Nat) : Bool := decide (2 * e.1 + b ≤ 2 * f) && decide (2 * f + b ≤ 2 * e.2)
  within (rangeEdges g false) || (g == 2 && isSun phy && within (rangeEdges 2 true))

/-- Whether a listen entry may have a PHY on its group (R248). -/
def listenPhy (phy g : Nat) : Bool := phyOnGroup phy g || ((phy == 0x28 || phy == 0x29) && g == 2)

/-- The staged listen entry as its fields (R247). -/
def Dev.stagedEntry (d : Dev) (k hi lo : Nat) : Nat := bits (d.rd (R.RXP_LDATA k)) hi lo

/-- The first RANGE condition of a listen entry: its PHY and what the PHY allows (R248, R270). -/
def Dev.listenPhyBad (d : Dev) (g : Nat) : Bool :=
  let phy := d.stagedEntry 0 15 8
  let deliver := d.stagedEntry 0 29 28
  let shape := d.stagedEntry 0 7 7
  let fec := d.stagedEntry 0 6 5
  let coded := decide (0x10 ≤ phy) && decide (phy ≤ 0x14)
  !listenPhy phy g || (deliver != 2 && deliver != (if phy ≤ 0x15 then 0 else 1)) || (isModeN phy && shape == 0)
    || ([0x01, 0x15, 0x28, 0x29].contains phy && shape == 1) || decide (1 < fec) || (!coded && fec != 0)
    || (!coded && phy != 0x28 && d.stagedEntry 0 4 4 == 1)

/-- The second RANGE condition: channels, and the synchronising word's parameters (R247, R255, R270). -/
def Dev.listenFieldBad (d : Dev) (g : Nat) : Bool :=
  let phy := d.stagedEntry 0 15 8
  let count := d.stagedEntry 3 6 0
  let spacing := d.rd (R.RXP_LDATA 2)
  let len := d.stagedEntry 3 13 8
  let snr := toSigned 8 (d.stagedEntry 6 7 0)
  count == 0 || decide (64 < count) || (spacing == 0 && decide (1 < count))
    || (List.range count).any (fun i => !inRange g phy (d.rd (R.RXP_LDATA 1) + i * spacing) (phyBandwidth phy))
    || decide (len < 8) || decide (32 < len) || decide (min 4 (len / 8) < d.stagedEntry 0 2 0)
    || decide (d.stagedEntry 3 21 16 < 8) || decide (d.stagedEntry 3 31 22 < 16) || decide (snr < -40) || decide (40 < snr)

/-- The staged entry, when it is enabled, shares a port, a PHY code and an overlapping band with another enabled entry. -/
def Dev.listenOverlaps (d : Dev) (g i : Nat) : Bool :=
  let phy := d.stagedEntry 0 15 8
  let b := phyBandwidth phy
  let mine := (List.range (d.stagedEntry 3 6 0)).map (fun c => d.rd (R.RXP_LDATA 1) + c * d.rd (R.RXP_LDATA 2))
  d.stagedEntry 0 31 31 == 1 && (List.range 16).any (fun j =>
    j != i && d.leEn g j && d.lePhy g j == phy && (d.stagedEntry 0 23 16 &&& bits (d.leWord g j 0) 23 16) != 0
      && (List.range (d.leCount g j)).any (fun c => mine.any (fun f =>
          decide (f < d.leFreq g j c + b) && decide (d.leFreq g j c < f + b))))

/-- A port stream would hold more than 256 sentries. -/
def Dev.listenFull (d : Dev) (g i : Nat) : Bool :=
  d.stagedEntry 0 31 31 == 1 && (List.range 8).any (fun s =>
    bit (d.stagedEntry 0 23 16) s && decide (256 < d.stagedEntry 3 6 0 +
      ((List.range 16).map (fun j => if j != i && d.leEn g j && bit (d.leWord g j 0) (16 + s) then d.leCount g j else 0)).sum))

/-- RXP.LCTRL.COMMIT (R270). -/
def Dev.listenConds (d : Dev) : List (Bool × Nat) :=
  let g := d.get F.RXP_LSEL_GROUP
  let i := d.get F.RXP_LSEL_ENTRY
  [(d.rx.pending.isSome, 0x06), (d.listenPhyBad g || d.listenFieldBad g || d.listenOverlaps g i, 0x01), (d.listenFull g i, 0x07)]

/-- The staged descriptor of a MAC page as its fields (R291). -/
def Dev.stagedPan (d : Dev) (g k hi lo : Nat) : Nat := bits (d.rd (R.MAC_PAN_DATA g k)) hi lo

/-- The RANGE conditions of a descriptor (R328). -/
def Dev.panBad (d : Dev) (g : Nat) : Bool :=
  let w := d.stagedPan g
  let f := w 1 31 0
  let phy := w 2 31 24
  w 0 25 24 != g || decide (1 < w 0 30 29) || decide (3 < w 0 28 26) || !phyOnGroup phy g || isModeN phy
    || ((d.slotFor g f).bind (fun s => (d.slotInForce s).bind (fun r => r.channel f))).isNone
    || (w 2 15 0 != 0 && decide (w 2 15 0 ≤ w 6 15 0)) || (decide (1 ≤ w 5 31 16) && decide (w 5 31 16 ≤ 3))
    || decide (1000 < w 5 31 16) || (w 3 15 0 == 0 && decide (0 < w 3 31 16)) || (w 2 19 19 == 1 && w 2 18 18 == 0)
    || w 2 23 20 != 0

/-- MAC_g.PAN_CTRL.COMMIT (R328). -/
def Dev.panConds (d : Dev) (g : Nat) : List (Bool × Nat) :=
  let p := d.get (F.MAC_PAN_SEL_PAN g)
  let blocks := 2 ^ 32 * d.rd (R.MAC_PAN_DATA g 7) + d.rd (R.MAC_PAN_DATA g 8)
  [((d.ra.panPending.getD g none).isSome, 0x06),
   (d.panBad g || (d.stagedPan g 0 31 31 == 1 && (List.range 128).any (fun q =>
      q != p && d.panEn q && d.panGroup q == g && d.panId q == d.stagedPan g 0 15 0)), 0x01),
   (d.tab.blockMap.any (fun x => x.pan == p && !bit blocks x.block), 0x03)]

/-- TXP.SET_CTRL.COMMIT: the staged set is checked (R275, R279, R289). -/
def Dev.setConds (d : Dev) : List (Bool × Nat) :=
  let ws := d.ra.staging
  let bad :=
    if d.get F.TXP_SET_SEL_KIND = 1 then
      ws.any (fun w => bit w 31 && decide (toSigned 8 (bits w 15 8) < toSigned 8 (bits w 7 0)))
    else decide ((ws.map (fun w => toSigned 18 (bits w 17 0))).sum ≤ 0)
  [(d.ra.setPending.isSome, 0x06), (bad, 0x01)]

/-- A write of SEC.PAN_SEC_p (R354). -/
def Dev.panSecConds (d : Dev) (p data : Nat) : List (Bool × Nat) :=
  let slot := bits data 27 16
  let level := bits data 14 12
  let en := bit data 31
  let levels := ((d.keySlot slot).map (fun k => k.levels)).getD 0
  [((en && !d.activeSlot slot [2] p) || (level != 0 && !en) || (level != 0 && en && !bit levels level), 0x03)]

/-- The sources that an event counter may count: those of the list of R475, and 0x3BF for none. -/
def legalEvent (id : Nat) : Bool :=
  id == 0x3BF || decide (id % 64 < [3, 16, 6, 18, 6, 4, 15, 6, 6, 6, 3, 48, 26, 4, 0, 64].getD (id / 64) 0)

/-! ### Conditions stated for one register -/

/-- Bits that a register's chapter reserves beside those of its field table (R217, R221, R247, R279, R289, R291). -/
def Dev.extraReserved (d : Dev) (p off data : Nat) : Bool :=
  match p with
  | 0x0B =>
    if off = 0x080 then bits data 28 19 != 0
    else if off = 0x0A4 then bits data 15 0 != 0
    else decide (0x0B4 ≤ off) && decide (off < 0x0C0) && data != 0
  | 0x10 | 0x11 | 0x13 => off == 0x040 && bits data 17 16 != 0
  | 0x15 =>
    if off = 0x080 then bits data 27 24 != 0 || bit data 3
    else if off = 0x08C then bits data 15 14 != 0 || bit data 7
    else off == 0x098 && bits data 31 8 != 0
  | 0x16 => off == 0x04C && (if d.get F.TXP_SET_SEL_KIND = 1 then bits data 30 24 != 0 else bits data 31 18 != 0)
  | 0x18 | 0x19 | 0x1A | 0x1B => off == 0x09C && bits data 31 28 != 0
  | _ => false

/-- A command ring's registers (R157, R158, R168). -/
def Dev.hostConds (d : Dev) (off data : Nat) : List (Bool × Nat) :=
  if off < 0x100 ∨ 0x300 ≤ off then []
  else
    let n := (off - 0x100) / 0x40
    let held := d.ringEn n || !d.ringIdle n
    match (off - 0x100) % 0x40 with
    | 0x00 => [(b2n (bit data 1) != d.get (F.HOST_RING_CFG_TRANSPORT n) && held, 0x03)]
    | 0x04 | 0x0C => [(data % 4096 != 0, 0x05), (held, 0x03)]
    | 0x08 | 0x10 => [(held, 0x03)]
    | 0x14 => [(!d.ringPcie n, 0x03), (decide (4096 < (data % 65536 + 65536 - d.lastHseq n) % 65536), 0x01)]
    | 0x18 => [(!d.ringPcie n, 0x03),
               (decide (4096 < (d.get (F.HOST_CQ_STATE_CQ_WRITTEN n) + 65536 - data % 65536) % 65536), 0x01)]
    | _ => []

/-- A timer unit's registers (R464, R473, R477). -/
def Dev.timConds (d : Dev) (off data : Nat) : List (Bool × Nat) :=
  if off = 0x044 then [(d.is F.PTP_SERVO_LOCKED, 0x03)]
  else if off = 0x04C then [(!d.enabled 0x08, 0x03)]
  else if off < 0x100 then []
  else
    let n := (off - 0x100) / 0x80
    let o := (off - 0x100) % 0x80
    if o = 0x14 then [((List.range 4).any (fun c => chMode data c == 1 && chEdge data c == 0), 0x01)]
    else if 0x40 ≤ o ∧ o < 0x60 then [(chMode (d.rd (R.TIM_CH_CFG n)) ((o - 0x40) / 8) == 1, 0x03)]
    else []

/-- The reception page's registers (R265, R266, R270). -/
def Dev.rxpConds (d : Dev) (off data : Nat) : List (Bool × Nat) :=
  if 0x048 ≤ off ∧ off < 0x058 then
    let g := (off - 0x048) / 4
    let others := ((List.range 4).map (fun h => if h = g then 0 else d.get (F.RXP_POOL_CFG_RESERVE h))).sum
    [(decide (bits data 27 16 < bits data 9 0) || decide (2048 < others + bits data 9 0), 0x01)]
  else if off = 0x070 then (if bit data 0 then d.listenConds else [])
  else if 0x0A0 ≤ off ∧ off < 0x120 then
    let n := (off - 0x0A0) / 0x20
    let en := d.is (F.RXP_RXR_CFG_EN n)
    match (off - 0x0A0) % 0x20 with
    | 0x00 =>
      let old := d.rd (R.RXP_RXR_CFG n)
      [(en && (bits data 10 8 != bits old 10 8 || bits data 6 4 != bits old 6 4 || bit data 1 != bit old 1), 0x03)]
    | 0x04 => [(data % 4096 != 0, 0x05), (en, 0x03)]
    | 0x08 => [(en, 0x03)]
    | 0x10 => [(en || !d.rxPcie n, 0x03),
               (decide (4096 < (d.get (F.RXP_RXR_PROD_COUNT n) + 65536 - data % 65536) % 65536), 0x01)]
    | _ => []
  else []

/-- A configuration register of a flow, a port-class or an egress queue, whose changes await the boundary (R413). -/
def deferred (p off : Nat) : Bool :=
  (p == 0x29 && decide (0x044 ≤ off) && decide (off ≤ 0x058)) || (p == 0x2A && decide (0x044 ≤ off) && decide (off ≤ 0x04C))
    || (p == 0x2B && decide (0x044 ≤ off) && decide (off ≤ 0x050))

/-- At most 1,024 entries hold pending changes (R413). -/
def Dev.deferredConds (d : Dev) (p off data : Nat) : List (Bool × Nat) :=
  let i := keyEntry (d.shownKey (p * 0x1000 + off))
  [(decide (1024 ≤ d.pendEntries.length) && !d.pendEntries.contains (p, i), 0x06),
   (p == 0x29 && off == 0x058 && decide (bits data 15 0 < bits data 31 16), 0x01)]

/-- The conditions that each page's chapter states for a register at offset `off`. -/
def Dev.pageConds (d : Dev) (p off data : Nat) : List (Bool × Nat) :=
  match p with
  | 0x01 => if off = 0x040 then [(data % 4 == 2 && d.is F.CLK_STAT_SLOW_FAULT, 0x03)] else []
  | 0x03 =>
    if off = 0x06C ∧ bit data 1 = true then
      [(d.ks.lock, 0x0D), (!d.pins.testEn || !(match d.pw.armedAt with
        | some t => decide (d.monoCycles ≤ t + 400000)
        | none => false), 0x03)]
    else []
  | 0x04 =>
    if off = 0x058 then [(bit data 0 && d.admitChoice.isNone, 0x03)]
    else if off = 0x05C then [((bit data 31 && d.dryRefused (bits data 25 24)) || (bit data 30 && d.ln.dry.isNone), 0x03)]
    else []
  | 0x05 => d.hostConds off data
  | 0x07 => if 0x100 ≤ off ∧ (off - 0x100) % 0x10 = 0 then [(!legalEvent (data % 1024), 0x01)] else []
  | 0x08 => d.timConds off data
  | 0x0F => if 0x200 ≤ off ∧ off < 0x400 then d.panSecConds ((off - 0x200) / 4) data else []
  | 0x15 => d.rxpConds off data
  | 0x16 =>
    match off with
    | 0x040 => [(!phyOnGroup (bits data 7 0) (bits data 9 8), 0x01)]
    | 0x044 => [((decide (8 ≤ bits data 7 4) && bits data 7 4 != 15) || (decide (8 ≤ bits data 3 0) && bits data 3 0 != 15), 0x01)]
    | 0x048 => [(bit data 28 && decide (15 < bits data 5 0), 0x01)]
    | 0x050 => if bit data 0 then d.setConds else []
    | _ => []
  | 0x18 | 0x19 | 0x1A | 0x1B =>
    match off with
    | 0x040 => [(decide (bits data 15 12 < bits data 19 16), 0x01)]
    | 0x044 => [(decide (bits data 19 8 ≤ bits data 31 20), 0x01)]
    | 0x0A8 => if bit data 0 then d.panConds (p - 0x18) else []
    | _ => []
  | 0x28 =>
    if off = 0x044 then [(decide (192512 < bits data 17 0 + d.get F.QSCH_BUF_RES_UP_CELLS), 0x01)]
    else if off = 0x048 then [(decide (192512 < bits data 17 0 + d.get F.QSCH_BUF_RES_DOWN_CELLS), 0x01)]
    else []
  | 0x29 | 0x2A | 0x2B => if deferred p off then d.deferredConds p off data else []
  | 0x30 | 0x31 => if off = 0x040 then [(bit data 12 && (bits data 11 0 == 0 || bits data 11 0 == 4095), 0x01)] else []
  | _ => []

/-- CTRL (R136, R139, R428, R461, R502): pages whose block is never disabled, the windows of QSCH, and blocks that are
occupied. -/
def Dev.ctrlConds (d : Dev) (p data : Nat) : List (Bool × Nat) :=
  let fixed := [0x00, 0x01, 0x02, 0x04, 0x05, 0x06, 0x0B, 0x34].contains p
  let window := decide (0x29 ≤ p) && decide (p ≤ 0x2F)
  [(decide (7 < data), 0x02),
   ((fixed && (bit data 1 || !bit data 0)) || (window && (bit data 1 || bit data 0 != d.enabled 0x28)), 0x03),
   (bit data 1 && ((p == 0x0C && (d.fw.promote.isSome || (match d.fw.request with
      | some (t, _, _) => t == 0x04
      | none => false))) || (p == 0x0D && d.fw.request.isSome)), 0x06)]

/-- The bits of IRQ_RAW, IRQ_MASK and IRQ_PEND that a page defines: those that feed a source (R136); the others are reserved. -/
def irqBits (p : Nat) : Nat := ((List.range 32).map (fun b => if (srcOf p b).isSome then 2 ^ b else 0)).sum

/-- The header registers (R19, R136). -/
def Dev.headerConds (d : Dev) (p off data : Nat) : List (Bool × Nat) :=
  let allowed : Nat := match off with
    | 0x000 => 0x00FFFFFF
    | 0x004 => 0xFFFF
    | 0x00C => if p = 0x04 then 7 else 0xFFFFFF07
    | 0x010 | 0x014 | 0x018 => irqBits p
    | 0x01C => 0xFFFF01FF
    | 0x020 => 0x03FFFFFF
    | _ => 0xFFFFFFFF
  if off = 0x008 then d.ctrlConds p data else [(merge32 allowed 0 data != 0, 0x02)]

/-- What the field table alone rejects: a reserved bit, a value outside its range, a change of a closed LK field (R19, R20,
R141). -/
def Dev.fieldConds (d : Dev) (k : Nat) (r : RegDesc) (data : Nat) : List (Bool × Nat) :=
  let rw := r.fields.filter (fun f => f.acc == .rw || f.acc == .lk)
  [(merge32 (r.mask (fun _ => true)) 0 data != 0, 0x02),
   (rw.any (fun f => decide (bits data f.hi f.lo < f.min) || decide (f.max < bits data f.hi f.lo)), 0x01),
   (d.ks.lock && rw.any (fun f => f.acc == .lk && bits data f.hi f.lo != bits (d.rd k) f.hi f.lo), 0x04)]

/-- The code of a register write: 0 where it is accepted (R24, R141). -/
def Dev.writeCode (d : Dev) (a data : Nat) (whole : Bool) : Nat :=
  let p := a / 0x1000
  let off := a % 0x1000
  let here : List (Bool × Nat) :=
    if !pageAssigned p then [(true, 0x01)]
    else if off ≤ 0x028 then d.headerConds p off data
    else if msixTable a || msixPba a then []
    else match findReg p off with
      | none => [(true, 0x01)]
      | some r => d.fieldConds (d.shownKey a) r data ++ [(d.extraReserved p off data, 0x02)] ++ d.pageConds p off data
  oneCode ([(!whole || a % 4 != 0, 0x05), (d.resetting.contains p || d.is F.UPD_STAT_PAUSE, 0x06)] ++ here)

end Sys2Proof.Machine
end

