-- ==== Sys2Proof/Machine/Effects.lean ====
section
/-! DEFINITION. What an accepted register write does: the fields it stores, its page's effects, soft resets, and the bus write
as a whole (R8, R137 to R143, and the effects each page's chapter states). -/

namespace Sys2Proof.Machine

/-! ### Storing (R8, R20, R143) -/

/-- RW and LK fields take the written value; a 1 clears a W1C field. -/
def Dev.storeReg (d : Dev) (k : Nat) (r : RegDesc) (data : Nat) : Dev :=
  let old := d.rd k
  let w := merge32 (r.mask (fun f => f.acc == .rw || f.acc == .lk)) data old
  d.wr k (merge32 (r.mask (fun f => f.acc == .w1c) &&& data) 0 w)

/-- A configuration change of a flow, port-class or egress queue is held as pending (R413). -/
def Dev.deferWrite (d : Dev) (k : Nat) (r : RegDesc) (data : Nat) : Dev :=
  let old := (d.pendingValue k).getD (d.rd k)
  let v := merge32 (r.mask (fun f => f.acc == .rw)) data old
  let forgives := r.fields.any (fun f => f.acc == .wo) && bit data 31
  { d with sch := { d.sch with
      pending := d.sch.pending.filter (fun (x : Nat × Nat) => x.1 != k) ++ [(k, v)]
      forgive := d.sch.forgive.filter (fun x => x != k) ++ (if forgives then [k] else []) } }

/-- A transmit profile takes effect at the next boundary, and is saved (R288). -/
def Dev.profileWrite (d : Dev) (k data : Nat) : Dev :=
  { d with ra := { d.ra with profPending := d.ra.profPending.filter (fun (x : Nat × Nat) => x.1 != k) ++ [(k, data)] } }.saveWord k data

/-- The staged word at INDEX of the selected set is written (R289). -/
def Dev.setWordWrite (d : Dev) (data : Nat) : Dev :=
  let i := d.get F.TXP_SET_SEL_INDEX
  let n := setLen (d.get F.TXP_SET_SEL_KIND)
  { d with ra := { d.ra with staging := (List.range n).map (fun j => if j = i then data else d.ra.staging.getD j 0) } }

/-- A register of the field tables takes an accepted write; saved fields are stored in configuration. -/
def Dev.takeWrite (d : Dev) (a : Nat) (r : RegDesc) (data : Nat) : Dev :=
  let k := d.shownKey a
  if deferred (a / 0x1000) (a % 0x1000) then d.deferWrite k r data
  else if a = R.TXP_PROF_DATA then d.profileWrite k data
  else if a = R.TXP_SET_DATA then d.setWordWrite data
  else if pairHi a then
    let lo := a - 4
    let kl := d.shownKey lo
    let half := d.stagedLo lo
    let d1 := { d with staged := d.staged.filter (fun (x : Nat × Nat) => x.1 != lo) }.wr kl half
    let d2 := d1.storeReg k r data
    if savedMask k = 0 then d2 else (d2.save kl).save k
  else
    let d1 := d.storeReg k r data
    if savedMask k = 0 then d1 else d1.save k

/-- Whether an accepted write moves SEQ: it has an RW, LK or WO field (R143). -/
def RegDesc.counted (r : RegDesc) : Bool := r.fields.any (fun f => f.acc == .rw || f.acc == .lk || f.acc == .wo)

/-! ### Service of ports (R197) -/

/-- The commands in a port's slot that meet a condition complete with STATE, and displaced ones with them (R197). -/
def Dev.slotDrop (d : Dev) (p : Nat) (f : Tx → Bool) : Dev :=
  (d.ra.txs.filter (fun t => t.port == p && (t.stage == .slot || t.stage == .displaced) && f t)).foldl
    (fun (x : Dev) t => x.txFinish t 0x03 5 false 0) d

/-- A port leaves service (R197): its slot's command completes, its streams are lost (R261), castling ends (R241), and its chain goes to
SLEEP once no transmission is on the air. -/
def Dev.portOut (d : Dev) (p : Nat) : Dev :=
  let g := portGroup p
  let d1 := ((d.slotDrop p (fun _ => true)).markLost p).calPortOut g (portSector p)
  let d2 := d1.releaseCtxs (fun c => c.members.all (fun m => !d1.inService m.1))
  let c := d2.chainOf p
  if (d2.airTx p).isSome || d2.chainState g c == 5 then d2
  else ((d2.setChainState g c 0).setTxLock g c false).setRxLock g c false

/-- A port enters service (R198): the chain that carries it comes up to STBY, and in RUN goes on from there as it locks. A chain in CAL
ends its calibration first. -/
def Dev.portIn (d : Dev) (p : Nat) : Dev :=
  let g := portGroup p; let c := d.chainOf p
  if d.chainState g c = 5 then d
  else ((d.setChainState g c (if d.awake then 1 else 0)).setTxLock g c false).setRxLock g c false

/-- A write of PORT_EN or ENABLE: ports of group g go into and out of service; in group 2, contexts and slot commands of a range that is
now off end (R197; how they end is a DESIGN CHOICE, log entry 105). -/
def Dev.serviceChange (before d : Dev) (g : Nat) : Dev :=
  let ports := (List.range 8).map (fun s => 8 * g + s)
  let d1 := ports.foldl (fun (x : Dev) p =>
    if before.inService p && !d.inService p then x.portOut p
    else if !before.inService p && d.inService p then x.portIn p
    else x) d
  if g = 2 then
    let d2 := d1.releaseCtxs (fun c => c.group == 2 && !d1.rangeOn 2 (c.freq))
    ports.foldl (fun (x : Dev) p => x.slotDrop p (fun t => !x.rangeOn 2 t.freq)) d2
  else d1

/-! ### Effects by page -/

/-- A command ring's registers (R157, R158). -/
def Dev.hostEffect (before d : Dev) (off data : Nat) : Dev :=
  if off < 0x100 ∨ 0x300 ≤ off then d
  else
    let n := (off - 0x100) / 0x40
    match (off - 0x100) % 0x40 with
    | 0x00 =>
      let r := d.ring n
      if bit data 0 then (if before.ringEn n || d.is (F.HOST_RING_STAT_FAULT n) then d else d.setRing n { r with dead := false })
      else d.put (F.HOST_RING_STAT_FAULT n) 0
    | 0x10 => (d.put (F.HOST_CQ_STATE_CQ_WRITTEN n) 0).put (F.HOST_CQ_DB_VALUE n) 0
    | 0x14 => d.setRing n { d.ring n with stopped := false }
    | _ => d

/-- An event counter's source register (R474). -/
def Dev.evcEffect (before d : Dev) (off data : Nat) : Dev :=
  if off < 0x100 ∨ (off - 0x100) % 0x10 ≠ 0 then d
  else
    let k := (off - 0x100) / 0x10
    if bit data 31 = true ∨ before.get (F.EVC_SRC_ID k) ≠ data % 1024 then
      d.putPair (F.EVC_COUNT_LO_COUNT k) (F.EVC_COUNT_HI_COUNT k) 0
    else d

/-- A timer unit's registers, START, STOP and SYSTIME (R454, R464, R473, R477). -/
def Dev.timEffect (before d : Dev) (off data : Nat) : Dev :=
  if off = 0x044 then
    { d with systime := (d.rd R.TIM_SYSTIME_LO + 2 ^ 32 * data) * 2 ^ 32,
             regs := SMap.set resetReg (SMap.set resetReg d.regs R.TIM_SYSTIME_LO 0) R.TIM_SYSTIME_HI 0 }.dueMoved
  else if off = 0x04C then d.wr R.TIM_RUN (d.rd R.TIM_RUN ||| data % 65536)
  else if off = 0x050 then d.wr R.TIM_RUN (merge32 (data % 65536) 0 (d.rd R.TIM_RUN))
  else if off < 0x100 then d
  else
    let n := (off - 0x100) / 0x80
    match (off - 0x100) % 0x80 with
    | 0x00 | 0x08 => d.setTimPhase n 0
    | 0x14 =>
      (List.range 4).foldl (fun (x : Dev) c =>
        if chMode (before.rd (R.TIM_CH_CFG n)) c = chMode data c then x
        else ((x.put ⟨R.TIM_FLAGS n, c, c⟩ 0).put ⟨R.TIM_FLAGS n, 4 + c, 4 + c⟩ 0).put ⟨R.TIM_FLAGS n, 8 + c, 8 + c⟩ 0) d
    | _ => d

/-- LCTRL, LSEL and the receive rings (R265, R266, R270). -/
def Dev.rxpEffect (before d : Dev) (off data : Nat) : Dev :=
  if off = 0x06C then d.loadListen
  else if off = 0x070 then
    let words := (List.range 7).map (fun k => d.rd (R.RXP_LDATA k))
    let d1 : Dev := if bit data 0 then
        { d with rx := { d.rx with pending := some (d.get F.RXP_LSEL_GROUP, d.get F.RXP_LSEL_ENTRY, words) } }
      else d
    if bit data 1 then d1.loadListen else d1
  else if 0x0A0 ≤ off ∧ off < 0x120 then
    let n := (off - 0x0A0) / 0x20
    match (off - 0x0A0) % 0x20 with
    | 0x00 =>
      if bit data 0 = false then d.rxRingOff n
      else if before.is (F.RXP_RXR_CFG_EN n) then d
      else d.setRxRing n { d.rxRing n with nextSeq := 0, since := 0 }
    | 0x08 => (d.put (F.RXP_RXR_PROD_COUNT n) 0).put (F.RXP_RXR_CONS_COUNT n) 0
    | _ => d
  else d

/-- SET_SEL, SET_DATA and SET_CTRL (R288, R289). -/
def Dev.txpEffect (before d : Dev) (off data : Nat) : Dev :=
  match off with
  | 0x048 => if before.setSel = d.setSel then d else d.loadSet
  | 0x04C => d.setAdvance
  | 0x050 =>
    let (k, g, n) := d.setSel
    let d1 : Dev := if bit data 0 then
        { d with ra := { d.ra with setPending := some (setKey k g n 0, (List.range (setLen k)).map (fun i => d.ra.staging.getD i 0)) } }
      else d
    if bit data 1 then d1.loadSet else d1
  | _ => d

/-- PAN_SEL and PAN_CTRL (R328). -/
def Dev.macEffect (d : Dev) (g off data : Nat) : Dev :=
  match off with
  | 0x080 => d.loadPan g
  | 0x0A8 =>
    let words := (List.range 9).map (fun k => d.rd (R.MAC_PAN_DATA g k))
    let d1 : Dev := if bit data 0 then
        { d with ra := { d.ra with panPending := setAt d.ra.panPending g (some (d.get (F.MAC_PAN_SEL_PAN g), words)) } }
      else d
    if bit data 1 then d1.loadPan g else d1
  | _ => d

/-- BIST.TEST: ARM opens the window; an accepted CONFIRM stops grants and starts the erasure (R124, R125). -/
def Dev.testEffect (d : Dev) (data : Nat) : Dev :=
  let d1 : Dev := if bit data 0 then { d with pw := { d.pw with armedAt := some d.monoCycles } } else d
  if bit data 1 then { d1 with pw := { d1.pw with erasing := true } } else d1

/-- A dry admission's control (R188, R189). -/
def Dev.dryEffect (d : Dev) (data : Nat) : Dev :=
  if bit data 31 then d.dryStart (bits data 25 24) (bits data 23 0)
  else if bit data 30 then { d with ln := { d.ln with dryAbort := true } }
  else d

/-- The effect of an accepted write beside the fields it stores; `before` is the device before the write. -/
def Dev.effect (before d : Dev) (a data : Nat) : Dev :=
  let p := a / 0x1000
  let off := a % 0x1000
  match p with
  | 0x01 =>
    if off = 0x040 then d.targetAct
    else if off = 0x060 ∧ bit data 0 = true then d.resign 0x03
    else if off = 0x07C then d.thermWarn
    else d
  | 0x03 => if off = 0x06C then d.testEffect data else d
  | 0x04 =>
    if off = 0x054 then d.autoAdmit
    else if off = 0x058 ∧ bit data 0 = true then (match before.admitChoice with
      | some i => d.admitLane i
      | none => d)
    else if off = 0x05C then d.dryEffect data
    else d
  | 0x05 => before.hostEffect d off data
  | 0x06 => if off = 0x068 ∧ bit data 0 = true then d.raise 0x06 0 else d
  | 0x07 => before.evcEffect d off data
  | 0x08 => before.timEffect d off data
  | 0x09 =>
    if off = 0x048 then d.wr R.GPIO_OUT (d.rd R.GPIO_OUT ||| data % 65536)
    else if off = 0x04C then d.wr R.GPIO_OUT (merge32 (data % 65536) 0 (d.rd R.GPIO_OUT))
    else d
  | 0x0A => if off = 0x044 then d.blankUpdate else d
  | 0x0B =>
    if off = 0x048 ∧ bit data 0 = true then d.reloadDraft
    else if off = 0x04C ∧ before.get F.VAULT_RF_LIMIT_LIMIT_MW < data then d.recheckBudget
    else d
  | 0x10 | 0x11 | 0x12 | 0x13 => if off = 0x040 then before.serviceChange d (p - 0x10) else d
  | 0x14 => if off = 0x040 then d.calConditions else d
  | 0x15 => before.rxpEffect d off data
  | 0x16 => before.txpEffect d off data
  | 0x18 | 0x19 | 0x1A | 0x1B => d.macEffect (p - 0x18) off data
  | 0x21 =>
    if off = 0x040 ∧ before.get F.TMEM_SCRUB_CFG_EN ≠ d.get F.TMEM_SCRUB_CFG_EN then d.scrubEnChanged
    else if off = 0x068 ∧ before.is F.TMEM_TELEM_CFG_EN ≠ d.is F.TMEM_TELEM_CFG_EN then d.telemEnChanged
    else d
  | _ => d

/-! ### CTRL, interrupts and the MSI-X table -/

/-- What a change of CTRL.ENABLE does at once (R197, R241, R477, R67, R68). -/
def Dev.enableEffect (before d : Dev) (p : Nat) : Dev :=
  if before.is (H.enable p) == d.is (H.enable p) then d
  else match p with
    | 0x08 => if d.is (H.enable p) then d else d.wr R.TIM_RUN 0
    | 0x10 | 0x11 | 0x12 | 0x13 => before.serviceChange d (p - 0x10)
    | 0x14 => d.calConditions
    | 0x30 | 0x31 =>
      let d1 : Dev := if d.is (H.enable p) then { d with bh := { d.bh with overcurrent := setAt d.bh.overcurrent (p - 0x30) false } } else d
      d1.vsfpUpdate (p - 0x30)
    | _ => d

/-- An accepted CTRL write: FREEZE, ENABLE, and the start of a soft reset (R136, R138, R139). -/
def Dev.ctrlWrite (d : Dev) (p data : Nat) : Dev :=
  let d1 := if bit data 2 && !d.is (H.freeze p) then (d.freezePage p).put (H.freeze p) 1
            else if !bit data 2 && d.is (H.freeze p) then (d.thawPage p).put (H.freeze p) 0
            else d
  let d2 := if 0x29 ≤ p ∧ p ≤ 0x2F then d1
            else d.enableEffect ((d1.put (H.enable p) (data % 2)).save (H.ctrl p)) p
  if bit data 1 then { d2 with resetting := d2.resetting ++ [p] } else d2

/-- An accepted IRQ_PEND write: raw bits clear, sources that lost a bit are re-armed, and with REJECT the error record
(R137, R165). -/
def Dev.pendWrite (d : Dev) (p data : Nat) : Dev :=
  let raw := d.rd (H.irqRaw p)
  let gone := raw &&& data
  let d1 := d.wr (H.irqRaw p) (merge32 data 0 raw)
  let d2 := { d1 with disarmed := d1.disarmed.filter (fun s => !(List.range 32).any (fun b => bit gone b && srcOf p b == some s)) }
  if bit data 31 then (((d2.put (H.errCode p) 0).put (H.errMore p) 0).put (H.errAddr p) 0).put (H.errData p) 0 else d2

/-- An accepted write of a header register. -/
def Dev.headerWrite (d : Dev) (p off data : Nat) : Dev :=
  match off with
  | 0x008 => (d.ctrlWrite p data).seqInc p
  | 0x014 => (d.countAsserted (d.wr (H.irqMask p) data)).seqInc p
  | 0x018 => d.pendWrite p data
  | _ => d

/-- An accepted register write as a whole. -/
def Dev.acceptWrite (d : Dev) (a data : Nat) : Dev :=
  let p := a / 0x1000
  let off := a % 0x1000
  if off ≤ 0x028 then d.headerWrite p off data
  else if msixTable a then d.wr a (if a % 16 = 12 then data % 2 else data)
  else match findReg p off with
    | none => d
    | some r =>
      if pairLo a then { d with staged := d.staged.filter (fun (x : Nat × Nat) => x.1 != a) ++ [(a, data)] }
      else
        let d1 := d.effect (d.takeWrite a r data) a data
        if r.counted then d1.seqInc p else d1

/-- A rejected write: recorded in the page's error record, or in that of SYS for an unassigned page; a rejected NAME_HI discards
its staged half (R8, R52, R142). -/
def Dev.refuseWrite (d : Dev) (code a data : Nat) : Dev :=
  let p := if pageAssigned (a / 0x1000) then a / 0x1000 else 0
  let d1 : Dev := if pairHi a then { d with staged := d.staged.filter (fun (x : Nat × Nat) => x.1 + 4 != a) } else d
  d1.reject p code a data

/-- A register is written: the device after it, and the code. `whole` says that every byte enable is set (R140, R141). -/
def Dev.busWrite (d : Dev) (a data : Nat) (whole : Bool) : Dev × Nat :=
  let code := d.writeCode a data whole
  if code = 0 then (d.acceptWrite a data, 0) else (d.refuseWrite code a data, code)

/-! ### Soft reset (R139) -/

/-- A page's counts return to 0 and its greatest and least values to the present ones. -/
def Dev.clearStats (d : Dev) (p : Nat) : Dev :=
  (pageRegs p).foldl (fun (x : Dev) r => r.offsets.foldl (fun (y : Dev) o => y.restartAll (p * 0x1000 + o) r) x) d

/-- The soft reset of RFG_g: transmissions ramp down, slot commands complete with STATE, and the chains that carry ports return to their
R197 states, those that transmit at the end of their ramp-down (R221). -/
def Dev.rfgReset (d : Dev) (g : Nat) : Dev :=
  let d1 := (d.ra.txs.filter (fun t => t.group == g && t.stage == .onAir)).foldl (fun (x : Dev) t => x.txStop t 5) d
  (List.range 8).foldl (fun (x : Dev) s =>
    let y := x.slotDrop (8 * g + s) (fun _ => true)
    let c := y.chainOf (8 * g + s)
    if 4 ≤ y.chainState g c then y else y.setChainState g c (y.dutyState (8 * g + s))) d1

/-- The stages of a frame at step 4 (R31, R310 to R320). -/
def atStep4 (s : TxStage) : Bool :=
  [TxStage.step4, .awaitNode, .dutyHeld, .occHeld, .backoff, .newRound, .repeating].contains s

/-- What a soft reset of a page does beside the common part. -/
def Dev.pageReset (d : Dev) (p : Nat) : Dev :=
  match p with
  | 0x07 => (List.range 64).foldl (fun (x : Dev) k => x.putPair (F.EVC_COUNT_LO_COUNT k) (F.EVC_COUNT_HI_COUNT k) 0) d
  | 0x08 =>
    let ks := (d.regs.map (fun x => x.1)).filter (fun k => keyPage k == 0x08 && decide (0x04C ≤ keyOff k))
    let d1 := ks.foldl (fun (x : Dev) k => x.wr k (resetReg k).toNat) d
    { d1 with tm := { d1.tm with phases := List.replicate 16 0, sleepCapt := [] } }
  | 0x09 => d.wr R.GPIO_EVT 0
  | 0x0A => d.blankUpdate
  | 0x0C => d.sessionEnd
  | 0x0E => d.pawnReset
  | 0x0F => d.clearStats p
  | 0x10 | 0x11 | 0x12 | 0x13 => d.rfgReset (p - 0x10)
  | 0x14 => (List.range 4).foldl (fun (x : Dev) g => if x.calState g = 7 ∨ x.calState g = 8 then x else
      if x.calChain g = 0xF ∧ x.is (F.RFG_CHAIN_MAP_CASTLING g) = false then x else x.calAbandon g) d |>.calConditions
  | 0x15 =>
    let d1 := (List.range 4).foldl (fun (x : Dev) n => x.rxRingOff n) (d.releaseCtxs (fun _ => true))
    (({ d1 with rx := { d1.rx with pending := none } }).clearStats p).loadListen
  | 0x16 => { d with ra := { d.ra with profPending := [], setPending := none } }.loadSet
  | 0x18 | 0x19 | 0x1A | 0x1B =>
    let d1 := (d.ra.txs.filter (fun t => t.group == p - 0x18 && atStep4 t.stage)).foldl (fun (x : Dev) t => x.txFinish t 0x03 5 false 0) d
    (d1.clearStats p).loadPan (p - 0x18)
  | 0x1C => ({ d with ra := { d.ra with relays := [] } }).clearStats p
  | 0x20 => d.dirReset
  | 0x21 => d.tmemReset
  | 0x24 | 0x25 | 0x26 | 0x27 => d.fwdReset (p - 0x24)
  | 0x28 => d.qschReset
  | 0x30 | 0x31 =>
    let d1 := (d.sessions.filter (fun s => s.port == p - 0x30)).foldl (fun (x : Dev) s => x.closeWith s 3) d
    d1.linkSet (p - 0x30) false false
  | 0x32 => d.ptpUnlock
  | 0x33 => d.lowpanReset
  | _ => d

/-- A soft reset completes: the page's fields are reloaded, IRQ_RAW and the error record cleared (its COUNT is cleared only by
reading), FREEZE ends, SEQ stays (R137, R139, R143). A staged NAME_LO half of a pair of the page is discarded (DESIGN CHOICE, log entry 117). -/
def Dev.softResetDone (d : Dev) (p : Nat) : Dev :=
  if !d.resetting.contains p then d
  else
    let d1 := (if d.is (H.freeze p) then d.thawPage p else d).reloadPage p
    let d2 := (d1.put (H.freeze p) 0).pageReset p
    let d3 := (d2.wr (H.irqRaw p) 0).put (H.errCode p) 0
    let d4 := ((d3.put (H.errMore p) 0).put (H.errAddr p) 0).put (H.errData p) 0
    { d4 with resetting := d4.resetting.filter (fun x => x != p), staged := d4.staged.filter (fun (x : Nat × Nat) => x.1 / 0x1000 != p) }

end Sys2Proof.Machine
end

