-- ==== Sys2Proof/Machine/RegCommands.lean ====
section
/-! DEFINITION. Register accesses as commands: BAR0 reads and writes, the rows of single registers, REG_READ and REG_WRITE (R8,
R21, R137 to R144, R161, and each register's own rule). A row of a register whose written bits are the row itself forces those
bits; the rest of the written word is its operand. Where the device does not answer its host, or the
PCI Express link is not up (R65, R66, R86, R118), nothing happens. -/

namespace Sys2Proof.Machine

/-- A BAR0 write that arrives (R140, R144). -/
def Dev.hostWrite (d : Dev) (a data : Nat) (whole : Bool) : Dev := if d.hostOpen then (d.busWrite a data whole).1 else d

/-- A BAR0 read that arrives: its word leaves the machine (R140, R144). -/
def Dev.hostRead (d : Dev) (a : Nat) : Dev :=
  if d.hostOpen then
    let x := d.busRead a
    x.1.emit (.regRead a x.2)
  else d

/-- A write with all byte enables and some bits forced: those of `ones` to 1 and those of `zeros` to 0. -/
def Dev.hostSet (d : Dev) (a : Nat) (value : BitVec 32) (ones zeros : Nat) : Dev :=
  d.hostWrite a (merge32 zeros 0 (value.toNat ||| ones)) true

/-- The byte enables of a write are all set. -/
def allBytes (be : BitVec 4) : Bool := be == 15

/-! ### REG_READ and REG_WRITE (R161) -/

/-- n reads from an address on: the device after them, and the values, four bytes each. -/
def Dev.readMany (d : Dev) (a : Nat) : Nat → Dev × List Byte
  | 0 => (d, [])
  | n + 1 =>
    let x := d.busRead a
    let y := x.1.readMany (a + 4) n
    (y.1, beBytes 4 x.2 ++ y.2)

/-- Writes of values in order from an address on, while the device runs: the device after them, and their codes. -/
def Dev.writeMany (d : Dev) (a : Nat) : List Nat → Dev × List Nat
  | [] => (d, [])
  | v :: rest =>
    if d.awake then
      let x := d.busWrite a v true
      let y := x.1.writeMany (a + 4) rest
      (y.1, x.2 :: y.2)
    else (d, [])

/-- REG_READ (opcode 0x0001). -/
def Dev.cmdRegRead (d : Dev) (src : Src) (e : Entry) : Dev :=
  let code := regCmdCode e
  if code ≠ 0 then d.finish src code []
  else
    let x := d.readMany (e.p4 0) (e.p1 4)
    x.1.finish src 0 x.2

/-- REG_WRITE (opcode 0x0002): CODE is that of the first rejected register. -/
def Dev.cmdRegWrite (d : Dev) (src : Src) (e : Entry) : Dev :=
  let code := regCmdCode e
  if code ≠ 0 then d.finish src code []
  else
    let x := d.writeMany (e.p4 0) ((List.range (e.p1 4)).map (fun k => e.p4 (5 + 4 * k)))
    x.1.finish src ((x.2.find? (fun c => c != 0)).getD 0) (x.2.map (fun c => BitVec.ofNat 8 c))

/-! ### Meanings: any register -/

/-- REG_WRITE_GENERIC: a write of a register is accepted whole or rejected whole (R140, R141). -/
def execRegWriteGeneric (addr : BitVec 20) (be : BitVec 4) (data : BitVec 32) (s : State) : Host.Outcome State Fault Refusal :=
  runs s (fun d => d.hostWrite addr.toNat data.toNat (allBytes be))

/-- RC_READ: a register is read; its RC fields clear or restart (R21). -/
def execRcRead (addr : BitVec 20) (s : State) : Host.Outcome State Fault Refusal :=
  runs s (fun d => d.hostRead addr.toNat)

/-- PAIR_LO_STAGE: a write of a NAME_LO register that is writable is held in the staging latch (R8). -/
def execPairLoStage (addr : BitVec 20) (be : BitVec 4) (data : BitVec 32) (s : State) : Host.Outcome State Fault Refusal :=
  runs s (fun d => if pairLo addr.toNat then d.hostWrite addr.toNat data.toNat (allBytes be) else d)

/-- PAIR_HI_COMMIT: a write of a NAME_HI register commits both halves as one write (R8). -/
def execPairHiCommit (addr : BitVec 20) (be : BitVec 4) (data : BitVec 32) (s : State) : Host.Outcome State Fault Refusal :=
  runs s (fun d => if pairHi addr.toNat then d.hostWrite addr.toNat data.toNat (allBytes be) else d)

/-- IRQ_PEND_CLEAR: a write of IRQ_PEND of a page clears the raw bits written as 1 and re-arms their sources (R137, R165). -/
def execIrqPendClear (page : BitVec 8) (value : BitVec 32) (s : State) : Host.Outcome State Fault Refusal :=
  runs s (fun d => d.hostWrite (H.irqPend page.toNat) value.toNat true)

/-- SOFT_RESET: CTRL.SOFT_RESET of a page is written 1 (R139). -/
def execSoftReset (page : BitVec 8) (value : BitVec 32) (s : State) : Host.Outcome State Fault Refusal :=
  runs s (fun d => d.hostSet (H.ctrl page.toNat) value 2 0)

/-- SOFT_RESET_DONE: the soft reset of a page completes (R139). -/
def execSoftResetDone (page : BitVec 8) (s : State) : Host.Outcome State Fault Refusal :=
  runs s (fun d => if d.awake then d.softResetDone page.toNat else d)

/-- FREEZE: CTRL of a page is written with SOFT_RESET 0 (R138). -/
def execFreeze (page : BitVec 8) (value : BitVec 32) (s : State) : Host.Outcome State Fault Refusal :=
  runs s (fun d => d.hostSet (H.ctrl page.toNat) value 0 2)

/-- REG_READ: one to four registers are read (R161). -/
def execRegRead (ring : Fin 8) (hseq : Nat) (s : State) : Host.Outcome State Fault Refusal :=
  runs s (fun d => d.runRow ring hseq 0x0001 Dev.cmdRegRead)

/-- REG_WRITE: one to four registers are written (R161). -/
def execRegWrite (ring : Fin 8) (hseq : Nat) (s : State) : Host.Outcome State Fault Refusal :=
  runs s (fun d => d.runRow ring hseq 0x0002 Dev.cmdRegWrite)

/-! ### Meanings: power and test access -/

/-- RESIGN_GO: PWR.RESIGN.GO starts a resignation (R95). -/
def execResignGo (value : BitVec 32) (s : State) : Host.Outcome State Fault Refusal :=
  runs s (fun d => d.hostSet R.PWR_RESIGN value 1 0)

/-- TARGET_IDLE: PWR.MODE.TARGET := IDLE (R86). -/
def execTargetIdle (value : BitVec 32) (s : State) : Host.Outcome State Fault Refusal :=
  runs s (fun d => d.hostSet R.PWR_MODE value 1 2)

/-- TARGET_RUN: PWR.MODE.TARGET := RUN (R86). -/
def execTargetRun (value : BitVec 32) (s : State) : Host.Outcome State Fault Refusal :=
  runs s (fun d => d.hostSet R.PWR_MODE value 0 3)

/-- TARGET_SLEEP: PWR.MODE.TARGET := SLEEP (R86, R87). -/
def execTargetSleep (value : BitVec 32) (s : State) : Host.Outcome State Fault Refusal :=
  runs s (fun d => d.hostSet R.PWR_MODE value 2 1)

/-- ARM: BIST.TEST.ARM opens the window of 4 tempos (R124). -/
def execArm (value : BitVec 32) (s : State) : Host.Outcome State Fault Refusal :=
  runs s (fun d => d.hostSet R.BIST_TEST value 1 0)

/-- CONFIRM: BIST.TEST.CONFIRM with TEST_EN at this level (R125). -/
def execConfirm (testEn : Bool) (value : BitVec 32) (s : State) : Host.Outcome State Fault Refusal :=
  runs s (fun d => { d with pins := { d.pins with testEn := testEn } }.hostSet R.BIST_TEST value 2 0)

/-! ### Meanings: rings and interrupts -/

/-- SQ_DOORBELL: SQ_DB of a ring announces entries; fetching resumes (R157). -/
def execSqDoorbell (n : Fin 8) (value : BitVec 32) (s : State) : Host.Outcome State Fault Refusal :=
  runs s (fun d => d.hostSet (R.HOST_SQ_DB n) value 0 0)

/-- CQ_DOORBELL: CQ_DB of a ring reports completions consumed (R157). -/
def execCqDoorbell (n : Fin 8) (value : BitVec 32) (s : State) : Host.Outcome State Fault Refusal :=
  runs s (fun d => d.hostSet (R.HOST_CQ_DB n) value 0 0)

/-- RING_ENABLE: RING_CFG.EN := 1 (R158). -/
def execRingEnable (n : Fin 8) (value : BitVec 32) (s : State) : Host.Outcome State Fault Refusal :=
  runs s (fun d => d.hostSet (R.HOST_RING_CFG n) value 1 0)

/-- RING_DISABLE: RING_CFG.EN := 0 (R158). -/
def execRingDisable (n : Fin 8) (value : BitVec 32) (s : State) : Host.Outcome State Fault Refusal :=
  runs s (fun d => d.hostSet (R.HOST_RING_CFG n) value 0 1)

/-- CQ_BASE_WRITE: CQ_BASE_HI of a ring is written, which commits the pair (R8, R158). -/
def execCqBaseWrite (n : Fin 8) (value : BitVec 32) (s : State) : Host.Outcome State Fault Refusal :=
  runs s (fun d => d.hostSet (R.HOST_CQ_BASE_HI n) value 0 0)

/-- SOFT_SET: IRQ.SOFT.SET sets bit 0 of IRQ.IRQ_RAW (R167). -/
def execSoftSet (value : BitVec 32) (s : State) : Host.Outcome State Fault Refusal :=
  runs s (fun d => d.hostSet R.IRQ_SOFT value 1 0)

/-! ### Meanings: lanes -/

/-- ADMIT_REQ: LANE.ADMIT.REQ asks for an admission (R185). -/
def execAdmitReq (value : BitVec 32) (s : State) : Host.Outcome State Fault Refusal :=
  runs s (fun d => d.hostSet R.LANE_ADMIT value 1 0)

/-- DRY_START: LANE.DRY_CTRL.START with a lane and a number of tempos (R188). -/
def execDryStart (value : BitVec 32) (s : State) : Host.Outcome State Fault Refusal :=
  runs s (fun d => d.hostSet R.LANE_DRY_CTRL value (2 ^ 31) (2 ^ 30))

/-- DRY_ABORT: LANE.DRY_CTRL.ABORT (R189). -/
def execDryAbort (value : BitVec 32) (s : State) : Host.Outcome State Fault Refusal :=
  runs s (fun d => d.hostSet R.LANE_DRY_CTRL value (2 ^ 30) (2 ^ 31))

/-! ### Meanings: radio -/

/-- PORT_SERVICE_CHANGE: PORT_EN of a group is written, or its CTRL with SOFT_RESET 0 (R197). -/
def execPortServiceChange (g : Fin 4) (ctrl : Bool) (value : BitVec 32) (s : State) : Host.Outcome State Fault Refusal :=
  runs s (fun d => if ctrl then d.hostSet (H.ctrl (0x10 + g)) value 0 2 else d.hostSet (R.RFG_PORT_EN g) value 0 0)

/-- RF_LIMIT_WRITE: VAULT.RF_LIMIT changes the budget (R206). -/
def execRfLimitWrite (value : BitVec 32) (s : State) : Host.Outcome State Fault Refusal :=
  runs s (fun d => d.hostSet R.VAULT_RF_LIMIT value 0 0)

/-- DRAFT_RELOAD: VAULT.DRAFT_CTRL.RELOAD (R217). -/
def execDraftReload (value : BitVec 32) (s : State) : Host.Outcome State Fault Refusal :=
  runs s (fun d => d.hostSet R.VAULT_DRAFT_CTRL value 1 0)

/-- LSEL_WRITE: RXP.LSEL selects a listen entry and loads its words (R270). -/
def execLselWrite (value : BitVec 32) (s : State) : Host.Outcome State Fault Refusal :=
  runs s (fun d => d.hostSet R.RXP_LSEL value 0 0)

/-- LISTEN_COMMIT: RXP.LCTRL.COMMIT (R270). -/
def execListenCommit (value : BitVec 32) (s : State) : Host.Outcome State Fault Refusal :=
  runs s (fun d => d.hostSet R.RXP_LCTRL value 1 0)

/-- LISTEN_LOAD: RXP.LCTRL.LOAD (R270). -/
def execListenLoad (value : BitVec 32) (s : State) : Host.Outcome State Fault Refusal :=
  runs s (fun d => d.hostSet R.RXP_LCTRL value 2 0)

/-- RXR_CONS_WRITE: RXR_CONS of a receive ring reports records consumed (R265). -/
def execRxrConsWrite (n : Fin 4) (value : BitVec 32) (s : State) : Host.Outcome State Fault Refusal :=
  runs s (fun d => d.hostSet (R.RXP_RXR_CONS n) value 0 0)

/-- RXR_BASE_WRITE: RXR_BASE_HI of a receive ring is written, which commits the pair (R8, R266). -/
def execRxrBaseWrite (n : Fin 4) (value : BitVec 32) (s : State) : Host.Outcome State Fault Refusal :=
  runs s (fun d => d.hostSet (R.RXP_RXR_BASE_HI n) value 0 0)

/-- SET_SEL_WRITE: TXP.SET_SEL selects a set and an index (R289). -/
def execSetSelWrite (value : BitVec 32) (s : State) : Host.Outcome State Fault Refusal :=
  runs s (fun d => d.hostSet R.TXP_SET_SEL value 0 0)

/-- SET_DATA_ACCESS: the staged word at INDEX is written or read, and INDEX may advance (R289). -/
def execSetDataAccess (write : Bool) (value : BitVec 32) (s : State) : Host.Outcome State Fault Refusal :=
  runs s (fun d => if write then d.hostSet R.TXP_SET_DATA value 0 0 else d.hostRead R.TXP_SET_DATA)

/-- SET_COMMIT: TXP.SET_CTRL.COMMIT (R288). -/
def execSetCommit (value : BitVec 32) (s : State) : Host.Outcome State Fault Refusal :=
  runs s (fun d => d.hostSet R.TXP_SET_CTRL value 1 0)

/-- SET_LOAD: TXP.SET_CTRL.LOAD (R288). -/
def execSetLoad (value : BitVec 32) (s : State) : Host.Outcome State Fault Refusal :=
  runs s (fun d => d.hostSet R.TXP_SET_CTRL value 2 0)

/-- PROF_DATA_WRITE: TXP.PROF_DATA of the selected profile (R288). -/
def execProfDataWrite (value : BitVec 32) (s : State) : Host.Outcome State Fault Refusal :=
  runs s (fun d => d.hostSet R.TXP_PROF_DATA value 0 0)

/-- PAN_SEL_WRITE: MAC_g.PAN_SEL selects a descriptor and loads its words (R328). -/
def execPanSelWrite (g : Fin 4) (value : BitVec 32) (s : State) : Host.Outcome State Fault Refusal :=
  runs s (fun d => d.hostSet (R.MAC_PAN_SEL g) value 0 0)

/-- PAN_COMMIT: MAC_g.PAN_CTRL.COMMIT (R328). -/
def execPanCommit (g : Fin 4) (value : BitVec 32) (s : State) : Host.Outcome State Fault Refusal :=
  runs s (fun d => d.hostSet (R.MAC_PAN_CTRL g) value 1 0)

/-- PAN_LOAD: MAC_g.PAN_CTRL.LOAD (R328). -/
def execPanLoad (g : Fin 4) (value : BitVec 32) (s : State) : Host.Outcome State Fault Refusal :=
  runs s (fun d => d.hostSet (R.MAC_PAN_CTRL g) value 2 0)

/-- PAN_SEC_WRITE: SEC.PAN_SEC of a PAN (R354). -/
def execPanSecWrite (p : Fin 128) (value : BitVec 32) (s : State) : Host.Outcome State Fault Refusal :=
  runs s (fun d => d.hostSet (R.SEC_PAN_SEC p) value 0 0)

/-- SCRUB_EN_WRITE: TMEM.SCRUB_CFG (R364). -/
def execScrubEnWrite (value : BitVec 32) (s : State) : Host.Outcome State Fault Refusal :=
  runs s (fun d => d.hostSet R.TMEM_SCRUB_CFG value 0 0)

/-! ### Meanings: timers, counters, GPIO -/

/-- TIM_START: the units named start together (R464). -/
def execTimStart (value : BitVec 32) (s : State) : Host.Outcome State Fault Refusal :=
  runs s (fun d => d.hostSet R.TIM_START value 0 0)

/-- TIM_STOP: the units named stop together (R464). -/
def execTimStop (value : BitVec 32) (s : State) : Host.Outcome State Fault Refusal :=
  runs s (fun d => d.hostSet R.TIM_STOP value 0 0)

/-- COUNT_WRITE: COUNT_HI of a unit is written, which commits the pair (R8, R464). -/
def execCountWrite (n : Fin 16) (value : BitVec 32) (s : State) : Host.Outcome State Fault Refusal :=
  runs s (fun d => d.hostSet (R.TIM_COUNT_HI n) value 0 0)

/-- RELOAD_WRITE: RELOAD_HI of a unit is written, which commits the pair (R8, R464). -/
def execReloadWrite (n : Fin 16) (value : BitVec 32) (s : State) : Host.Outcome State Fault Refusal :=
  runs s (fun d => d.hostSet (R.TIM_RELOAD_HI n) value 0 0)

/-- PRESC_WRITE: the configuration of a unit, with PRESC, is written (R464). -/
def execPrescWrite (n : Fin 16) (value : BitVec 32) (s : State) : Host.Outcome State Fault Refusal :=
  runs s (fun d => d.hostSet (R.TIM_CFG n) value 0 0)

/-- CCR_READ: CCR_LO of a channel is read; in capture mode the capture is consumed (R467). -/
def execCcrRead (n : Fin 16) (c : Fin 4) (s : State) : Host.Outcome State Fault Refusal :=
  runs s (fun d => d.hostRead (R.TIM_CCR_LO n c))

/-- SYSTIME_WRITE: SYSTIME_HI is written, which commits the pair and steps SYSTIME (R8, R473). -/
def execSystimeWrite (value : BitVec 32) (s : State) : Host.Outcome State Fault Refusal :=
  runs s (fun d => d.hostSet R.TIM_SYSTIME_HI value 0 0)

/-- EVC_SRC_WRITE: the source of an event counter, with CLEAR 0 (R474). -/
def execEvcSrcWrite (k : Fin 64) (value : BitVec 32) (s : State) : Host.Outcome State Fault Refusal :=
  runs s (fun d => d.hostSet (R.EVC_SRC k) value 0 (2 ^ 31))

/-- EVC_CLEAR: SRC.CLEAR of an event counter (R474). -/
def execEvcClear (k : Fin 64) (value : BitVec 32) (s : State) : Host.Outcome State Fault Refusal :=
  runs s (fun d => d.hostSet (R.EVC_SRC k) value (2 ^ 31) 0)

/-- GPIO_SET: bits of OUT are set (R513). -/
def execGpioSet (value : BitVec 32) (s : State) : Host.Outcome State Fault Refusal :=
  runs s (fun d => d.hostSet R.GPIO_SET value 0 0)

/-- GPIO_CLR: bits of OUT are cleared (R513). -/
def execGpioClr (value : BitVec 32) (s : State) : Host.Outcome State Fault Refusal :=
  runs s (fun d => d.hostSet R.GPIO_CLR value 0 0)

/-- GPIO_EDGE: an edge of GPIO_j in RUN or IDLE, seen while its level holds (R514). -/
def execGpioEdge (j : Fin 16) (rising : Bool) (s : State) : Host.Outcome State Fault Refusal :=
  runs s (fun d => if d.awake then d.gpioEdge j rising else d)

/-- SLEEP_CAPTURE: an edge of a capture source in SLEEP, at a slow tick of the sleep; where its wake source is enabled it
also wakes the device (R469). -/
def execSleepCapture (src : Fin 7) (rising : Bool) (tick : Nat) (s : State) : Host.Outcome State Fault Refusal :=
  runs s (fun d =>
    if d.pw.phase ≠ .sleep then d
    else if src.val < 4 then
      let d1 := { d with pins := { d.pins with capt := if rising then d.pins.capt ||| BitVec.ofNat 4 (2 ^ src.val)
                                                       else d.pins.capt &&& ~~~(BitVec.ofNat 4 (2 ^ src.val)) } }
      (d1.sleepEdge src rising tick).wakeBy 2
    else if src.val = 4 then { d with pins := { d.pins with ppsIn := rising } }.sleepEdge 4 rising tick
    else if src.val = 6 then ((d.motionEdge rising).sleepEdge 6 rising tick).wakeBy 3
    else d)

end Sys2Proof.Machine
end

