-- ==== Sys2Proof/Machine/SvcCmd.lean ====
section
/-! DEFINITION. The CMD request of the service port: one command entry, executed at once (R484). -/

namespace Sys2Proof.Machine

/-- The opcode of an entry is executed for a source; `bytes` are what a module read returns from the module (R423). An opcode
that no owner defines, and RESYNC from the service port, complete with RANGE (R152, R484). -/
def Dev.runOpcode (d : Dev) (bytes : List Byte) (src : Src) (e : Entry) : Dev :=
  match e.opcode with
  | 0x0000 => d.finish src 0 []
  | 0x0001 => d.cmdRegRead src e
  | 0x0002 => d.cmdRegWrite src e
  | 0x0200 => d.cmdVaultCommit src e
  | 0x0210 => d.cmdCalRequest src e
  | 0x0300 => d.cmdTxRaw src e
  | 0x0320 => d.cmdMacSend src e
  | 0x0321 => d.cmdNodeRelease src e
  | 0x0322 => d.cmdNodeTiming src e
  | 0x0323 => d.cmdNodeScan src e
  | 0x0330 => d.cmdFloodSend src e
  | 0x0331 => d.cmdPeerAdopt src e
  | 0x0400 => d.cmdKeyLoad src e
  | 0x0401 => d.cmdKeyErase src e
  | 0x0402 => d.cmdKeyBind src e
  | 0x0403 => d.cmdKeyInfo src e
  | 0x0404 => d.cmdOwnerLock src e
  | 0x0405 => d.ownerRekey src e
  | 0x0500 => d.cmdDirLoad src e
  | 0x0501 => d.cmdDirRemove src e
  | 0x0502 => d.cmdDirFind src e
  | 0x0510 => d.cmdFwdFlush src e
  | 0x0520 => d.cmdClearLine src e
  | 0x0600 => d.cmdQschFlush src e
  | 0x0700 => d.cmdModuleRead bytes src e
  | 0x0800 => d.cmdPromote src e
  | 0x0801 => d.cmdUpdPolicy src e
  | 0x0802 => d.cmdUpdInfo src e
  | 0x0810 => d.cmdPawnLoad src e
  | 0x0811 => d.cmdPawnSeal src e
  | 0x0812 => d.cmdPawnStart src e
  | 0x0813 => d.cmdPawnStop src e
  | 0x0814 => d.cmdPawnChain src e
  | 0x0815 => d.cmdPawnClear src e
  | _ => d.finish src 0x01 []

/-- The request's command counts as executed. -/
def Dev.svcStarted (d : Dev) : Dev := { d with fw := { d.fw with svcRan := true } }

/-- The one code of an entry of the service port refused for reason `c`: RESYNC is not one of its commands (R24, R484). -/
def Dev.svcRefusal (d : Dev) (e : Entry) (c : Nat) : Nat := d.refusalCode e [(true, c), (e.opcode == 0x0003, 0x01)]

/-- A CMD request (R484): refused while CMD_EN is 0; reserved bits and LATEST_START as for a ring (R151, R156). A NODE_SCAN under way goes
on in each tempo (R327). -/
def Dev.svcCmd (d : Dev) (bytes payload : List Byte) : Dev :=
  let e := Entry.ofBytes payload
  if d.fw.svcRan then (if e.opcode = 0x0323 ∧ d.ra.scans.any (fun x => x.src == .svc) = true then d.cmdNodeScan .svc e else d)
  else if d.is F.SVC_CFG_CMD_EN = false then d.svcRespond 0x0D []
  else
    let d1 := d.svcStarted
    if 8 ≤ e.flags ∨ e.byte7 ≠ 0 then d1.finish .svc (d1.svcRefusal e 0x02) []
    else if d1.tooLate e then d1.endLate .svc e (d1.svcRefusal e 0x0F)
    else d1.runOpcode bytes .svc e

/-- SVC_CMD: the entry of the CMD request being processed is executed; `bytes` are what a module read returns from the module. -/
def execSvcCmd (bytes : List Byte) (s : State) : Host.Outcome State Fault Refusal :=
  runs s (fun d => d.svcRun 0x10 (fun x p => x.svcCmd bytes p))

end Sys2Proof.Machine
end

