-- ==== Sys2Proof/Machine/Boundary.lean ====
section
/-! DEFINITION. The tempo boundary with the work of R39 and what other chapters let take effect at a boundary, the guaranteed
slices of R44, and one core cycle of time in which no command arrives. -/

namespace Sys2Proof.Machine

/-- What is sampled at a boundary: junction temperature in °C, VIN and VBAK in 10 mV, and whether the fixed work of R39 was late
(R47, R103). -/
structure Samples where
  tj : Int
  vin : Nat
  vbak : Nat
  hwLate : Bool

/-! ### What takes effect at a boundary -/

/-- A committed listen entry comes into force and is stored (R270). -/
def Dev.listenCommit (d : Dev) : Dev :=
  match d.rx.pending with
  | none => d
  | some (g, i, words) =>
    (List.range 7).foldl (fun (x : Dev) k => (x.wr (listenKey g i k) (words.getD k 0)).saveWord (listenKey g i k) (words.getD k 0))
      { d with rx := { d.rx with pending := none } }

/-- Committed PAN descriptors come into force and are stored (R328). -/
def Dev.panCommits (d : Dev) : Dev :=
  let l := d.ra.panPending.filterMap id
  l.foldl (fun (x : Dev) (pw : Nat × List Nat) =>
    (List.range 9).foldl (fun (y : Dev) k =>
      (y.setPanWord pw.1 k (pw.2.getD k 0)).saveWord (R.MAC_PAN_DATA 0 k + 2 ^ 20 * (pw.1 + 1)) (pw.2.getD k 0)) x)
    { d with ra := { d.ra with panPending := List.replicate 4 none } }

/-- Transmit profiles and a committed filter or mask set come into force; the set is stored (R288). -/
def Dev.txpCommits (d : Dev) : Dev :=
  let d1 := d.ra.profPending.foldl (fun (x : Dev) (kv : Nat × Nat) => x.wr kv.1 kv.2) { d with ra := { d.ra with profPending := [] } }
  match d1.ra.setPending with
  | none => d1
  | some (k, words) =>
    (List.range words.length).foldl (fun (x : Dev) i => (x.wr (k + i * 2 ^ 20) (words.getD i 0)).saveWord (k + i * 2 ^ 20) (words.getD i 0))
      { d1 with ra := { d1.ra with setPending := none } }

/-- Supplies and junction temperature as sampled, with the warning (R103), and the derating of grade 2 (R527). A measurement of the bank
that no command brought in its tempo is taken (R93). -/
def Dev.takeSamples (d : Dev) (x : Samples) : Dev :=
  let d1 := ((d.put F.PWR_THERM_TJ (ofSigned 8 x.tj)).put F.PWR_SUPPLY_VIN (min x.vin 0xFFFF)).put F.PWR_SUPPLY_VBAK (min x.vbak 0x3FF)
  let d2 := d1.thermWarn
  let d3 := if (d2.pw.bankT.map (fun t => decide (t + 14400000 < d2.tempo))).getD false then d2.bankFree else d2
  let cut : Int := if Config.gradeIB = true ∨ x.tj ≤ 95 then 0 else (x.tj - 95 + 1) / 2
  { d3 with ra := { d3.ra with derate := (List.range 4).map (fun g => hwMax g - cut) } }

/-- LNA gain steps are chosen afresh (R246); the spec gives no rule for the choice, so they are free values. -/
def Dev.chooseGains (d : Dev) : Dev :=
  let x := d.draw
  { x.2 with rx := { x.2.rx with gain := (List.range 36).map (fun c => (Config.freeByte x.1 c).toNat) } }

/-- Every 4,000 tempos one more second since the last successful calibration of each chain (R243). -/
def Dev.calSeconds (d : Dev) : Dev :=
  if d.tempo % 4000 = 0 then (List.range 36).foldl (fun (x : Dev) n => x.bump (F.CAL_CHAIN_SINCE n) 1) d else d

/-- An overrun is recorded and raised (R47, R48). -/
def Dev.overrun (d : Dev) (lane hw : Bool) : Dev :=
  let d1 := ((d.bump F.SYS_OVERRUN_COUNT 1).put F.SYS_OVERRUN_LANE_LATE (b2n lane)).put F.SYS_OVERRUN_HW_LATE (b2n hw)
  let d2 := (d1.raise 0x00 0).evt (ev 0 1) 1
  { d2 with tab := { d2.tab with telemOverruns := d2.tab.telemOverruns + 1 } }

/-- Counts kept per tempo begin again, and what boundaries copy or release (R94, R128, R131, R166, R449). -/
def Dev.perTempo (d : Dev) : Dev :=
  { d with
    ra := { d.ra with admitLimit := d.get F.SYS_OPENING_ADMIT, admitUsed := 0 }
    pw := { d.pw with rxRestart := false, evcBuf := (List.range 64).map (fun k => (d.get (F.EVC_SRC_ID k), d.evcCount k)) }
    bh := { d.bh with evSent := [] }
    sessions := d.sessions.map (fun (u : Session) => { u with paced := 0 })
    tab := { d.tab with telemCount := if d.is F.TMEM_TELEM_CFG_EN then d.tab.telemCount + 1 else d.tab.telemCount } }

/-! ### Guaranteed slices (R41, R44) -/

/-- The group that takes the one block of a guaranteed pawn slice: the first with a frame to send. -/
def Dev.pawnFirst (d : Dev) : Option Nat :=
  (List.range 4).find? (fun g => decide (0 < d.get (F.PAWN_BUDGET_RATE g)) && (d.pawnNext g).isSome)

/-- The guaranteed slice of calibration reserves at the tempo's start, ahead of transmissions, the load of each group's step that uses the load
(R227): that of the group's greatest entry, until CAL_STEP says which entries the step trims (DESIGN CHOICE, log entry 128). -/
def Dev.reserveCal (d : Dev) : Dev :=
  if d.bg.granted.contains 0 then
    (List.range 4).foldl (fun (x : Dev) g => if x.calCan g && decide (4 ≤ x.calItem g) then x.setStepLoad g (loadMw (hwMax g)) else x) d
  else d

/-- The step of a group's calibration that no CAL_STEP has brought: its outcome and what it measures are free values, and the entries that
a PA step trims are not listed (log entry 128). -/
def Dev.calFree (d : Dev) (g : Nat) : Dev :=
  if d.calCan g then
    let x := d.draw
    x.2.calStep g (Config.freeBool x.1) (Config.freeByte x.1 0).toInt (Config.freeNat x.1 % 2 ^ 32) []
  else d

/-- A job's guaranteed slice (R41, R44). -/
def Dev.guaranteed (d : Dev) (rank : Nat) (errs : List LineError) (fault loc : Nat) : Dev :=
  match rank with
  | 0 => (List.range 4).foldl (fun (x : Dev) g => x.calFree g) d
  | 1 => (d.scrubLines errs 32).bgDo 1 0 32
  | 2 => (List.range 4).foldl (fun (x : Dev) g =>
      if x.enabled (0x24 + g) && x.is (F.FWD_CFG_SWEEP_EN g) then (x.sweep g 32).bgDo 2 g 32 else x) d
  | 3 =>
    let n := min 64 d.tab.telemQueue.length
    (d.telemWrite n).bgDo 3 0 n
  | 4 => match d.pawnFirst with
    | some g => d.pawnServe g true
    | none => d
  | 5 => d.runtimeTest fault loc
  | _ => d

/-- Jobs whose slice may be taken now: during the PROMOTE pause only calibration and the scrub's reads go on (R494). -/
def Dev.sliceRuns (d : Dev) (rank : Nat) : Bool := !d.paused || decide (rank ≤ 1)

/-- Guaranteed slices that no command has taken, with no line in error and no fault (R44). -/
def Dev.takeSlices (d : Dev) (l : List Nat) : Dev :=
  l.foldl (fun (x : Dev) r => if x.sliceRuns r then x.guaranteed r [] 0 0 else x) d

/-- A guaranteed slice is taken at the start of its tempo (R44): before a cycle of it passes, but for the calibration step, which lasts into
the tempo with its load reserved from the start (DESIGN CHOICE, log entry 128). -/
def Dev.slicesNow (d : Dev) : Dev :=
  { d with bg := { d.bg with granted := d.bg.granted.filter (fun r => r == 0) } }.takeSlices (d.bg.granted.filter (fun r => r != 0))

/-- A guaranteed slice is never deferred (R44): what is left of them is taken before the tempo ends. -/
def Dev.slicesLeft (d : Dev) : Dev := d.takeSlices d.bg.granted

/-- The boundary itself, once time has reached it: what is left of the ended tempo, then the list of R39 in its order, with the other
effects of a boundary before its step 2, and the deferral counts of step 6 last (R35 to R48). -/
def Dev.boundaryWork (d : Dev) (x : Samples) : Dev :=
  let d0 := d.slicesLeft.writeBackDue
  let pawnShort := (List.range 4).any (fun g => d0.pawnCould g)
  let d1 := { d0 with tempo := d0.tempo + 1, cycle := 0 }.calBoundary
  let d2 := (d1.takeSamples x).chooseGains
  let d3 := d2.vaultApply.listenCommit.panCommits.txpCommits
  let d4 := d3.resetting.foldl (fun (y : Dev) p => y.softResetDone p) d3
  let d5 := d4.applyPending.refillAll.pawnRefill.dutyClose
  let d6 := d5.sampleAll d5.tempo
  let (d7, late) := d6.pawnTick.stallTick.laneBoundary
  let hw := x.hwLate && !d.paused
  let d8 := if late || hw then d7.overrun late hw else d7
  let d9 := (d8.bgBoundary (late || hw) pawnShort).scrubBoundary.calSeconds.calConditions.reserveCal
  ((d9.evt (ev 0 0) 1).captureEdge 5 true).perTempo

/-! ### Time -/

/-- SYSTIME advances by core cycles of 2.5 ns, slewed by at most 1 part in 5,000 while an offset remains (R453, R472). How fast it
is slewed is a free value. -/
def Dev.sysAdvance (d : Dev) (cycles : Nat) : Dev :=
  if d.bh.slew = 0 then { d with systime := (d.systime + cycles * (5 * 2 ^ 31)) % 2 ^ 96 }
  else
    let x := d.draw
    let most : Int := cycles * (2 ^ 31 / 1000)
    let m : Int := (Config.freeNat x.1 : Int) % (most + 1)
    let step := if 0 < d.bh.slew then min m d.bh.slew else -(min m (-d.bh.slew))
    { x.2 with systime := ((d.systime : Int) + cycles * (5 * 2 ^ 31) + step).toNat % 2 ^ 96, bh := { x.2.bh with slew := d.bh.slew - step } }

/-- The always-on counter advances by core cycles (R89). -/
def Dev.aonTicks (d : Dev) (cycles : Nat) : Dev :=
  if d.is F.CLK_STAT_SLOW_FAULT then d else { d with pw := { d.pw with aonAcc := d.pw.aonAcc + 32 * cycles } }

/-- PPS_OUT falls 100 ms after it rose (R455). -/
def Dev.ppsFall (d : Dev) : Dev :=
  if d.bh.ppsOut = true ∧ 100000000 ≤ d.sysNs % 1000000000 then { d with bh := { d.bh with ppsOut := false } } else d

/-- Measurements that no command supplies are free values. -/
def Dev.freeSamples (d : Dev) : Dev × Samples :=
  let x := d.draw
  (x.2, { tj := (Config.freeByte x.1 0).toInt, vin := (Config.freeByte x.1 1).toNat * 256 + (Config.freeByte x.1 2).toNat,
          vbak := (Config.freeByte x.1 3).toNat * 256 + (Config.freeByte x.1 4).toNat, hwLate := Config.freeBool x.1 })

/-- Time passes with no command. In RUN and IDLE it is one core cycle: SYSTIME, the always-on counter and the timers advance, and at the
end of the tempo the boundary comes. In the other states, where no tempo is counted, it is one slow tick of the always-on counter, which
runs in every state but OFF (R84). -/
def Dev.tick (d : Dev) : Dev :=
  if d.pw.phase = .off then d
  else if d.pw.phase = .sleep then d.aonTo (d.pw.aonSlept + 1)
  else if !d.awake then (if d.is F.CLK_STAT_SLOW_FAULT then d else { d with pw := { d.pw with aonAcc := d.pw.aonAcc + aonTick } })
  else
    let d1 := (((d.slicesNow.sysAdvance 1).aonTicks 1).timCycle).ppsFall
    if 100000 ≤ d1.cycle + 1 then
      let y := d1.freeSamples
      y.1.boundaryWork y.2
    else { d1 with cycle := d1.cycle + 1 }

/-! ### Meanings -/

/-- TEMPO_BOUNDARY: the tempo ends. SYSTIME, the always-on counter and the timers are brought to the boundary, and its work runs; junction
temperature, supplies and a late closure are what the device measures (R35 to R48). -/
def execTempoBoundary (tj : BitVec 8) (vin : BitVec 16) (vbak : BitVec 10) (hwLate : Bool) (s : State) :
    Host.Outcome State Fault Refusal :=
  runs s (fun d =>
    if d.awake then
      let left := 100000 - d.cycle
      (((d.slicesNow.sysAdvance left).aonTicks left).timCycles left).ppsFall.boundaryWork { tj := tj.toInt, vin := vin.toNat, vbak := vbak.toNat, hwLate := hwLate }
    else d)

/-- GUARANTEED_SLICE: the job of a rank takes the guaranteed slice granted at this boundary; `errs` are the lines that read in
error, and `fault` what a slice of the self-test finds (R43, R44). -/
def execGuaranteedSlice (rank : Fin 6) (errs : List LineError) (fault : TestFault) (s : State) : Host.Outcome State Fault Refusal :=
  runs s (fun d =>
    if d.awake && d.bg.granted.contains rank.val && d.sliceRuns rank then
      ({ d with bg := { d.bg with granted := d.bg.granted.filter (fun r => r != rank.val) } }).guaranteed rank errs fault.code fault.loc
    else d)

end Sys2Proof.Machine
end

