-- ==== Sys2Proof/Machine/TableReads.lean ====
section
/-! DEFINITION. Rows whose foreground reads of table memory meet errors: the begin of a ring command, step 2, and channel access (R156, R312, R357,
R407). -/

namespace Sys2Proof.Machine

/-- A command begins, and the lines of table memory that it reads in error are met (R357); an opcode that no owner defines completes with RANGE
(R152). -/
def Dev.begin (d : Dev) (n hseq : Nat) (errs : List LineError) : Dev :=
  match d.inflight.find? (fun c => c.ring == n && c.e.hseq == hseq && !c.begun) with
  | none => d
  | some c =>
    if !d.mayBegin c then d
    else
      let d1 := d.begun n hseq
      if d1.tooLate c.e then d1.endLate (.ring n hseq) c.e (d1.lateCode c.e)
      else if opcodes.contains c.e.opcode then d1.strikes errs else d1.finish (.ring n hseq) 0x01 []

/-- CHANNEL_ACCESS of a frame, if it still stands there. -/
def Dev.accessOf (d : Dev) (id : Nat) : Dev :=
  match d.tx id with
  | some t => d.channelAccess t
  | none => d

/-- Step 2 of the oldest command or packet that still stands there. -/
def Dev.admitOldest (d : Dev) : Dev :=
  match d.ra.txs.find? (fun t => t.stage == .step2) with
  | some t => d.admission (if t.pkt = 0 then [t] else d.ra.txs.filter (fun u => u.pkt == t.pkt && u.stage == .step2))
  | none => d

/-! ### Meanings -/

/-- COMMAND_BEGIN: an accepted command begins, once order and fence permit (R156), with the errors of the lines of table memory that it is to
read (R357). -/
def execCommandBegin (ring : Fin 8) (hseq : Reads Nat) (s : State) : Host.Outcome State Fault Refusal :=
  runs s (fun d => if d.awake && !d.is F.UPD_STAT_PAUSE then d.begin ring hseq.of hseq.errs else d)

/-- DOWNLINK_ADMISSION: the oldest command or packet at step 2 is checked, policed and appended to its flow, or refused
(R407, R409). No error is met in the lines it reads (log entry 142). -/
def execDownlinkAdmission (s : State) : Host.Outcome State Fault Refusal :=
  runs s (fun d => if d.ra.txs.any (fun t => t.stage == .step2) then d.admitOldest else d)

/-- CHANNEL_ACCESS: a frame at step 4, or to be repeated, is placed, checked for duty and occupancy, and sent to
listen-before-talk (R312). -/
def execChannelAccess (id : Reads Nat) (s : State) : Host.Outcome State Fault Refusal :=
  runs s (fun d => match d.tx id.of with
    | some t => if d.paused = false ∧ !d.noGrants ∧ (t.stage = .step4 ∨ (t.stage = .repeating ∧ (t.timed = true ∨ t.readyT ≤ d.tempo))) then (d.strikes id.errs).accessOf id.of else d
    | none => d)

end Sys2Proof.Machine
end

