-- ==== Sys2Proof/Machine/VotedTx.lean ====
section
/-! DEFINITION. Outputs of stage TX that no VOTE command brings: fixed-instant frames, and the swaps of castling (R32, R174, R234, R236, R295,
R318, R319). -/

namespace Sys2Proof.Machine

/-- A fixed-instant frame that reaches its release (R200, R295, R318, R319), a turnaround before its ramp: missed, or sent. `inTime` says
that steps 3 and 4 were complete and the chain is locked on its channel in time; `air` is what the release finds. It passes the vault and the
budget, and at stage TX the voter, on a command that the live lanes present alike, as every frame does (R32, R174; log entry 103); with no lane
running it cannot be. -/
def Dev.fixedSend (d : Dev) (t : Tx) (inTime : Bool) (a : AirSense) : Dev :=
  if !inTime || !d.lanesRun || !d.enabled 0x16 || (d.airTx t.port).isSome || (d.slotRefuses t).isSome || d.paused || d.noGrants then
    d.txFinish t 0x03 8 false 0
  else
    let lead := d.turnaroundNs t
    let (d1, ok, wait) := (d.secureAhead t).secureTx t
    if wait || !ok then d1.txFinish t 0x07 14 false 0
    else match d1.tx t.id with
      | none => d1
      | some t1 =>
        let spent := match d1.slotInForce ((d1.slotFor t1.group t1.freq).getD 32) with
          | some r =>
            let s := (d1.slotFor t1.group t1.freq).getD 32
            let keep := if t1.kind = TxKind.ack then 0 else d1.get (F.MAC_DUTY_CFG_ACK_RESERVE t1.group) * 360000
            decide (r.budgetUs < d1.dutyHour s + d1.dutyReserved s t1.id + t1.airtime + keep)
          | none => false
        if spent then d1.txFinish t1 0x0F 12 false 0
        else
          let d2 := d1.vaultStep { t1 with planned := d1.monoUs + (lead + 999) / 1000 }
          match d2.tx t1.id with
          | none => d2
          | some t2 =>
            let r := d2.slotInForce t2.vslot
            let busy := t2.kind != TxKind.ack && (match r with
              | some x => x.lbtEn && d2.airBusy t2 x a.power
              | none => false)
            if busy then d2.txFinish t2 0x06 9 false 0
            else
              let g := t2.group
              let c := d2.chainOf t2.port
              let d3 := ((d2.voteAgreed 0).txUpd t2.id (fun x => { x with stage := .voted })).displace t2.port
              let d4 := ((d3.tune (deviceChain g c) t2.freq).setTxLock g c true).sampleGrant t2 a.grant
              d4.release { t2 with stage := .voted } a lead

/-- ACK_SEND: the acknowledgment of a port reaches the ball at its fixed instant, or is missed (R318, R319). -/
def execAckSend (port : Fin 32) (inTime grant : Bool) (s : State) : Host.Outcome State Fault Refusal :=
  runs s (fun d => match d.ra.txs.find? (fun t => t.port == port.val && t.kind == TxKind.ack && t.stage == .step5) with
    | some t => d.fixedSend t inTime ⟨[], grant⟩
    | none => d)

/-- ASSOCIATION_RESPONSE: the response of a port is sent at its fixed instant, or missed (R295). -/
def execAssociationResponse (port : Fin 32) (inTime : Bool) (power : List (Option Int)) (grant : Bool) (s : State) : Host.Outcome State Fault Refusal :=
  runs s (fun d => match d.ra.txs.find? (fun t => t.port == port.val && t.kind == .assocResp && t.stage == .step5) with
    | some t => d.fixedSend t inTime ⟨power, grant⟩
    | none => d)

/-- SWAP_POINT: at the end of a ramp-down or on SWAP_WAIT's expiry, never while the port transmits, the ball switches chain,
with a gap of so many samples (R236, R237). The swap is an output of stage TX that the live lanes present alike (R174, log entry 103); in the
PROMOTE pause, when no lane runs, swaps continue (R241). -/
def execSwapPoint (g : Fin 4) (gap : Fin 65) (s : State) : Host.Outcome State Fault Refusal :=
  runs s (fun d =>
    let c := d.calChain g
    if !d.swapPoint g (8 * g.val + c) || !(d.lanesRun || d.paused) then d
    else if d.calState g = 1 then
      let d0 := if d.lanesRun then d.voteAgreed 0 else d
      let d1 := ((d0.swap g c gap).put (F.RFG_CHAIN_MAP_CASTLING g) 1).put (F.RFG_CHAIN_MAP_SECTOR g) c
      (((d1.setCalState g 2).setChainState g 8 3).setCalg g { d1.calg g with settled := false }).slotFollows (8 * g.val + c)
    else if d.calState g = 4 then ((if d.lanesRun then d.voteAgreed 0 else d).swapBack g c gap).calEnded g
    else d)

end Sys2Proof.Machine
end

