-- ==== Sys2Proof/Machine/Dispatch.lean ====
section
/-! DEFINITION. One arm per command: each calls its meaning. -/

namespace Sys2Proof.Machine

def exec (i : Instr) (s : State) : Host.Outcome State Fault Refusal :=
  match i with
  | .tempoBoundary tj vin vbak hwLate => Sys2Proof.Machine.execTempoBoundary tj vin vbak hwLate s
  | .guaranteedSlice rank errs fault => Sys2Proof.Machine.execGuaranteedSlice rank errs fault s
  | .scrubWriteBack => Sys2Proof.Machine.execScrubWriteBack s
  | .vinLow => Sys2Proof.Machine.execVinLow s
  | .vinLowCleared => Sys2Proof.Machine.execVinLowCleared s
  | .vinHigh => Sys2Proof.Machine.execVinHigh s
  | .vinHighCleared => Sys2Proof.Machine.execVinHighCleared s
  | .vbakLow => Sys2Proof.Machine.execVbakLow s
  | .vbakLowCleared => Sys2Proof.Machine.execVbakLowCleared s
  | .vbakAbsent => Sys2Proof.Machine.execVbakAbsent s
  | .vbakAbsentCleared => Sys2Proof.Machine.execVbakAbsentCleared s
  | .sag => Sys2Proof.Machine.execSag s
  | .saveComplete writes vin => Sys2Proof.Machine.execSaveComplete writes vin s
  | .resignGo value => Sys2Proof.Machine.execResignGo value s
  | .thermalShutdown => Sys2Proof.Machine.execThermalShutdown s
  | .bankMeasure usable volt => Sys2Proof.Machine.execBankMeasure usable volt s
  | .targetIdle value => Sys2Proof.Machine.execTargetIdle value s
  | .idleEntry => Sys2Proof.Machine.execIdleEntry s
  | .targetRun value => Sys2Proof.Machine.execTargetRun value s
  | .runEntry => Sys2Proof.Machine.execRunEntry s
  | .targetSleep value => Sys2Proof.Machine.execTargetSleep value s
  | .sleepEntry => Sys2Proof.Machine.execSleepEntry s
  | .sleepRequestTimeout => Sys2Proof.Machine.execSleepRequestTimeout s
  | .wake src line rising tick => Sys2Proof.Machine.execWake src line rising tick s
  | .wakeTimerExpiry => Sys2Proof.Machine.execWakeTimerExpiry s
  | .wakeComplete ticks pllCycles => Sys2Proof.Machine.execWakeComplete ticks pllCycles s
  | .refDeviationWindow ppb => Sys2Proof.Machine.execRefDeviationWindow ppb s
  | .refStopped => Sys2Proof.Machine.execRefStopped s
  | .pllUnlock => Sys2Proof.Machine.execPllUnlock s
  | .slowClockStopped => Sys2Proof.Machine.execSlowClockStopped s
  | .powerUp testEn => Sys2Proof.Machine.execPowerUp testEn s
  | .railsUp pllCycles => Sys2Proof.Machine.execRailsUp pllCycles s
  | .loadComplete flaws => Sys2Proof.Machine.execLoadComplete flaws s
  | .selftestSlice fault loc ext cages us => Sys2Proof.Machine.execSelftestSlice fault loc ext cages us s
  | .copyComplete us => Sys2Proof.Machine.execCopyComplete us s
  | .laneStart => Sys2Proof.Machine.execLaneStart s
  | .startupCalibration steps temps trims => Sys2Proof.Machine.execStartupCalibration steps temps trims s
  | .release ticks pwrupT => Sys2Proof.Machine.execRelease ticks pwrupT s
  | .resetNLow => Sys2Proof.Machine.execResetNLow s
  | .resetNHigh qualified testEn => Sys2Proof.Machine.execResetNHigh qualified testEn s
  | .runtimeSelftestSlice fault => Sys2Proof.Machine.execRuntimeSelftestSlice fault s
  | .arm value => Sys2Proof.Machine.execArm value s
  | .confirm testEn value => Sys2Proof.Machine.execConfirm testEn value s
  | .zeroiseComplete => Sys2Proof.Machine.execZeroiseComplete s
  | .openingEnd => Sys2Proof.Machine.execOpeningEnd s
  | .regWriteGeneric addr be data => Sys2Proof.Machine.execRegWriteGeneric addr be data s
  | .rcRead addr => Sys2Proof.Machine.execRcRead addr s
  | .pairLoStage addr be data => Sys2Proof.Machine.execPairLoStage addr be data s
  | .pairHiCommit addr be data => Sys2Proof.Machine.execPairHiCommit addr be data s
  | .irqPendClear page value => Sys2Proof.Machine.execIrqPendClear page value s
  | .softReset page value => Sys2Proof.Machine.execSoftReset page value s
  | .softResetDone page => Sys2Proof.Machine.execSoftResetDone page s
  | .freeze page value => Sys2Proof.Machine.execFreeze page value s
  | .bar2Read off whole errs => Sys2Proof.Machine.execBar2Read off whole errs s
  | .bar2Write off bytes all value errs => Sys2Proof.Machine.execBar2Write off bytes all value errs s
  | .sqDoorbell n value => Sys2Proof.Machine.execSqDoorbell n value s
  | .cqDoorbell n value => Sys2Proof.Machine.execCqDoorbell n value s
  | .ringEnable n value => Sys2Proof.Machine.execRingEnable n value s
  | .ringDisable n value => Sys2Proof.Machine.execRingDisable n value s
  | .cqBaseWrite n value => Sys2Proof.Machine.execCqBaseWrite n value s
  | .commandEntry ring bytes via => Sys2Proof.Machine.execCommandEntry ring bytes via s
  | .commandBegin ring hseq => Sys2Proof.Machine.execCommandBegin ring hseq s
  | .latestStartPass ring hseq => Sys2Proof.Machine.execLatestStartPass ring hseq s
  | .completionWrite ring => Sys2Proof.Machine.execCompletionWrite ring s
  | .ringDmaError ring => Sys2Proof.Machine.execRingDmaError ring s
  | .nop ring hseq => Sys2Proof.Machine.execNop ring hseq s
  | .regRead ring hseq => Sys2Proof.Machine.execRegRead ring hseq s
  | .regWrite ring hseq => Sys2Proof.Machine.execRegWrite ring hseq s
  | .resync ring hseq => Sys2Proof.Machine.execResync ring hseq s
  | .msixPost vector canPost => Sys2Proof.Machine.execMsixPost vector canPost s
  | .msixGapExpiry vector canPost => Sys2Proof.Machine.execMsixGapExpiry vector canPost s
  | .eventRecordSend source => Sys2Proof.Machine.execEventRecordSend source s
  | .softSet value => Sys2Proof.Machine.execSoftSet value s
  | .vote stage port outs half0 => Sys2Proof.Machine.execVote stage port outs half0 s
  | .sramUe lane => Sys2Proof.Machine.execSramUe lane s
  | .endOfTempoMark marks half0 => Sys2Proof.Machine.execEndOfTempoMark marks half0 s
  | .quarantineEnd lane pass => Sys2Proof.Machine.execQuarantineEnd lane pass s
  | .admitReq value => Sys2Proof.Machine.execAdmitReq value s
  | .admissionCopyDone => Sys2Proof.Machine.execAdmissionCopyDone s
  | .admissionComplete => Sys2Proof.Machine.execAdmissionComplete s
  | .dryStart value => Sys2Proof.Machine.execDryStart value s
  | .dryAbort value => Sys2Proof.Machine.execDryAbort value s
  | .dryEnd => Sys2Proof.Machine.execDryEnd s
  | .portServiceChange g ctrl value => Sys2Proof.Machine.execPortServiceChange g ctrl value s
  | .chainLock locks => Sys2Proof.Machine.execChainLock locks s
  | .rxLoUnlock chain => Sys2Proof.Machine.execRxLoUnlock chain s
  | .lockFail chain => Sys2Proof.Machine.execLockFail chain s
  | .slotCommand port => Sys2Proof.Machine.execSlotCommand port s
  | .delayLineFill port => Sys2Proof.Machine.execDelayLineFill port s
  | .txRelease port power grant => Sys2Proof.Machine.execTxRelease port power grant s
  | .txEnd port => Sys2Proof.Machine.execTxEnd port s
  | .txUnlockAbort port => Sys2Proof.Machine.execTxUnlockAbort port s
  | .paProtect port => Sys2Proof.Machine.execPaProtect port s
  | .maskViolation port window samples => Sys2Proof.Machine.execMaskViolation port window samples s
  | .coexGrantLoss => Sys2Proof.Machine.execCoexGrantLoss s
  | .blankPin g level => Sys2Proof.Machine.execBlankPin g level s
  | .blankExtExpiry g => Sys2Proof.Machine.execBlankExtExpiry g s
  | .rfLimitWrite value => Sys2Proof.Machine.execRfLimitWrite value s
  | .step5Check port => Sys2Proof.Machine.execStep5Check port s
  | .fcntReserveDone slot verified => Sys2Proof.Machine.execFcntReserveDone slot verified s
  | .fcntReserveRetry slot => Sys2Proof.Machine.execFcntReserveRetry slot s
  | .occWindowStart => Sys2Proof.Machine.execOccWindowStart s
  | .vaultCommit ring hseq => Sys2Proof.Machine.execVaultCommit ring hseq s
  | .vaultBurnDone => Sys2Proof.Machine.execVaultBurnDone s
  | .draftReload value => Sys2Proof.Machine.execDraftReload value s
  | .calDue g temps => Sys2Proof.Machine.execCalDue g temps s
  | .calStep g ok found => Sys2Proof.Machine.execCalStep g ok found s
  | .castlingSettled g => Sys2Proof.Machine.execCastlingSettled g s
  | .swapPoint g gap => Sys2Proof.Machine.execSwapPoint g gap s
  | .castlingReturn g chain => Sys2Proof.Machine.execCastlingReturn g chain s
  | .calRequest ring hseq => Sys2Proof.Machine.execCalRequest ring hseq s
  | .preambleDetect port entry chan => Sys2Proof.Machine.execPreambleDetect port entry chan s
  | .syncFound id strength snr cfo level word => Sys2Proof.Machine.execSyncFound id strength snr cfo level word s
  | .syncTimeout id => Sys2Proof.Machine.execSyncTimeout id s
  | .mergeWindowClose id snr => Sys2Proof.Machine.execMergeWindowClose id snr s
  | .phrInvalid id frame => Sys2Proof.Machine.execPhrInvalid id frame s
  | .frameCheck id fcs2 white len bytes => Sys2Proof.Machine.execFrameCheck id fcs2 white len bytes s
  | .contextAbandon id => Sys2Proof.Machine.execContextAbandon id s
  | .gainStepDown chain => Sys2Proof.Machine.execGainStepDown chain s
  | .lselWrite value => Sys2Proof.Machine.execLselWrite value s
  | .listenCommit value => Sys2Proof.Machine.execListenCommit value s
  | .listenLoad value => Sys2Proof.Machine.execListenLoad value s
  | .rxRecordWrite ring => Sys2Proof.Machine.execRxRecordWrite ring s
  | .rxrConsWrite n value => Sys2Proof.Machine.execRxrConsWrite n value s
  | .rxrBaseWrite n value => Sys2Proof.Machine.execRxrBaseWrite n value s
  | .rxRingTimeout ring => Sys2Proof.Machine.execRxRingTimeout ring s
  | .rxRingDmaError ring => Sys2Proof.Machine.execRxRingDmaError ring s
  | .uplinkPipeline g errs => Sys2Proof.Machine.execUplinkPipeline g errs s
  | .txRaw ring hseq => Sys2Proof.Machine.execTxRaw ring hseq s
  | .setSelWrite value => Sys2Proof.Machine.execSetSelWrite value s
  | .setDataAccess write value => Sys2Proof.Machine.execSetDataAccess write value s
  | .setCommit value => Sys2Proof.Machine.execSetCommit value s
  | .setLoad value => Sys2Proof.Machine.execSetLoad value s
  | .profDataWrite value => Sys2Proof.Machine.execProfDataWrite value s
  | .downlinkAdmission => Sys2Proof.Machine.execDownlinkAdmission s
  | .frameSelection port => Sys2Proof.Machine.execFrameSelection port s
  | .channelAccess id => Sys2Proof.Machine.execChannelAccess id s
  | .minuteBinRoll => Sys2Proof.Machine.execMinuteBinRoll s
  | .backoffExpiry id power grant => Sys2Proof.Machine.execBackoffExpiry id power grant s
  | .lbtNewRound id => Sys2Proof.Machine.execLbtNewRound id s
  | .beaconDue pan port => Sys2Proof.Machine.execBeaconDue pan port s
  | .beaconSkip id => Sys2Proof.Machine.execBeaconSkip id s
  | .associationResponse port inTime power grant => Sys2Proof.Machine.execAssociationResponse port inTime power grant s
  | .ackSend port inTime grant => Sys2Proof.Machine.execAckSend port inTime grant s
  | .ackWaitExpiry id => Sys2Proof.Machine.execAckWaitExpiry id s
  | .peerAbsent peer => Sys2Proof.Machine.execPeerAbsent peer s
  | .peerAdoptable peer => Sys2Proof.Machine.execPeerAdoptable peer s
  | .peerAdopt ring hseq => Sys2Proof.Machine.execPeerAdopt ring hseq s
  | .macSend ring hseq => Sys2Proof.Machine.execMacSend ring hseq s
  | .nodeRelease ring hseq => Sys2Proof.Machine.execNodeRelease ring hseq s
  | .nodeTiming ring hseq => Sys2Proof.Machine.execNodeTiming ring hseq s
  | .nodeScan ring hseq => Sys2Proof.Machine.execNodeScan ring hseq s
  | .floodSend ring hseq => Sys2Proof.Machine.execFloodSend ring hseq s
  | .floodRelay id => Sys2Proof.Machine.execFloodRelay id s
  | .panSelWrite g value => Sys2Proof.Machine.execPanSelWrite g value s
  | .panCommit g value => Sys2Proof.Machine.execPanCommit g value s
  | .panLoad g value => Sys2Proof.Machine.execPanLoad g value s
  | .keyLoad ring hseq => Sys2Proof.Machine.execKeyLoad ring hseq s
  | .keyErase ring hseq => Sys2Proof.Machine.execKeyErase ring hseq s
  | .keyBind ring hseq => Sys2Proof.Machine.execKeyBind ring hseq s
  | .keyInfo ring hseq => Sys2Proof.Machine.execKeyInfo ring hseq s
  | .ownerLock ring hseq => Sys2Proof.Machine.execOwnerLock ring hseq s
  | .ownerRekey ring hseq => Sys2Proof.Machine.execOwnerRekey ring hseq s
  | .panSecWrite p value => Sys2Proof.Machine.execPanSecWrite p value s
  | .dirLoad ring hseq => Sys2Proof.Machine.execDirLoad ring hseq s
  | .dirLoadBatch errs => Sys2Proof.Machine.execDirLoadBatch errs s
  | .dirRemove ring hseq => Sys2Proof.Machine.execDirRemove ring hseq s
  | .dirFind ring hseq => Sys2Proof.Machine.execDirFind ring hseq s
  | .fwdFlush ring hseq => Sys2Proof.Machine.execFwdFlush ring hseq s
  | .tmemClearLine ring hseq => Sys2Proof.Machine.execTmemClearLine ring hseq s
  | .scrubSlice lines errs => Sys2Proof.Machine.execScrubSlice lines errs s
  | .scrubEnWrite value => Sys2Proof.Machine.execScrubEnWrite value s
  | .cellScan => Sys2Proof.Machine.execCellScan s
  | .timingClearSlice => Sys2Proof.Machine.execTimingClearSlice s
  | .telemSnapshot => Sys2Proof.Machine.execTelemSnapshot s
  | .telemWriteSlice lines => Sys2Proof.Machine.execTelemWriteSlice lines s
  | .telemDatagram port num => Sys2Proof.Machine.execTelemDatagram port num s
  | .sweepVisit g n => Sys2Proof.Machine.execSweepVisit g n s
  | .qschFlush ring hseq => Sys2Proof.Machine.execQschFlush ring hseq s
  | .egressService port => Sys2Proof.Machine.execEgressService port s
  | .linkChange port up fec => Sys2Proof.Machine.execLinkChange port up fec s
  | .moduleInsert port => Sys2Proof.Machine.execModuleInsert port s
  | .moduleRemove port => Sys2Proof.Machine.execModuleRemove port s
  | .vsfpOvercurrent port => Sys2Proof.Machine.execVsfpOvercurrent port s
  | .bhlModuleRead ring hseq bytes => Sys2Proof.Machine.execBhlModuleRead ring hseq bytes s
  | .neighborSolicitation port tag target => Sys2Proof.Machine.execNeighborSolicitation port tag target s
  | .echoRequest port tag target => Sys2Proof.Machine.execEchoRequest port tag target s
  | .routerAdvertisement port tag mac => Sys2Proof.Machine.execRouterAdvertisement port tag mac s
  | .downlinkPacket port tag packet => Sys2Proof.Machine.execDownlinkPacket port tag packet s
  | .reasmTimeout => Sys2Proof.Machine.execReasmTimeout s
  | .openSession port addr udp tag bytes => Sys2Proof.Machine.execOpenSession port addr udp tag bytes s
  | .closeSession port addr udp tag bytes => Sys2Proof.Machine.execCloseSession port addr udp tag bytes s
  | .keepalive port addr udp tag bytes => Sys2Proof.Machine.execKeepalive port addr udp tag bytes s
  | .brzCmd port addr udp tag bytes => Sys2Proof.Machine.execBrzCmd port addr udp tag bytes s
  | .hdata port addr udp tag bytes => Sys2Proof.Machine.execHdata port addr udp tag bytes s
  | .hdataWrite errs => Sys2Proof.Machine.execHdataWrite errs s
  | .sessionIdleTimeout port num => Sys2Proof.Machine.execSessionIdleTimeout port num s
  | .keepaliveSend port num => Sys2Proof.Machine.execKeepaliveSend port num s
  | .datagramSend port num kind => Sys2Proof.Machine.execDatagramSend port num kind s
  | .ptpExchange exchange => Sys2Proof.Machine.execPtpExchange exchange s
  | .ptpAnnounce heard => Sys2Proof.Machine.execPtpAnnounce heard s
  | .ptpSyncTimeout => Sys2Proof.Machine.execPtpSyncTimeout s
  | .announceTimeout => Sys2Proof.Machine.execAnnounceTimeout s
  | .ppsInEdge => Sys2Proof.Machine.execPpsInEdge s
  | .ppsOutSecond => Sys2Proof.Machine.execPpsOutSecond s
  | .pcieReset kind => Sys2Proof.Machine.execPcieReset kind s
  | .countClock n => Sys2Proof.Machine.execCountClock n s
  | .timStart value => Sys2Proof.Machine.execTimStart value s
  | .timStop value => Sys2Proof.Machine.execTimStop value s
  | .countWrite n value => Sys2Proof.Machine.execCountWrite n value s
  | .reloadWrite n value => Sys2Proof.Machine.execReloadWrite n value s
  | .prescWrite n value => Sys2Proof.Machine.execPrescWrite n value s
  | .capture src rising => Sys2Proof.Machine.execCapture src rising s
  | .sleepCapture src rising tick => Sys2Proof.Machine.execSleepCapture src rising tick s
  | .ccrRead n c => Sys2Proof.Machine.execCcrRead n c s
  | .debugHalt halt => Sys2Proof.Machine.execDebugHalt halt s
  | .systimeWrite value => Sys2Proof.Machine.execSystimeWrite value s
  | .evcSrcWrite k value => Sys2Proof.Machine.execEvcSrcWrite k value s
  | .evcClear k value => Sys2Proof.Machine.execEvcClear k value s
  | .gpioEdge j rising => Sys2Proof.Machine.execGpioEdge j rising s
  | .gpioSet value => Sys2Proof.Machine.execGpioSet value s
  | .gpioClr value => Sys2Proof.Machine.execGpioClr value s
  | .svcPoll => Sys2Proof.Machine.execSvcPoll s
  | .svcRequest bytes => Sys2Proof.Machine.execSvcRequest bytes s
  | .svcRead n => Sys2Proof.Machine.execSvcRead n s
  | .svcInfo => Sys2Proof.Machine.execSvcInfo s
  | .stageBegin => Sys2Proof.Machine.execStageBegin s
  | .stageData => Sys2Proof.Machine.execStageData s
  | .stageCommit => Sys2Proof.Machine.execStageCommit s
  | .stageAbort => Sys2Proof.Machine.execStageAbort s
  | .stagingIdleTimeout => Sys2Proof.Machine.execStagingIdleTimeout s
  | .svcPromote => Sys2Proof.Machine.execSvcPromote s
  | .ownerInit => Sys2Proof.Machine.execOwnerInit s
  | .selftest => Sys2Proof.Machine.execSelftest s
  | .svcCmd bytes => Sys2Proof.Machine.execSvcCmd bytes s
  | .promote ring hseq => Sys2Proof.Machine.execPromote ring hseq s
  | .promoteVerifyDone => Sys2Proof.Machine.execPromoteVerifyDone s
  | .promoteEntry => Sys2Proof.Machine.execPromoteEntry s
  | .promoteRestart => Sys2Proof.Machine.execPromoteRestart s
  | .promoteReady => Sys2Proof.Machine.execPromoteReady s
  | .promoteFail => Sys2Proof.Machine.execPromoteFail s
  | .updPolicy ring hseq => Sys2Proof.Machine.execUpdPolicy ring hseq s
  | .updInfo ring hseq => Sys2Proof.Machine.execUpdInfo ring hseq s
  | .motionQualify => Sys2Proof.Machine.execMotionQualify s
  | .motionHoldExpiry => Sys2Proof.Machine.execMotionHoldExpiry s
  | .pawnLoad ring hseq => Sys2Proof.Machine.execPawnLoad ring hseq s
  | .pawnSeal ring hseq => Sys2Proof.Machine.execPawnSeal ring hseq s
  | .pawnStart ring hseq => Sys2Proof.Machine.execPawnStart ring hseq s
  | .pawnStop ring hseq => Sys2Proof.Machine.execPawnStop ring hseq s
  | .pawnChain ring hseq => Sys2Proof.Machine.execPawnChain ring hseq s
  | .pawnClear ring hseq => Sys2Proof.Machine.execPawnClear ring hseq s
  | .pawnSetup => Sys2Proof.Machine.execPawnSetup s
  | .pawnSend g => Sys2Proof.Machine.execPawnSend g s
  | .pawnRetryTimeout image chain => Sys2Proof.Machine.execPawnRetryTimeout image chain s
  | .pawnStallTimeout image chain => Sys2Proof.Machine.execPawnStallTimeout image chain s
  | .bankCharged => Sys2Proof.Machine.execBankCharged s
  | .pcieLinkUp host link => Sys2Proof.Machine.execPcieLinkUp host link s

end Sys2Proof.Machine
end

