-- ==== Sys2Proof/Machine/Balls.lean ====
section
/-! DEFINITION. The levels of the output balls, which the state makes: nothing here is stored (R65, R67, R70, R82, R133, R166,
R211, R435, R455, R513, R514). -/

namespace Sys2Proof.Machine

/-- What a ball does: driven low, driven high, carrying the bits of a serial transaction that is under way (clock and data of a
module's I2C, the data of the service port), or released (an open drain that is not pulled, an output that is
high-impedance). -/
inductive Level where
  | low | high | data | released
  deriving DecidableEq, Repr

/-- A driven level. -/
def Level.of (b : Bool) : Level := if b then .high else .low

/-- In STANDBY and OFF every logic ball is unpowered (R65). -/
def Dev.unpowered (d : Dev) : Bool := d.pw.phase == .off || d.pw.phase == .standby

/-- PWR_GOOD (R82). -/
def Dev.ballPwrGood (d : Dev) : Level := if d.unpowered then .released else .of d.pw.pwrGood

/-- VOUT_3V3 is on (R70). -/
def Dev.ballVout (d : Dev) : Bool := d.pw.vout3v3

/-- The code on STATUS_3 to STATUS_0 after release with MODE 0: 0x5 during the Opening (R127), then the rows of R133. DEDUCED:
R127's words name no exception but MODE, so 0x5 holds in IDLE, in SLEEP and with test access open too (log entry 109). -/
def Dev.runCode (d : Dev) : Nat :=
  if d.tempo < 4000 then 0x5
  else if d.pw.phase == .sleep then 0x8
  else if d.is F.BIST_TEST_ACCESS then 0xE
  else if d.pw.phase == .idle then 0x7
  else 0x6

/-- STATUS_3 to STATUS_0 as a number; none while they are high-impedance (R106, R107, R118, R133). DESIGN CHOICE: 0xC stays until
Rails where a start from the reset hold waits in Qualify, and the code after release stays through a resignation (log entry
110). -/
def Dev.ballStatus (d : Dev) : Option Nat :=
  match d.pw.phase with
  | .off | .standby => none
  | .rails => if d.pw.vout3v3 then some 0x1 else none
  | .load => some 0x1
  | .selftest => some 0x2
  | .copy | .laneStart => some 0x3
  | .calibration | .releaseWait => some 0x4
  | .resetHold => some 0xC
  | .safe => some 0xF
  | .run | .idle | .sleep | .resigning =>
    some (if d.is F.SYS_STATUS_PINS_MODE then d.get F.SYS_STATUS_PINS_VALUE else d.runCode)

/-- IRQ_N: low while a pending source is enabled in IRQ.PIN_EN_A or IRQ.PIN_EN_B (R65, R166). -/
def Dev.ballIrqN (d : Dev) : Level :=
  if d.awake && (List.range 64).any (fun s =>
      (if s < 32 then bit (d.rd R.IRQ_PIN_EN_A) s else bit (d.rd R.IRQ_PIN_EN_B) (s - 32)) && d.srcPending s)
  then .low else .released

/-- COEX_REQ and COEX_PRI (R65, R211). -/
def Dev.ballCoexReq (d : Dev) : Level := if d.unpowered then .released else .of (d.awake && d.coexReq)
def Dev.ballCoexPri (d : Dev) : Level := if d.unpowered then .released else .of (d.awake && d.coexPri)

/-- PPS_OUT (R65, R455). -/
def Dev.ballPpsOut (d : Dev) : Level :=
  if d.unpowered then .released
  else .of (d.awake && d.bh.ppsOut && d.is F.PTP_CFG_PPS_OUT_EN && (d.is F.TIM_SYSTIME_STAT_SYNC || d.is F.PTP_CFG_PPS_FREE))

/-- GPIO_j: an output drives OUT while the page is enabled in RUN or IDLE; an open drain drives low only (R513, R514). -/
def Dev.ballGpio (d : Dev) (j : Nat) : Level :=
  if d.awake && d.enabled 0x09 && bit (d.rd R.GPIO_DIR) j then
    (if bit (d.rd R.GPIO_OUT) j then (if bit (d.rd R.GPIO_OD) j then .released else .high) else .low)
  else .released

/-- VSFP_n supplies its cage (R67, R68). -/
def Dev.ballVsfp (d : Dev) (n : Nat) : Bool := d.vsfpWanted n

/-- SFP_TXDIS_n: low only while the port is enabled and VSFP_n is on (R65, R435). -/
def Dev.ballTxDis (d : Dev) (n : Nat) : Level :=
  if d.unpowered then .released else .of (!(d.enabled (0x30 + n) && d.vsfpWanted n))

/-- SFP_RATE_n[1:0]: both high at 25 Gb/s, both low at 10 Gb/s: at the rate in force (R65, R433, R435). -/
def Dev.ballRate (d : Dev) (n : Nat) : Level :=
  if d.unpowered then .released else .of (d.awake && d.rate25 n)

/-- SVC_MISO (R65, R479): high-impedance while SVC_CS_N is high. -/
def Dev.ballMiso (d : Dev) : Level := if d.unpowered || d.pins.svcCsN then .released else .data

/-- SFP_SCL_n and SFP_SDA_n (R65, R68): released, but for the transactions that read a module from 300 ms after its supply is up. -/
def Dev.ballI2c (d : Dev) (n : Nat) : Level :=
  if d.awake && d.vsfpWanted n && decide (d.bh.moduleT.getD n 0 + 1208 ≤ d.tempo) then .data else .released

/-- What a ball does without the JTAG port: every row of R65 that drives one. CLKREQ_N and WAKE_N are released: no rule pulls
them. -/
def Dev.ballLevel (d : Dev) : OutBall → Level
  | .svcMiso => d.ballMiso
  | .jtagTdo => if d.unpowered then .released else match d.pins.tap.shifting with
    | some b => .of b
    | none => .released
  | .coexReq => d.ballCoexReq
  | .coexPri => d.ballCoexPri
  | .irqN => d.ballIrqN
  | .pwrGood => d.ballPwrGood
  | .ppsOut => d.ballPpsOut
  | .clkreqN | .wakeN => .released
  | .gpio j => d.ballGpio j.val
  | .status i => match d.ballStatus with
    | some c => .of (bit c i.val)
    | none => .released
  | .sfpScl n | .sfpSda n => d.ballI2c n.val
  | .sfpTxDis n => d.ballTxDis n.val
  | .sfpRate n _ => d.ballRate n.val

/-- The instruction that acts in the JTAG port (R121): JTAG_TRST_N low holds the TAP in reset, whose instruction is IDCODE. -/
def Dev.jtagActs (d : Dev) : JtagInstr := if d.pins.trstN then d.jtagTakes d.pins.tap.instr else .idcode

/-- The level at an output ball (R65, R121): EXTEST and its forms and CLAMP drive it from the boundary register, HIGHZ releases
it; the port's own output is not a boundary cell. A cell that holds no level leaves its ball as it is. -/
def Dev.ball (d : Dev) (b : OutBall) : Level :=
  if b = .jtagTdo then d.ballLevel b
  else match d.jtagActs with
  | .extest | .extestPulse | .extestTrain | .clamp => match d.pins.tap.cells.find? (fun x => x.1 == b) with
    | some x => .of x.2
    | none => d.ballLevel b
  | .highz => .released
  | _ => d.ballLevel b

end Sys2Proof.Machine
end

