-- ==== Sys2Proof/Safety.lean ====
section
/-! DEFINITION. What the model's states satisfy whatever commands arrive, and the terms that statements use for what a command
answers and what it leaves alone. -/

namespace Sys2Proof.Machine

/-- The register file, the stored configuration, table memory and the vault's words are canonical: keys strictly rising, and
nothing listed that reads as it would unlisted. Equal contents are then equal data, and what was written is what reads. There
are eight rings (R150). -/
structure Dev.Canon (d : Dev) : Prop where
  regs : SMap.wf resetReg d.regs = true
  cfg : SMap.wf resetReg d.cfg = true
  mem : SMap.wf (fun _ => 0#36) d.tab.mem = true
  vault : SMap.wf (fun _ => 0#32) d.ra.vault.words = true
  rings : d.rings.length = 8

/-- The invariant of every step. -/
def State.Inv (s : State) : Prop := s.dev.Canon

/-- The command completes: it answers a next state with the queue as it was, and the device after it satisfies P. -/
def Completes (c : Instr) (s : State) (P : Dev → Prop) : Prop :=
  ∃ d, exec c s = .next { s with dev := d } ∧ P d

/-- From d to d' only the registers with the keys `ks` and the event counters (page 7, which count whatever occurs) may differ,
and the events that the PROMOTE pause holds back: every other register reads as before, and table memory, keys, queues, rings,
outputs and every other part of the device are as before. -/
def Dev.OnlyRegs (ks : List Nat) (d d' : Dev) : Prop :=
  (∃ r h, d' = { d with regs := r, heldEvents := h }) ∧ ∀ k, k ∉ ks → keyPage k ≠ 7 → d'.rd k = d.rd k

/-- Every register with a key outside `ks` reads as before, the event counters (page 7) apart. -/
def Dev.regsKept (ks : List Nat) (d d' : Dev) : Prop := ∀ k, k ∉ ks → keyPage k ≠ 7 → d'.rd k = d.rd k

/-- A write of w to the register at a, all byte enables set, reaches the device, which runs with its link up, and is accepted (R66, R140, R141, R494). -/
def Dev.accepts (d : Dev) (a w : Nat) : Prop := d.hostOpen = true ∧ d.paused = false ∧ d.writeCode a w true = 0

/-- The word that a row of one register writes: its operand with the row's own bits forced to 1 and to 0. -/
def rowWord (v : BitVec 32) (ones zeros : Nat) : Nat := merge32 zeros 0 (v.toNat ||| ones)

/-- The registers of a page's error record and IRQ_RAW (R135): what a rejection writes. -/
def errKeys (p : Nat) : List Nat := [p * 0x1000 + 0x010, p * 0x1000 + 0x01C, p * 0x1000 + 0x020, p * 0x1000 + 0x024]

/-- The command with this host sequence number on ring n is completed (R151, R154, R155): the ring's next DSEQ is issued and held
for RESYNC, with the command's tag, the code, SYSTIME and a RESULT of 16 bytes, and the command awaits nothing more. -/
def Dev.Completed (d d' : Dev) (n hseq code : Nat) (result : List Byte) : Prop :=
  d'.lastDseq n = (d.lastDseq n + 1) % 65536 ∧ d'.cmdOf n hseq = none
  ∧ ∃ c, (d'.ring n).held.getLast? = some c ∧ c.dseq = (d.lastDseq n + 1) % 65536 ∧ c.hseq = hseq ∧ c.code = code ∧ c.time = d.sysNs
      ∧ c.result = (List.range 16).map (fun k => result.getD k 0) ∧ ∀ x, d.cmdOf n hseq = some x → c.tag = x.e.tag

/-- Only what a completion on ring n writes may differ, the registers
`ks` apart: the ring's state registers, its interrupt bit, its held and waiting completions, which use the frame store, and this
command's place in flight. -/
def Dev.OnlyCompletes (ks : List Nat) (d d' : Dev) (n hseq : Nat) : Prop :=
  d' = { d with regs := d'.regs, inflight := d'.inflight, rings := d'.rings, out := d'.out, heldEvents := d'.heldEvents,
                tab := { d.tab with store := d'.tab.store } }
  ∧ d.regsKept (ks ++ [R.HOST_RING_STATE n, R.HOST_CQ_STATE n, H.irqRaw 0x05]) d'
  ∧ (∀ m, m ≠ n → d'.ring m = d.ring m)
  ∧ d'.inflight.filter (fun c => !(c.ring == n && c.e.hseq == hseq)) = d.inflight.filter (fun c => !(c.ring == n && c.e.hseq == hseq))

/-- Whether the next slice of the power-up self-test is the last of its item's run, and the first fault of the run with it: item 6 has 16
slices where a cage carries a loopback module, which its first slice finds out (R112, R115). -/
def Dev.selfLast (d : Dev) (cages : BitVec 2) : Bool :=
  d.pw.selfSlice + 1 == itemSlices d.pw.selfItem
    (if d.pw.selfItem == 6 && d.pw.selfSlice == 0 && !d.pw.selfRetry then cages &&& d.pins.modPresent != 0 else d.pw.selfPath)
def Dev.selfFound (d : Dev) (fault : Fin 9) (loc : BitVec 14) : Option (Nat × Nat) :=
  match d.pw.selfFault with
  | some x => some x
  | none => if fault = 0 then none else some (fault, loc.toNat)

/-- Registers whose every field is RW and whose write has no other effect. -/
def plainRegs : List Nat := [R.PWR_WAKE_EN, R.CLK_DEV_LIMIT, R.IRQ_EN_A, R.IRQ_PIN_EN_B, R.GPIO_DIR, R.GPIO_RISE]

end Sys2Proof.Machine
end

