-- ==== Sys2Proof/Certificates/Slice0/Obligations.lean ====
section
/-! DEFINITION. The statements for the provers: what the commands do, by the numbered rules of spec/. -/

open Sys2Proof Sys2Proof.Machine

/-! ### The block as a whole -/

/-- A step takes the command at the front of the queue and executes it with the rest of the queue. -/
def Obligations.StepRunsFront : Prop :=
  ∀ (s : State) (c : Instr) (rest : List Instr),
    step { s with pending := c :: rest } = exec c { s with pending := rest }

/-- No command ends the block's run: each one answers a next state, and the queue of waiting commands stays as it was (R23, R24
report a refused write or command by a code, never by a stop). -/
def Obligations.EveryCommandCompletes : Prop :=
  ∀ (c : Instr) (s : State), Completes c s (fun _ => True)

/-- On an empty queue one core cycle of 2.5 ns passes while the block is awake and the tempo does not end: the cycle of the tempo
is counted, SYSTIME gains 2.5 ns and what the servo still slews, within the 200 ppm it may slew, and the tempo count, table memory,
keys, transmissions, rings and in-flight commands stay, where no guaranteed slice but calibration's waits to be taken. (The model's choice of what an empty queue does: log entry 8.) -/
def Obligations.IdleStepPassesOneCycle : Prop :=
  ∀ s : State, s.Inv → s.pending = [] → s.dev.awake = true → s.dev.cycle + 1 < 100000 → s.dev.bh.slew = 0 →
    (∀ r ∈ s.dev.bg.granted, r = 0) →
    ∃ d, step s = .next { s with dev := d } ∧ d.cycle = s.dev.cycle + 1 ∧ d.tempo = s.dev.tempo
      ∧ d.systime = (s.dev.systime + 5 * 2 ^ 31) % 2 ^ 96
      ∧ d.tab = s.dev.tab ∧ d.ks = s.dev.ks ∧ d.ra = s.dev.ra ∧ d.rings = s.dev.rings ∧ d.inflight = s.dev.inflight

/-- Every sparse store is canonical in the state right after reset. -/
def Obligations.ResetInv : Prop := State.reset.Inv

/-- Every step keeps every sparse store canonical, from every state, whatever commands wait: no register, stored configuration
word, table-memory word or vault word is ever listed twice, out of order, or at the value an unlisted one reads. -/
def Obligations.StepKeepsInv : Prop :=
  ∀ s s' : State, s.Inv → step s = .next s' → s'.Inv

/-! ### Power, clocks and resignation (03, 04) -/

/-- The supply conditions that set a bit of PWR.IRQ_RAW: command, flag, and bit (R80, R103). -/
def supplyRises : List (Instr × Fld × Nat) :=
  [(.vinLow, F.PWR_FLAGS_VIN_LOW, 0), (.vbakLow, F.PWR_FLAGS_VBAK_LOW, 1), (.vinHigh, F.PWR_FLAGS_VIN_HIGH, 3)]

/-- Each supply condition sets its flag, and on that edge its bit of PWR.IRQ_RAW; nothing else changes but the event counters. -/
def Obligations.SupplyConditionSetsItsFlag : Prop :=
  ∀ s : State, s.Inv → s.dev.watched = true → s.dev.paused = false → ∀ x ∈ supplyRises, s.dev.is x.2.1 = false →
    Completes x.1 s (fun d => d.is x.2.1 = true ∧ d.is (H.rawBit 0x01 x.2.2) = true
      ∧ (∀ g : Fld, g.addr = R.PWR_FLAGS → (g.hi < x.2.1.lo ∨ x.2.1.hi < g.lo) → d.get g = s.dev.get g)
      ∧ s.dev.OnlyRegs [R.PWR_FLAGS, H.irqRaw 0x01] d)

/-- The commands by which a supply condition ends, with the flag each clears (R80). -/
def supplyFalls : List (Instr × Fld) :=
  [(.vinLowCleared, F.PWR_FLAGS_VIN_LOW), (.vinHighCleared, F.PWR_FLAGS_VIN_HIGH), (.vbakLowCleared, F.PWR_FLAGS_VBAK_LOW)]

/-- The end of a supply condition clears its flag and leaves PWR.IRQ_RAW and every other register alone; VBAK_ABSENT does as much
for its own flag, which sets no interrupt, and its end marks VBAK good again; with VIN absent too, the always-on count is lost. -/
def Obligations.SupplyConditionEnds : Prop :=
  ∀ s : State, s.Inv → s.dev.watched = true →
    (∀ x ∈ supplyFalls, Completes x.1 s (fun d => d.is x.2 = false ∧ s.dev.OnlyRegs [R.PWR_FLAGS] d
      ∧ (∀ g : Fld, g.addr = R.PWR_FLAGS → (g.hi < x.2.lo ∨ x.2.hi < g.lo) → d.get g = s.dev.get g)))
    ∧ Completes .vbakAbsentCleared s (fun d => d.is F.PWR_FLAGS_VBAK_ABSENT = false ∧ d.pw.vbakOk = true
        ∧ Dev.OnlyRegs [R.PWR_FLAGS] { s.dev with pw := { s.dev.pw with vbakOk := true } } d)
    ∧ Completes .vbakAbsent s (fun d => d.is F.PWR_FLAGS_VBAK_ABSENT = true ∧ d.pw.vbakOk = false
        ∧ (s.dev.pw.vinPresent = true → Dev.OnlyRegs [R.PWR_FLAGS] { s.dev with pw := { s.dev.pw with vbakOk := false } } d)
        ∧ (s.dev.pw.vinPresent = false → Dev.OnlyRegs [R.PWR_FLAGS]
            { s.dev with pw := { s.dev.pw with vbakOk := false, aonValid := false, aonAcc := 0 } } d))

/-- STANDBY with VIN absent falls to OFF when VBAK does, and the always-on counter is lost (R86). -/
def Obligations.StandbyFallsToOff : Prop :=
  ∀ s : State, s.dev.pw.phase = .standby → s.dev.pw.vinPresent = false →
    Completes .vbakAbsent s (fun d => d.pw.phase = .off ∧ d.pw.aonValid = false ∧ d.pw.records = s.dev.pw.records
      ∧ d.cfg = s.dev.cfg ∧ d.ks = s.dev.ks ∧ d.regs = s.dev.regs)

/-- The triggers of a resignation that are commands of their own, with the reason each records (R95, R98). -/
def resignTriggers : List (Instr × Nat) :=
  [(.sag, 0x01), (.resetNLow, 0x02), (.thermalShutdown, 0x04), (.refStopped, 0x05), (.pllUnlock, 0x05)]

/-- What MRAM and OTP hold of the key store (R335 to R337) stays; what was read from it at Load is gone. -/
def keysStay (d d' : Dev) : Prop :=
  d'.ks.copies = d.ks.copies ∧ d'.ks.owner = d.ks.owner ∧ d'.ks.deviceKey = d.ks.deviceKey ∧ d'.ks.oseq = d.ks.oseq ∧ d'.ks.lock = d.ks.lock ∧ d'.ks.slots = []

/-- What a resignation leaves (R94, R96, R193): the lane with the highest claim, as the save lane, has sealed the record with the reason, the time, the sequence numbers of
the rings, the bins with the airtime on air, and the outgoing counters (in the PROMOTE pause as the outputs were held at P, R98); both stored records, the configuration, the keys' copies in
MRAM and the staging slots stay; everything outside the save domain is cut. -/
def resigned (reason : Nat) (d d' : Dev) : Prop :=
  d'.pw.phase = .resigning
  ∧ (∃ r : Rec, d'.pw.saving = some r.bytes ∧ d'.pw.saveLane = d.saveLane ∧ r.reason = reason ∧ r.systime = d.sysNs ∧ r.tempo = d.sysTempo ∧ r.minutePos = d.tempo % 240000
      ∧ r.aon = d.aonCount
      ∧ ((∀ p, d.fw.promote = some p → p.held = none) → r.rings = (List.range 8).map (fun n => (d.lastHseq n, d.lastDseq n)) ∧ r.events = d.pw.evcBuf
          ∧ r.fcnt = d.ks.slots.map (fun k => (k.slot, k.next)))
      ∧ (∀ p b, d.fw.promote = some p → p.held = some b → r.rings = b.rings ∧ r.events = b.events ∧ r.fcnt = b.fcnt)
      ∧ r.duty = (List.range 32).map (fun v => d.sealedBins v))
  ∧ d'.pw.records = d.pw.records ∧ d'.cfg = d.cfg ∧ d'.fw.slots = d.fw.slots ∧ keysStay d d'
  ∧ d'.regs = [] ∧ d'.tab.mem = [] ∧ d'.inflight = [] ∧ d'.ra.txs = [] ∧ d'.rx.ctxs = [] ∧ d'.sessions = []

/-- Each trigger starts a resignation, with its own reason, in SLEEP too, where a wake has started the reference (R86); PWR_GOOD falls on a sag
only. -/
def Obligations.TriggersResign : Prop :=
  ∀ s : State, ∀ x ∈ resignTriggers,
    (s.dev.awake = true ∨ (s.dev.pw.phase = .sleep ∧ (s.dev.pw.trans = .waking ∨ x.1 ∈ [Instr.sag, .resetNLow, .thermalShutdown]))) →
    Completes x.1 s (fun d => resigned x.2 s.dev d ∧ d.pw.pwrGood = (s.dev.pw.pwrGood && x.1 != .sag))

/-- A trigger before release abandons the power-up, and writes nothing: both records, the configuration and the keys' contents are
as they were, and the next power-up reports cause 2 (R95, R105). -/
def Obligations.TriggerBeforeReleaseAbandons : Prop :=
  ∀ s : State, s.dev.poweringUp = true → s.dev.pw.saving = none → ∀ x ∈ resignTriggers,
    Completes x.1 s (fun d => d.pw.nextCause = 2 ∧ d.pw.saving = none ∧ d.pw.records = s.dev.pw.records ∧ d.cfg = s.dev.cfg
      ∧ keysStay s.dev d
      ∧ d.pw.phase = (match x.1 with
          | .sag => if s.dev.pw.vbakOk then .standby else .off
          | .resetNLow => .resetHold
          | _ => .rails))

/-- Further triggers are ignored while a resignation is under way (R95): the record being saved and everything else stays; a sag
takes PWR_GOOD low, and RESET_N and VIN are only noted at their balls. -/
def Obligations.FurtherTriggersIgnored : Prop :=
  ∀ s : State, s.dev.pw.phase = .resigning → ∀ x ∈ resignTriggers,
    Completes x.1 s (fun d => d.pw.phase = .resigning ∧ d.pw.saving = s.dev.pw.saving ∧ d.pw.records = s.dev.pw.records
      ∧ d.regs = s.dev.regs ∧ d.cfg = s.dev.cfg ∧ d.ks = s.dev.ks ∧ d.fw = s.dev.fw
      ∧ d.pw.pwrGood = (s.dev.pw.pwrGood && x.1 != .sag))

/-- The end of a save (R86, R96, R97): the slot that did not hold the newest valid record, slot 0 where neither did, takes the sealed
bytes; where the read-back differs they are written once more; cut short, only the bytes written have changed; the other slot is as it
was, and the device is in STANDBY, OFF or the reset hold. -/
def Obligations.SaveCompletes : Prop :=
  ∀ (s : State) (b : List Byte) (written slot : Nat) (flaws again : List (Nat × Byte)) (vin : Bool), s.dev.pw.phase = .resigning →
    s.dev.pw.saving = some b → s.dev.pw.records.length = 2 → slot = (if s.dev.newestRec = some 0 then 1 else 0) →
    Completes (.saveComplete ⟨written, flaws, again⟩ vin) s (fun d =>
      d.pw.saving = none
      ∧ (b.length ≤ written → poke b flaws = b → d.pw.records.getD slot [] = b)
      ∧ (b.length ≤ written → poke b flaws ≠ b → d.pw.records.getD slot [] = poke b again)
      ∧ (written < b.length → (d.pw.records.getD slot []).take written = (poke b flaws).take written
          ∧ (d.pw.records.getD slot []).drop written = (s.dev.pw.records.getD slot []).drop written)
      ∧ d.pw.records.getD (1 - slot) [] = s.dev.pw.records.getD (1 - slot) [] ∧ d.recAt (1 - slot) = s.dev.recAt (1 - slot)
      ∧ d.pw.phase = (if !s.dev.pins.resetN && vin then .resetHold else if vin || s.dev.pw.vbakOk then .standby else .off)
      ∧ d.cfg = s.dev.cfg ∧ d.ks = s.dev.ks ∧ d.fw = s.dev.fw ∧ d.regs = s.dev.regs)

/-- The clock fault of R90 that is no resignation, watched wherever the reference runs: a stopped slow clock sets SLOW_FAULT, counts, raises CLK.IRQ_RAW bit 3 and clears
AON_VALID; nothing else changes. -/
def Obligations.SlowClockFault : Prop :=
  ∀ s : State, s.Inv → s.dev.paused = false →
    (s.dev.awake = true ∨ s.dev.pw.phase = .safe ∨ (s.dev.poweringUp = true ∧ s.dev.is F.CLK_STAT_REF_OK = true)) →
    Completes .slowClockStopped s (fun d => d.is F.CLK_STAT_SLOW_FAULT = true ∧ d.pw.aonValid = false
      ∧ d.get F.CLK_FAULT_CNT_SLOW = min (s.dev.get F.CLK_FAULT_CNT_SLOW + 1) 65535 ∧ d.is (H.rawBit 0x02 3) = true
      ∧ Dev.OnlyRegs [R.CLK_STAT, R.CLK_FAULT_CNT, H.irqRaw 0x02] { s.dev with pw := { s.dev.pw with aonValid := false } } d)

/-- A window of R90 whose deviation exceeds DEV_LIMIT reports it, holds transmit grants and counts; a window within it reports its
deviation and clears REF_DEV, and grants return only with the third such window in a row. -/
def Obligations.ReferenceDeviationWindow : Prop :=
  ∀ (s : State) (ppb : BitVec 32), s.Inv → s.dev.awake = true → s.dev.paused = false →
    ((s.dev.get F.CLK_DEV_LIMIT_PPM * 1000 : Int) < ppb.toInt.natAbs →
      Completes (.refDeviationWindow ppb) s (fun d => d.is F.CLK_STAT_REF_DEV = true ∧ d.is F.CLK_STAT_TX_HELD = true
        ∧ d.get F.CLK_REF_DEV_PPB = ppb.toNat ∧ d.pw.goodWindows = 0 ∧ d.is (H.rawBit 0x02 2) = true
        ∧ d.get F.CLK_FAULT_CNT_DEV = min (s.dev.get F.CLK_FAULT_CNT_DEV + 1) 65535
        ∧ Dev.OnlyRegs [R.CLK_REF_DEV, R.CLK_STAT, R.CLK_FAULT_CNT, H.irqRaw 0x02]
            { s.dev with pw := { s.dev.pw with goodWindows := 0 } } d))
    ∧ ((ppb.toInt.natAbs : Int) ≤ s.dev.get F.CLK_DEV_LIMIT_PPM * 1000 → s.dev.is F.CLK_STAT_TX_HELD = true → s.dev.pw.goodWindows < 2 →
      Completes (.refDeviationWindow ppb) s (fun d => d.is F.CLK_STAT_REF_DEV = false ∧ d.is F.CLK_STAT_TX_HELD = true
        ∧ d.get F.CLK_REF_DEV_PPB = ppb.toNat 
        ∧ Dev.OnlyRegs [R.CLK_REF_DEV, R.CLK_STAT] { s.dev with pw := { s.dev.pw with goodWindows := s.dev.pw.goodWindows + 1 } } d))

/-- The bank is measured at a start and then every 14,400,000 tempos (R93): its energy is reported; below 1,350 µJ BANK_WEAK is set, on its edge with its bit of PWR.IRQ_RAW, and at 1,350 µJ or more
it clears (R93). -/
def Obligations.BankMeasured : Prop :=
  ∀ (s : State) (usable : BitVec 16) (volt : BitVec 10), s.Inv → s.dev.paused = false →
    ((s.dev.poweringUp = true ∧ s.dev.pw.bankT = none)
      ∨ (s.dev.awake = true ∧ ∃ t, s.dev.pw.bankT = some t ∧ t + 14400000 ≤ s.dev.tempo)) →
    Completes (.bankMeasure usable volt) s (fun d => d.get F.PWR_BANK_USABLE = usable.toNat ∧ d.get F.PWR_BANK_VOLT = volt.toNat
      ∧ d.is F.PWR_FLAGS_BANK_WEAK = decide (usable.toNat < 1350)
      ∧ (usable.toNat < 1350 → s.dev.is F.PWR_FLAGS_BANK_WEAK = false → d.is (H.rawBit 0x01 2) = true)
      ∧ d.pw.bankT = some s.dev.tempo
      ∧ Dev.OnlyRegs [R.PWR_BANK, R.PWR_FLAGS, H.irqRaw 0x01] { s.dev with pw := { s.dev.pw with bankT := some s.dev.tempo } } d)

/-! ### Registers (00, 05) -/

/-- A rejected register write (R142): the error record of the register's page, or of SYS where the page is unassigned, takes CODE, ADDR
and DATA; MORE says whether CODE was already non-zero; COUNT increments, saturating; REJECT is set, and REG_REJECT is asserted where
the page's mask lets it. Nothing else changes, but that a rejected NAME_HI discards its staged half. -/
def Obligations.RejectedWriteIsRecorded : Prop :=
  ∀ (s : State) (a : BitVec 20) (be : BitVec 4) (data : BitVec 32) (p : Nat), s.Inv → s.dev.hostOpen = true → s.dev.paused = false →
    s.dev.writeCode a.toNat data.toNat (allBytes be) ≠ 0 →
    p = (if pageAssigned (a.toNat / 0x1000) then a.toNat / 0x1000 else 0) → p ≠ 0x07 →
    Completes (.regWriteGeneric a be data) s (fun d =>
      d.get (H.errCode p) = s.dev.writeCode a.toNat data.toNat (allBytes be)
      ∧ d.get (H.errAddr p) = a.toNat ∧ d.get (H.errData p) = data.toNat
      ∧ d.is (H.errMore p) = (s.dev.get (H.errCode p) != 0)
      ∧ d.get (H.errCount p) = min (s.dev.get (H.errCount p) + 1) 65535
      ∧ d.is (H.rawBit p 31) = true ∧ (bit (s.dev.rd (H.irqMask p)) 31 = true → d.asserted 50 = true)
      ∧ Dev.OnlyRegs (errKeys p)
          { s.dev with staged := if pairHi a.toNat then s.dev.staged.filter (fun x => x.1 + 4 != a.toNat) else s.dev.staged } d)

/-- A step of SYSTIME moves the planned start of each command that waits in a slot with a DUE, and nothing else of a transmission (R285, R454);
one whose delay line fills already starts no earlier than planned. -/
def replanned (d d' : Dev) : Prop :=
  d'.ra = { d.ra with txs := d'.ra.txs }
  ∧ ∀ t ∈ d.ra.txs, (t.stage ≠ .slot ∨ t.timed = true ∨ t.due = 0 → t ∈ d'.ra.txs)
    ∧ (t.stage = .slot → t.timed = false → t.due ≠ 0 → t.filling = true →
        { t with planned := max (if t.due ≤ d'.sysNs then 0 else d.monoUs + (t.due - d'.sysNs + 999) / 1000) t.planned } ∈ d'.ra.txs)

/-- A committed write of the SYSTIME pair (R473, R8) sets SYSTIME to the staged low half, or the low half as it stands, and the high half
written, with no fraction, leaves SYNC, and moves the commands that wait for their DUE; while PTP.SERVO.LOCKED is 1 it is rejected with STATE and SYSTIME is not set. -/
def Obligations.SystimeWriteSteps : Prop :=
  ∀ (s : State) (v : BitVec 32) (lo : Nat), s.Inv → s.dev.hostOpen = true → s.dev.paused = false → 0x08 ∉ s.dev.resetting →
    (s.dev.is F.PTP_SERVO_LOCKED = false → s.dev.stagedLo R.TIM_SYSTIME_LO = lo → lo < 2 ^ 32 →
      Completes (.systimeWrite v) s (fun d => d.systime = (lo + 2 ^ 32 * v.toNat) * 2 ^ 32
        ∧ d.is F.TIM_SYSTIME_STAT_SYNC = s.dev.is F.TIM_SYSTIME_STAT_SYNC
        ∧ d.staged = s.dev.staged.filter (fun x => x.1 != R.TIM_SYSTIME_LO)
        ∧ d.tempo = s.dev.tempo ∧ replanned s.dev d ∧ d.tab = s.dev.tab ∧ d.ks = s.dev.ks ∧ d.inflight = s.dev.inflight
        ∧ s.dev.regsKept [R.TIM_SYSTIME_LO, R.TIM_SYSTIME_HI, H.seq 0x08] d))
    ∧ (s.dev.is F.PTP_SERVO_LOCKED = true →
      Completes (.systimeWrite v) s (fun d => d.systime = s.dev.systime ∧ d.get (H.errCode 0x08) = 0x03
        ∧ d.get (H.errAddr 0x08) = R.TIM_SYSTIME_HI ∧ d.get (H.errData 0x08) = v.toNat
        ∧ d.is F.TIM_SYSTIME_STAT_SYNC = s.dev.is F.TIM_SYSTIME_STAT_SYNC))

/-! ### Timers, event counters and GPIO (16, 18) -/

/-- A count clock of a running unit (R463, R465): the count advances, or from RELOAD or above returns to 0 with WRAP; a compare channel
whose CCR the count takes sets its MATCH; every other event bit, unit and register stays, but TIM.IRQ_RAW. -/
def Obligations.CountClockAdvances : Prop :=
  ∀ (s : State) (n : Fin 16), s.Inv → s.dev.awake = true → s.dev.timRunning n = true →
    Completes (.countClock n) s (fun d =>
      d.timCount n = (if s.dev.timReload n ≤ s.dev.timCount n then 0 else s.dev.timCount n + 1)
      ∧ bit (d.rd (R.TIM_EVT n)) 0 = (bit (s.dev.rd (R.TIM_EVT n)) 0 || decide (s.dev.timReload n ≤ s.dev.timCount n))
      ∧ (∀ c : Fin 4, bit (d.rd (R.TIM_EVT n)) (1 + c) =
          (bit (s.dev.rd (R.TIM_EVT n)) (1 + c) || (chMode (s.dev.rd (R.TIM_CH_CFG n)) c == 2 && s.dev.timCcr n c == d.timCount n)))
      ∧ Dev.OnlyRegs [R.TIM_COUNT_LO n, R.TIM_COUNT_HI n, R.TIM_EVT n, H.irqRaw 0x08]
          { s.dev with tm := { s.dev.tm with phases := setAt s.dev.tm.phases n 0 } } d)

/-- A capture edge (R466, R467): every channel that selects it takes its unit's count and sets NEW and CAPT, or with NEW still set keeps
its capture and sets LOST; a channel that does not select it keeps its capture. A rise of PPS_IN latches SYSTIME (R455); the tempo boundary has
rising edges only. -/
def Obligations.CaptureTakesTheCount : Prop :=
  ∀ (s : State) (src : Fin 7) (rising : Bool) (n : Fin 16) (c : Fin 4), s.Inv → s.dev.awake = true →
    Completes (.capture 5 false) s (fun d => d = s.dev)
    ∧ ((src.val ≠ 5 ∨ rising = true) → Completes (.capture src rising) s (fun d =>
      (s.dev.captures n c src rising = true → bit (s.dev.rd (R.TIM_FLAGS n)) c = false →
        d.timCcr n c = s.dev.timCount n ∧ bit (d.rd (R.TIM_FLAGS n)) c = true ∧ bit (d.rd (R.TIM_EVT n)) (5 + c) = true)
      ∧ (s.dev.captures n c src rising = true → bit (s.dev.rd (R.TIM_FLAGS n)) c = true →
        d.timCcr n c = s.dev.timCcr n c ∧ bit (d.rd (R.TIM_FLAGS n)) (4 + c) = true)
      ∧ (s.dev.captures n c src rising = false → d.timCcr n c = s.dev.timCcr n c ∧ bit (d.rd (R.TIM_FLAGS n)) c = bit (s.dev.rd (R.TIM_FLAGS n)) c)
      ∧ (src.val = 4 → rising = true → d.getPair F.PTP_PPS_IN_LO_SYSTIME F.PTP_PPS_IN_HI_SYSTIME = s.dev.sysNs)
      ∧ d.timCount n = s.dev.timCount n ∧ d.tab = s.dev.tab ∧ d.ra = s.dev.ra ∧ d.systime = s.dev.systime))

/-- Reading CCR_LO of a capture channel consumes the capture (R467): the word leaves, NEW and COARSE clear, nothing else changes; of
any other channel it only leaves. -/
def Obligations.CcrReadConsumes : Prop :=
  ∀ (s : State) (n : Fin 16) (c : Fin 4), s.Inv → s.dev.hostOpen = true → s.dev.paused = false →
    Completes (.ccrRead n c) s (fun d =>
      (chMode (s.dev.rd (R.TIM_CH_CFG n)) c = 1 →
        bit (d.rd (R.TIM_FLAGS n)) c = false ∧ bit (d.rd (R.TIM_FLAGS n)) (8 + c) = false)
      ∧ (chMode (s.dev.rd (R.TIM_CH_CFG n)) c ≠ 1 → d.rd (R.TIM_FLAGS n) = s.dev.rd (R.TIM_FLAGS n))
      ∧ bit (d.rd (R.TIM_FLAGS n)) (4 + c) = bit (s.dev.rd (R.TIM_FLAGS n)) (4 + c)
      ∧ Dev.OnlyRegs [R.TIM_FLAGS n]
          { s.dev with out := .regRead (R.TIM_CCR_LO n c) (s.dev.readView (R.TIM_CCR_LO n c)) :: s.dev.out } d)

/-- The timer registers (R8, R462, R464): START and STOP set and clear the run bits named and nothing else; a committed COUNT or RELOAD
takes the staged low half and the high half written; COUNT and a written configuration return the prescaler phase to 0. -/
def Obligations.TimerRegistersAct : Prop :=
  ∀ (s : State) (n : Fin 16) (v : BitVec 32) (lo : Nat), s.Inv → lo < 2 ^ 32 →
    (s.dev.accepts R.TIM_START (rowWord v 0 0) →
      Completes (.timStart v) s (fun d => (∀ j : Fin 16, bit (d.rd R.TIM_RUN) j = (bit (s.dev.rd R.TIM_RUN) j || v.getLsbD j))
        ∧ s.dev.OnlyRegs [R.TIM_RUN, H.seq 0x08] d))
    ∧ (s.dev.accepts R.TIM_STOP (rowWord v 0 0) →
      Completes (.timStop v) s (fun d => (∀ j : Fin 16, bit (d.rd R.TIM_RUN) j = (bit (s.dev.rd R.TIM_RUN) j && !v.getLsbD j))
        ∧ s.dev.OnlyRegs [R.TIM_RUN, H.seq 0x08] d))
    ∧ (s.dev.accepts (R.TIM_COUNT_HI n) (rowWord v 0 0) → s.dev.stagedLo (R.TIM_COUNT_LO n) = lo →
      Completes (.countWrite n v) s (fun d => d.timCount n = lo + 2 ^ 32 * v.toNat ∧ d.timPhase n = 0
        ∧ Dev.OnlyRegs [R.TIM_COUNT_LO n, R.TIM_COUNT_HI n, H.seq 0x08]
            { s.dev with tm := { s.dev.tm with phases := setAt s.dev.tm.phases n 0 },
                         staged := s.dev.staged.filter (fun x => x.1 != R.TIM_COUNT_LO n) } d))
    ∧ (s.dev.accepts (R.TIM_RELOAD_HI n) (rowWord v 0 0) → s.dev.stagedLo (R.TIM_RELOAD_LO n) = lo →
      Completes (.reloadWrite n v) s (fun d => d.timReload n = lo + 2 ^ 32 * v.toNat
        ∧ Dev.OnlyRegs [R.TIM_RELOAD_LO n, R.TIM_RELOAD_HI n, H.seq 0x08]
            { s.dev with staged := s.dev.staged.filter (fun x => x.1 != R.TIM_RELOAD_LO n) } d))
    ∧ (s.dev.accepts (R.TIM_CFG n) (rowWord v 0 0) →
      Completes (.prescWrite n v) s (fun d => d.get (F.TIM_CFG_PRESC n) = v.toNat % 65536
        ∧ d.is (F.TIM_CFG_DBG_STOP n) = v.getLsbD 16 ∧ d.timPhase n = 0
        ∧ Dev.OnlyRegs [R.TIM_CFG n, H.seq 0x08] { s.dev with tm := { s.dev.tm with phases := setAt s.dev.tm.phases n 0 } } d))

/-- The event counters' sources (R474): a write of SRC gives the counter its source; a different ID or CLEAR sets the count to 0, the same
ID keeps it; the other counters keep their sources and counts. -/
def Obligations.EventCounterSource : Prop :=
  ∀ (s : State) (k j : Fin 64) (v : BitVec 32), s.Inv →
    (s.dev.accepts (R.EVC_SRC k) (rowWord v 0 (2 ^ 31)) →
      Completes (.evcSrcWrite k v) s (fun d => d.get (F.EVC_SRC_ID k) = v.toNat % 1024
        ∧ d.evcCount k = (if s.dev.get (F.EVC_SRC_ID k) = v.toNat % 1024 then s.dev.evcCount k else 0)
        ∧ (j ≠ k → d.get (F.EVC_SRC_ID j) = s.dev.get (F.EVC_SRC_ID j) ∧ d.evcCount j = s.dev.evcCount j) ∧ s.dev.OnlyRegs [] d))
    ∧ (s.dev.accepts (R.EVC_SRC k) (rowWord v (2 ^ 31) 0) →
      Completes (.evcClear k v) s (fun d => d.get (F.EVC_SRC_ID k) = v.toNat % 1024 ∧ d.evcCount k = 0
        ∧ (j ≠ k → d.get (F.EVC_SRC_ID j) = s.dev.get (F.EVC_SRC_ID j) ∧ d.evcCount j = s.dev.evcCount j) ∧ s.dev.OnlyRegs [] d))

/-- The GPIO outputs and edges (R513, R514): SET and CLR set and clear the OUT bits named; an edge gives its ball its level, and where
RISE or FALL enables it sets its EVT bit and EDGE. -/
def Obligations.GpioActs : Prop :=
  ∀ (s : State) (v : BitVec 32) (j : Fin 16) (rising : Bool), s.Inv →
    (s.dev.accepts R.GPIO_SET (rowWord v 0 0) →
      Completes (.gpioSet v) s (fun d => (∀ i : Fin 16, bit (d.rd R.GPIO_OUT) i = (bit (s.dev.rd R.GPIO_OUT) i || v.getLsbD i))
        ∧ s.dev.OnlyRegs [R.GPIO_OUT, H.seq 0x09] d))
    ∧ (s.dev.accepts R.GPIO_CLR (rowWord v 0 0) →
      Completes (.gpioClr v) s (fun d => (∀ i : Fin 16, bit (d.rd R.GPIO_OUT) i = (bit (s.dev.rd R.GPIO_OUT) i && !v.getLsbD i))
        ∧ s.dev.OnlyRegs [R.GPIO_OUT, H.seq 0x09] d))
    ∧ (s.dev.awake = true → s.dev.paused = false →
      Completes (.gpioEdge j rising) s (fun d => d.pins.gpio.getLsbD j = rising
        ∧ (∀ i : Fin 16, i ≠ j → d.pins.gpio.getLsbD i = s.dev.pins.gpio.getLsbD i)
        ∧ (bit (s.dev.rd (if rising then R.GPIO_RISE else R.GPIO_FALL)) j = true →
            bit (d.rd R.GPIO_EVT) j = true ∧ d.is (H.rawBit 0x09 0) = true)
        ∧ (bit (s.dev.rd (if rising then R.GPIO_RISE else R.GPIO_FALL)) j = false → d.rd R.GPIO_EVT = s.dev.rd R.GPIO_EVT)
        ∧ Dev.OnlyRegs [R.GPIO_EVT, H.irqRaw 0x09] { s.dev with pins := { s.dev.pins with gpio := d.pins.gpio } } d))

/-- An edge of a capture source in SLEEP (R469): the first edge that a channel selects is kept with its slow tick, and a further one sets
LOST and keeps the first; CAPT wakes the device where PWR.WAKE_EN enables it (R88). -/
def Obligations.SleepCaptureKeepsTheFirst : Prop :=
  ∀ (s : State) (src : Fin 4) (rising : Bool) (tick : Nat) (n : Fin 16) (c : Fin 4), s.Inv → s.dev.pw.phase = .sleep →
    s.dev.captures n c src rising = true →
    Completes (.sleepCapture (src.castLE (by decide)) rising tick) s (fun d =>
      (s.dev.tm.sleepCapt.any (fun q => q.1 == ((n : Nat), (c : Nat))) = false → (((n : Nat), (c : Nat)), tick) ∈ d.tm.sleepCapt)
      ∧ (s.dev.tm.sleepCapt.any (fun q => q.1 == ((n : Nat), (c : Nat))) = true →
          bit (d.rd (R.TIM_FLAGS n)) (4 + c) = true ∧ (∀ t, (((n : Nat), (c : Nat)), t) ∈ d.tm.sleepCapt ↔ (((n : Nat), (c : Nat)), t) ∈ s.dev.tm.sleepCapt))
      ∧ d.pw.trans = (if bit (s.dev.rd R.PWR_WAKE_EN) 2 then .waking else s.dev.pw.trans)
      ∧ d.pins.capt.getLsbD src = rising ∧ d.pw.phase = .sleep ∧ d.systime = s.dev.systime ∧ d.tempo = s.dev.tempo ∧ d.tab = s.dev.tab)

/-- A debug halt is entered and left with test access open (R470); without it the private instruction acts as BYPASS (R123). Nothing else
changes but the port itself. -/
def Obligations.DebugHaltWithAccess : Prop :=
  ∀ (s : State) (halt : Bool), (s.dev.is F.BIST_TEST_ACCESS = false → Completes (.debugHalt halt) s (fun d =>
      d.pins.tap.instr = .bypass ∧ d = { s.dev with pins := d.pins })) ∧ (s.dev.is F.BIST_TEST_ACCESS = true →
    Completes (.debugHalt halt) s (fun d => d.tm.halted = halt ∧ (∀ n, halt = true → s.dev.is (F.TIM_CFG_DBG_STOP n) = true → d.timRunning n = false)
      ∧ (∀ n, s.dev.is (F.TIM_CFG_DBG_STOP n) = false → d.timRunning n = s.dev.timRunning n) ∧ d.pins.tap.instr = .priv
      ∧ d = { s.dev with pins := d.pins, tm := { s.dev.tm with halted := halt } }))

/-! ### Power-up, power states and self-test (03, 04) -/

/-- A power-up has begun with its Rails phase (R105, R106): every register and table memory are as after reset, the stored records, the
configuration, the staging slots and the keys' contents are kept, and VOUT_3V3, PWR_GOOD and BANK_READY stay only from the reset hold. -/
def rises (d d' : Dev) (testEn : Bool) : Prop :=
  d'.pw.phase = .rails ∧ d'.pw.trans = .none ∧ d'.pw.vinPresent = true ∧ d'.pw.vout3v3 = (d.pw.phase == .resetHold)
  ∧ d'.pw.pwrGood = (d.pw.phase == .resetHold && d.pw.pwrGood) ∧ d'.is F.PWR_FLAGS_BANK_READY = d'.pw.pwrGood
  ∧ (∀ k, k ≠ R.PWR_FLAGS → d'.rd k = (resetReg k).toNat)
  ∧ d'.pins = { d.pins with resetN := true, testEn := testEn, motionT := 0 } ∧ d'.tab.mem = [] ∧ d'.inflight = [] ∧ d'.ra.txs = []
  ∧ d'.pw.records = d.pw.records ∧ d'.pw.nextCause = d.pw.nextCause ∧ d'.cfg = d.cfg ∧ d'.fw.slots = d.fw.slots
  ∧ keysStay d d'

/-- A power-up begins from OFF, STANDBY or the reset hold, with RESET_N high (R105); a rise of RESET_N begins one from the reset hold once
VIN has qualified, and elsewhere is only the ball's level (R106). -/
def Obligations.PowerUpBegins : Prop :=
  ∀ (s : State) (testEn : Bool),
    (s.dev.pins.resetN = true → s.dev.pw.phase ∈ [Phase.off, .standby, .resetHold] →
      Completes (.powerUp testEn) s (fun d => rises s.dev d testEn))
    ∧ (s.dev.pw.phase = .resetHold → Completes (.resetNHigh true testEn) s (fun d => rises s.dev d testEn))
    ∧ (s.dev.pw.phase = .resetHold → Completes (.resetNHigh false testEn) s (fun d =>
        d = { s.dev with pins := { s.dev.pins with resetN := true, testEn := testEn } }))
    ∧ (s.dev.pw.phase ≠ .resetHold → ∀ q, Completes (.resetNHigh q testEn) s (fun d => d = { s.dev with pins := { s.dev.pins with resetN := true } }))

/-- The phases of a power-up lead from one to the next (R107): the rails with the PLL's lock time (R91), the load with what BIST reports of
it, the device key, created where there was none (R336), and each key slot from its newer valid copy, or DAMAGED without one (R335), the copy of the newest valid image into the SRAM of the lanes, or SAFE without one (R492), and the lane start at ENTRY, with
one agreed output of each stage. -/
def Obligations.PowerUpPhasesAdvance : Prop :=
  ∀ (s : State) (n : Fin 80001) (flaws : List (Fin 4096 × Bool)) (us : Nat), s.Inv →
    (s.dev.pw.phase = .rails → Completes (.railsUp n) s (fun d =>
      d.is F.CLK_STAT_REF_OK = true ∧ d.is F.CLK_STAT_PLL_LOCK = true ∧ d.get F.CLK_PLL_LOCK_T_CYCLES = n
      ∧ Dev.OnlyRegs [R.CLK_STAT, R.CLK_PLL_LOCK_T] { s.dev with pw := { s.dev.pw with phase := .load, vout3v3 := true } } d))
    ∧ (s.dev.pw.phase = .load → s.dev.pw.eraseMark = false → Completes (.loadComplete flaws) s (fun d =>
      d.pw.phase = .selftest ∧ d.get F.BIST_RESET_CAUSE_CAUSE = s.dev.pw.nextCause % 8 ∧ d.is F.PWR_FLAGS_AON_LOST = s.dev.pw.aonLost
      ∧ d.is F.BIST_TEST_ZEROISED = s.dev.pw.zeroised ∧ d.is F.BIST_TEST_ACCESS = (s.dev.pw.zeroised && s.dev.pins.testEn)
      ∧ (∀ k : Fin 4096, (k, true) ∈ flaws → (k, false) ∈ flaws → ∃ x, d.keySlot k = some x ∧ x.state = 3)
      ∧ (∀ (k : Fin 4096) (b : Bool) (c : SlotCopy) (key : List Byte), k.val ∈ s.dev.ks.copies.map Prod.fst → s.dev.ks.deviceKey.isSome = true →
          c = (if b then (s.dev.copiesOf k).2 else (s.dev.copiesOf k).1) → (k, b) ∉ flaws → c.valid = true →
          ((k, !b) ∈ flaws ∨ newerCopy (s.dev.copiesOf k).1 (s.dev.copiesOf k).2 = some b) → c.state ≠ 0 →
          keyUnwrap (s.dev.ks.deviceKey.getD []) c.wrapped = some key →
          ∃ x, d.keySlot k = some x ∧ x.key = key ∧ x.type = c.type ∧ x.levels = c.levels ∧ x.pan = c.pan ∧ x.index = c.index)
      ∧ (s.dev.ks.deviceKey = none → ∃ k : List Byte, k.length = 16 ∧ d.ks.deviceKey = some k) ∧ (∀ k, s.dev.ks.deviceKey = some k → d.ks.deviceKey = some k)
      ∧ d.ra.vault.inForce = s.dev.ra.vault.newest
      ∧ d.pw.records = s.dev.pw.records ∧ d.cfg = s.dev.cfg ∧ d.tab = s.dev.tab ∧ d.fw = s.dev.fw))
    ∧ (s.dev.pw.phase = .copy → ∀ k, s.dev.newestSlot = some k → s.dev.fw.slots.length = 2 → Completes (.copyComplete us) s (fun d =>
      (s.dev.imageCode (s.dev.fwSlot k).bytes = 0 → d = { s.dev with pw := { s.dev.pw with phase := .laneStart }, fw := { s.dev.fw with
                       runSlot := k, epoch := max s.dev.fw.epoch (s.dev.fwSlot k).epoch }, ln := { s.dev.ln with
                       mem := s.dev.ln.mem.map (fun m => { m with
                         data := []
                         code := (s.dev.fwSlot k).bytes.drop 256 ++ m.code.drop ((s.dev.fwSlot k).bytes.drop 256).length }) } })
      ∧ (s.dev.imageCode (s.dev.fwSlot k).bytes ≠ 0 → (d.fwSlot k).state = 3 ∧ (d.fwSlot k).bytes = (s.dev.fwSlot k).bytes
          ∧ (s.dev.paused = false → d.is (H.rawBit 0x0C 1) = true) ∧ s.dev.get F.UPD_COUNT_REFUSED ≤ d.get F.UPD_COUNT_REFUSED)
      ∧ d.ks = s.dev.ks ∧ d.cfg = s.dev.cfg ∧ d.pw.records = s.dev.pw.records))
    ∧ (s.dev.pw.phase = .copy → s.dev.newestSlot = none → Completes (.copyComplete us) s (fun d =>
      d.pw.phase = .safe ∧ d.get F.BIST_RESULT_OUTCOME = 3 ∧ d.get (F.BIST_ITEM_CODE 1) = 0x09 ∧ bit (d.rd R.BIST_RESULT) 9 = true
      ∧ d.fw = { s.dev.fw with safeUs := us } ∧ d.ks = s.dev.ks ∧ d.cfg = s.dev.cfg))
    ∧ (s.dev.pw.phase = .laneStart → Completes .laneStart s (fun d => d.pw = { s.dev.pw with phase := .calibration }
        ∧ (∀ (i : Fin 4) m, s.dev.ln.mem[i.val]? = some m → d.ln.mem[i.val]? = some { m with start := imgEntry (s.dev.fwSlot s.dev.fw.runSlot).bytes })
        ∧ (s.dev.live ≠ [] → s.dev.ln.dry = none → s.dev.ln.issued.length = 5 → d = { s.dev with
            pw := d.pw, freeCtr := s.dev.freeCtr + 5
            ln := { s.dev.ln with mem := d.ln.mem, issued := (List.range 5).map (fun k => some (Config.freeNat (s.dev.freeCtr + k))) }
            out := (List.range 5).reverse.map (fun k => .voted k (Config.freeNat (s.dev.freeCtr + k))) ++ s.dev.out })))

/-- The bank is charged with the rails up, in a power-up (from its Rails phase on where they never went down, R106), SAFE or the reset hold (R82,
R92): BANK_READY is set and PWR_GOOD goes high. -/
def Obligations.BankChargedRaisesPwrGood : Prop :=
  ∀ s : State, s.Inv → (s.dev.pw.phase ∈ [Phase.load, .selftest, .copy, .laneStart, .calibration, .releaseWait, .safe, .resetHold]
      ∨ (s.dev.pw.phase = .rails ∧ s.dev.pw.vout3v3 = true)) →
    Completes .bankCharged s (fun d => d.is F.PWR_FLAGS_BANK_READY = true
      ∧ (∀ g : Fld, g.addr = R.PWR_FLAGS → (g.hi < F.PWR_FLAGS_BANK_READY.lo ∨ F.PWR_FLAGS_BANK_READY.hi < g.lo) → d.get g = s.dev.get g)
      ∧ Dev.OnlyRegs [R.PWR_FLAGS] { s.dev with pw := { s.dev.pw with pwrGood := true } } d)

/-- One slice of the power-up self-test (R112, R116, R117): it is counted; the last one of an item's run passes the item, or starts the
item's one retry, or fails the item, which leads to SAFE unless BIST.WAIVE waives an item from 5 on; the last item leads to the copy. -/
def Obligations.SelftestSliceDecides : Prop :=
  ∀ (s : State) (fault : Fin 9) (loc : BitVec 14) (ext : Bool) (cages : BitVec 2) (us : Nat), s.Inv →
    s.dev.pw.phase = .selftest → s.dev.pw.selfItem ≤ 7 →
    Completes (.selftestSlice fault loc ext cages us) s (fun d =>
      d.get F.BIST_RESULT_SLICES = min (s.dev.get F.BIST_RESULT_SLICES + 1) 1023
      ∧ (s.dev.selfLast cages = false → d.pw.phase = .selftest ∧ d.pw.selfItem = s.dev.pw.selfItem ∧ d.pw.selfSlice = s.dev.pw.selfSlice + 1
          ∧ d.pw.selfFault = s.dev.selfFound fault loc)
      ∧ (s.dev.selfLast cages = true → s.dev.selfFound fault loc = none → d.pw.selfItem = s.dev.pw.selfItem + 1 ∧ d.pw.selfSlice = 0
          ∧ d.pw.phase = (if s.dev.pw.selfItem = 7 then .copy else .selftest))
      ∧ (∀ x, s.dev.selfLast cages = true → s.dev.selfFound fault loc = some x → s.dev.pw.selfRetry = false →
          d.pw.phase = .selftest ∧ d.pw.selfItem = s.dev.pw.selfItem ∧ d.pw.selfRetry = true ∧ d.pw.selfSlice = 0 ∧ d.pw.selfFault = none
          ∧ d.is (F.BIST_ITEM_RETRIED s.dev.pw.selfItem) = true)
      ∧ (∀ x, s.dev.selfLast cages = true → s.dev.selfFound fault loc = some x → s.dev.pw.selfRetry = true →
          bit (d.rd R.BIST_RESULT) (8 + s.dev.pw.selfItem) = true ∧ d.get (F.BIST_ITEM_CODE s.dev.pw.selfItem) = x.1 % 256
          ∧ (d.pw.phase = .safe ↔ ¬(5 ≤ s.dev.pw.selfItem ∧ bit (s.dev.rd R.BIST_WAIVE) (s.dev.pw.selfItem - 5) = true)))
      ∧ d = { s.dev with regs := d.regs, pw := d.pw, fw := { s.dev.fw with safeUs := d.fw.safeUs } }
      ∧ d.pw.records = s.dev.pw.records ∧ s.dev.regsKept (R.PCIE_LINK :: R.BIST_RESULT :: R.BIST_FAIL_LOC :: R.BIST_RESET_CAUSE :: (List.range 8).map R.BIST_ITEM) d)

/-- Start-up calibration ends in the wait for release (R229, R230): a chain of which a step failed twice has its fault bit, and its outcome names that
step's item; one that passed
has outcome 0 and its fault bit as it was; an erasure cut by a sag is completed (R125), and keys are otherwise as they were. -/
def Obligations.StartupCalibrationReports : Prop :=
  ∀ (s : State) (fails again : List (Fin 36 × Nat)) (temps : List Int) (trims : List (Fin 36 × Trim)) (k : Fin 36), s.Inv →
    s.dev.pw.phase = .calibration →
    Completes (.startupCalibration ⟨fails, again⟩ temps trims) s (fun d =>
      d.pw.phase = .releaseWait
      ∧ (∀ i j, fails.find? (fun f => f.1 == k) = some (k, j) → i = (calItems (chainGroup k) (chainInGroup k)).getD j 5 →
          bit (d.rd (R.CAL_FAULT (chainGroup k))) (chainInGroup k) = true ∧ d.get (F.CAL_CHAIN_LAST_CODE k) = (if i = 0 then 2 else 1)
          ∧ d.get (F.CAL_CHAIN_FAIL_ITEM k) = i)
      ∧ (fails.find? (fun f => f.1 == k) = none →
          bit (d.rd (R.CAL_FAULT (chainGroup k))) (chainInGroup k) = bit (s.dev.rd (R.CAL_FAULT (chainGroup k))) (chainInGroup k)
          ∧ d.get (F.CAL_CHAIN_LAST_CODE k) = 0)
      ∧ (s.dev.pw.eraseMark = true → d.ks.slots = [] ∧ d.ks.copies = [] ∧ d.ks.owner = none ∧ d.ks.deviceKey = none ∧ d.pw.zeroised = true)
      ∧ (s.dev.pw.eraseMark = false → d.ks = s.dev.ks)
      ∧ d.pw.records = s.dev.pw.records ∧ d.cfg = s.dev.cfg ∧ d.tab = s.dev.tab ∧ d.ra = s.dev.ra)

/-- Release (R101, R102, R108, R126): tempo 0 begins in RUN at cycle 0; the newest valid record is reported, and SYSTIME goes on from it by
the always-on ticks since, or starts at 0 without a record; the time from VIN is reported, and the next power-up has no cause yet. -/
def Obligations.ReleaseBeginsTempoZero : Prop :=
  ∀ (s : State) (ticks pwrupT : Nat), s.Inv → s.dev.pw.phase = .releaseWait → s.dev.is F.PWR_FLAGS_BANK_READY = true →
    Completes (.release ticks pwrupT) s (fun d =>
      d.pw.phase = .run ∧ d.pw.trans = .none ∧ d.tempo = 0 ∧ d.cycle = 0 ∧ d.pw.nextCause = 0 ∧ d.pw.aonValid = (!s.dev.is F.CLK_STAT_SLOW_FAULT)
      ∧ d.get F.BIST_RESET_CAUSE_PWRUP_T = min pwrupT 65535
      ∧ (∀ slot r, s.dev.newestRec = some slot → s.dev.recAt slot = some r →
          d.is F.PWR_LAST_REC_VALID = true ∧ d.get F.PWR_LAST_REC_SLOT = slot ∧ d.get F.PWR_LAST_REC_REASON = r.reason % 256
          ∧ d.get F.PWR_REC_SEQ_SEQ = r.seq % 2 ^ 32
          ∧ (s.dev.pw.aonLost = true → d.systime = r.systime * 2 ^ 32 % 2 ^ 96)
          ∧ (s.dev.pw.aonLost = false → r.aon < 2 ^ 48 → d.systime =
              (r.systime * 2 ^ 32 + (s.dev.pw.aonAcc / 390625 + ticks + 2 ^ 48 - r.aon) % 2 ^ 48 * (1953125 * 2 ^ 26)) % 2 ^ 96))
      ∧ (s.dev.newestRec = none → d.systime = 0 ∧ d.get F.PWR_LAST_REC_VALID = s.dev.get F.PWR_LAST_REC_VALID)
      ∧ d.pw.records = s.dev.pw.records ∧ d.cfg = s.dev.cfg ∧ d.pins = s.dev.pins)


/-- A write of PWR.MODE.TARGET with no transition under way begins one (R86): to IDLE no grant follows; to RUN the chains that carry the ports
in service go to SYNTH, but one that is being calibrated; a request for SLEEP is noted with its tempo. -/
def Obligations.TargetBeginsTransition : Prop :=
  ∀ (s : State) (v : BitVec 32), s.Inv → s.dev.pw.trans = .none →
    (s.dev.accepts R.PWR_MODE (rowWord v 1 2) → s.dev.pw.phase = .run → Completes (.targetIdle v) s (fun d =>
      d.get F.PWR_MODE_TARGET = 1 ∧ d.pw = { s.dev.pw with trans := .toIdle } ∧ d.noGrants = true ∧ d.get F.PWR_MODE_WAKE_TO = bits v.toNat 9 8
      ∧ d.tempo = s.dev.tempo ∧ d.cycle = s.dev.cycle ∧ d.systime = s.dev.systime ∧ d.rx = s.dev.rx ∧ d.sessions = s.dev.sessions ∧ d.pins = s.dev.pins))
    ∧ (s.dev.accepts R.PWR_MODE (rowWord v 0 3) → s.dev.pw.phase = .idle → Completes (.targetRun v) s (fun d =>
      d.get F.PWR_MODE_TARGET = 0 ∧ (∀ p : Fin 32, s.dev.inService p = true → s.dev.chainState (portGroup p) (s.dev.chainOf p) ≠ 5 →
          d.chainState (portGroup p) (s.dev.chainOf p) = 2 ∧ d.txLocked (portGroup p) (s.dev.chainOf p) = false)
      ∧ d = { s.dev with regs := d.regs, cfg := d.cfg, pw := { s.dev.pw with trans := .toRun } }
      ∧ s.dev.regsKept (R.PWR_MODE :: H.seq 0x01 :: (List.range 4).flatMap (fun g => [R.RFG_CHAIN_STATE g, R.RFG_LOCK g])) d))
    ∧ (s.dev.accepts R.PWR_MODE (rowWord v 2 1) → Completes (.targetSleep v) s (fun d =>
      d.get F.PWR_MODE_TARGET = 2 ∧ d = { s.dev with regs := d.regs, cfg := d.cfg, pw := { s.dev.pw with trans := .toSleep, sleepAskedAt := s.dev.tempo } }
      ∧ s.dev.regsKept [R.PWR_MODE, H.seq 0x01] d))

/-- The transitions end (R68, R86, R87, R302): IDLE is entered with every context released once nothing is on air; RUN with reception to
restart at the next boundary and every peer heard now; SLEEP from IDLE with the reference off, every chain in SLEEP, the PCI Express link
down and each module supply off, with its event where it was on; time and configuration are as they were. -/
def Obligations.TransitionsEnd : Prop :=
  ∀ s : State, s.Inv →
    (s.dev.pw.trans = .toIdle → (∀ t ∈ s.dev.ra.txs, t.onPort = false) → s.dev.get F.PWR_MODE_TARGET = 1 → Completes .idleEntry s (fun d =>
      d.pw = { s.dev.pw with phase := .idle, trans := .none } ∧ d.rx = { s.dev.rx with ctxs := [] }
      ∧ d.tempo = s.dev.tempo ∧ d.systime = s.dev.systime ∧ d.cfg = s.dev.cfg ∧ d.pins = s.dev.pins))
    ∧ (s.dev.pw.trans = .toRun → s.dev.get F.PWR_MODE_TARGET = 0 → Completes .runEntry s (fun d =>
      d.pw = { s.dev.pw with phase := .run, trans := .none, rxRestart := true }
      ∧ d.tempo = s.dev.tempo ∧ d.systime = s.dev.systime ∧ d.cfg = s.dev.cfg ∧ d.pins = s.dev.pins
      ∧ (∀ x ∈ d.ra.peers, x.heardT = s.dev.tempo) ∧ (s.dev.rx.ctxs = [] → d.rx = s.dev.rx)))
    ∧ (s.dev.pw.trans = .toSleep → s.dev.pw.phase = .idle → s.dev.sleepReady = true → Completes .sleepEntry s (fun d =>
      d.pw = { s.dev.pw with phase := .sleep, trans := .none, aonSlept := 0 } ∧ d.is F.PCIE_LINK_UP = false
      ∧ (∀ n : Fin 2, d.is (F.BHL_LINK_VSFP n) = false
          ∧ (s.dev.paused = false → s.dev.is (F.BHL_LINK_VSFP n) = true → d.is (H.rawBit (0x30 + n) 1) = true))
      ∧ d.is F.CLK_STAT_REF_OK = false ∧ d.is F.CLK_STAT_PLL_LOCK = false
      ∧ (∀ g : Fin 4, d.rd (R.RFG_CHAIN_STATE g) = 0 ∧ d.rd (R.RFG_LOCK g) = 0) ∧ d.tm.sleepCapt = []
      ∧ d.tempo = s.dev.tempo ∧ d.cycle = s.dev.cycle ∧ d.systime = s.dev.systime ∧ d.cfg = s.dev.cfg ∧ d.pins = s.dev.pins))

/-- A SLEEP request whose entry condition has not held for 400 tempos is given up (R86): TARGET returns to CURRENT, and BUSY is recorded
in the error record of PWR. -/
def Obligations.SleepRequestGivenUp : Prop :=
  ∀ s : State, s.Inv → s.dev.paused = false → s.dev.pw.trans = .toSleep → s.dev.pw.sleepAskedAt + 400 ≤ s.dev.tempo →
    s.dev.sleepReady = false → Completes .sleepRequestTimeout s (fun d =>
      d.get F.PWR_MODE_TARGET = s.dev.current ∧ d.get (H.errCode 0x01) = 0x06 ∧ d.get (H.errAddr 0x01) = R.PWR_MODE ∧ d.is (H.rawBit 0x01 31) = true
      ∧ Dev.OnlyRegs (R.PWR_MODE :: errKeys 0x01) { s.dev with pw := { s.dev.pw with trans := .none } } d)

/-- An enabled wake source in SLEEP starts the wake and is kept as its cause (R88), the always-on count having run on to its tick (R84); the device is asleep until the wake completes. -/
def Obligations.WakeSourcesWake : Prop :=
  ∀ (s : State) (src : Fin 4) (line : Fin 16) (rising : Bool) (tick : Nat), s.Inv → s.dev.pw.phase = .sleep →
    (bit (s.dev.rd R.PWR_WAKE_EN) (src + 1) = true → (src = 0 → s.dev.gpioSleepSeen line rising = true) →
      Completes (.wake src line rising tick) s (fun d =>
        d.pw = { s.dev.pw with trans := .waking, aonAcc := s.dev.pw.aonAcc + (tick - s.dev.pw.aonSlept) * 390625,
                               aonSlept := max tick s.dev.pw.aonSlept }
        ∧ bit (d.rd R.PWR_WAKE_CAUSE) (src + 1) = true
        ∧ (s.dev.pw.trans ≠ .waking → d.rd R.PWR_WAKE_CAUSE = 2 ^ (src.val + 1))
        ∧ d.tempo = s.dev.tempo ∧ d.systime = s.dev.systime ∧ d.tab = s.dev.tab ∧ d.ra = s.dev.ra ∧ d.ks = s.dev.ks ∧ d.cfg = s.dev.cfg))
    ∧ (∀ n, bit (s.dev.rd R.PWR_WAKE_EN) 0 = true → n = s.dev.getPair F.PWR_WAKE_TIMER_LO_TICKS F.PWR_WAKE_TIMER_HI_TICKS → n ≠ 0 →
        s.dev.pw.aonSlept ≤ n → Completes .wakeTimerExpiry s (fun d => bit (d.rd R.PWR_WAKE_CAUSE) 0 = true
        ∧ Dev.OnlyRegs [R.PWR_WAKE_CAUSE] { s.dev with pw := { s.dev.pw with
            trans := .waking, aonAcc := s.dev.pw.aonAcc + (n - s.dev.pw.aonSlept) * 390625, aonSlept := n } } d))

/-- The wake completes (R38, R86, R468, R472): the device is in IDLE with the reference and the PLL up and TARGET at WAKE_TO; the tempo, the
cycle, SYSTIME and the always-on count are made up for the slow ticks slept, the fraction of a core cycle carried. -/
def Obligations.WakeMakesUp : Prop :=
  ∀ (s : State) (ticks : Nat) (n : Fin 80001), s.Inv → s.dev.pw.phase = .sleep → s.dev.pw.trans = .waking → s.dev.get F.PWR_MODE_WAKE_TO ≤ 1 →
    Completes (.wakeComplete ticks n) s (fun d =>
      d.pw.phase = .idle ∧ d.get F.PWR_MODE_TARGET = s.dev.get F.PWR_MODE_WAKE_TO
      ∧ d.pw.trans = (if s.dev.get F.PWR_MODE_WAKE_TO = 0 then .toRun else .none)
      ∧ d.is F.CLK_STAT_REF_OK = true ∧ d.is F.CLK_STAT_PLL_LOCK = true ∧ d.get F.CLK_PLL_LOCK_T_CYCLES = n
      ∧ d.tempo * 100000 + d.cycle = s.dev.tempo * 100000 + s.dev.cycle + (ticks * 390625 + s.dev.tm.frac) / 32 ∧ d.cycle < 100000
      ∧ d.tm.frac = (ticks * 390625 + s.dev.tm.frac) % 32
      ∧ d.pw.aonAcc = s.dev.pw.aonAcc + (ticks - s.dev.pw.aonSlept) * 390625 ∧ d.systime = (s.dev.systime + ticks * (1953125 * 2 ^ 26)) % 2 ^ 96
      ∧ d.cfg = s.dev.cfg ∧ d.ks = s.dev.ks ∧ d.tab.mem = s.dev.tab.mem)

/-- What a resignation at a host's command leaves (R95, R96), as for the other triggers, but that the write itself is counted in SEQ. -/
def Obligations.ResignGoResigns : Prop :=
  ∀ (s : State) (v : BitVec 32), s.Inv → s.dev.accepts R.PWR_RESIGN (rowWord v 1 0) →
    Completes (.resignGo v) s (fun d => resigned 0x03 s.dev { d with regs := [] } ∧ d.pw.pwrGood = s.dev.pw.pwrGood
      ∧ ∀ k, k ≠ H.seq 0x01 → d.rd k = (resetReg k).toNat)

/-- Zeroisation (R124, R125): ARM notes the time that its window of 4 tempos runs from; an accepted CONFIRM stops grants and starts the
erasure; its end leaves no key, owner or device key, and a resignation with reason COMMANDED. -/
def Obligations.ZeroisationErases : Prop :=
  ∀ (s : State) (v : BitVec 32) (testEn : Bool), s.Inv →
    (v.getLsbD 1 = false → s.dev.accepts R.BIST_TEST (rowWord v 1 0) → Completes (.arm v) s (fun d =>
      Dev.OnlyRegs [R.BIST_TEST, H.seq 0x03] { s.dev with pw := { s.dev.pw with armedAt := some s.dev.monoCycles } } d))
    ∧ (v.getLsbD 0 = false → Dev.accepts { s.dev with pins := { s.dev.pins with testEn := testEn } } R.BIST_TEST (rowWord v 2 0) →
      Completes (.confirm testEn v) s (fun d => d.noGrants = true
        ∧ Dev.OnlyRegs [R.BIST_TEST, H.seq 0x03] { s.dev with pins := { s.dev.pins with testEn := testEn }, pw := { s.dev.pw with erasing := true } } d))
    ∧ (s.dev.pw.erasing = true → s.dev.released = true → Completes .zeroiseComplete s (fun d =>
      d.pw.phase = .resigning ∧ (∃ r : Rec, d.pw.saving = some r.bytes ∧ r.reason = 0x03 ∧ r.fcnt = [] ∧ r.tempo = s.dev.sysTempo ∧ r.systime = s.dev.sysNs)
      ∧ d.ks.slots = [] ∧ d.ks.gens = [] ∧ d.ks.copies = [] ∧ d.ks.owner = none ∧ d.ks.deviceKey = none ∧ d.pw.zeroised = true ∧ d.pw.nextCause = 3
      ∧ d.pw.records = s.dev.pw.records ∧ d.cfg = s.dev.cfg ∧ d.fw.slots = s.dev.fw.slots))

/-- One slice of the runtime self-test (R120): its pass goes on, or ends with the 54th slice; a fault is reported with its item and code and
raises BIST.IRQ_RAW bit 0, and one of the test of the RF dies' serial links takes the link that it names out of use (R192). -/
def Obligations.RuntimeSelftestSliceCounts : Prop :=
  ∀ (s : State) (fault : Fin 9) (loc : Fin 64), s.Inv → s.dev.ln.linkOut.length = 4 → s.dev.awake = true → s.dev.paused = false → s.dev.jobEnabled 5 = true → 0 < s.dev.bgLeft 5 0 →
    Completes (.runtimeSelftestSlice ⟨fault, loc⟩) s (fun d =>
      d.pw.runtimeSlice = (if s.dev.pw.runtimeSlice = 53 then 0 else s.dev.pw.runtimeSlice + 1)
      ∧ d.get F.BIST_RUNTIME_PASSES = (if s.dev.pw.runtimeSlice = 53 then min (s.dev.get F.BIST_RUNTIME_PASSES + 1) 65535 else s.dev.get F.BIST_RUNTIME_PASSES)
      ∧ (fault ≠ 0 → d.get F.BIST_RUNTIME_LAST_ITEM = runtimeItem s.dev.pw.runtimeSlice ∧ d.get F.BIST_RUNTIME_LAST_CODE = fault ∧ d.is (H.rawBit 0x03 0) = true)
      ∧ (fault = 0 → d.get F.BIST_RUNTIME_LAST_ITEM = s.dev.get F.BIST_RUNTIME_LAST_ITEM ∧ d.get F.BIST_RUNTIME_LAST_CODE = s.dev.get F.BIST_RUNTIME_LAST_CODE)
      ∧ Dev.OnlyRegs [R.BIST_RUNTIME, H.irqRaw 0x03] { s.dev with pw := { s.dev.pw with runtimeSlice := d.pw.runtimeSlice }, bg := d.bg, ln := d.ln } d
      ∧ (fault = 0 ∨ s.dev.pw.runtimeSlice < 22 → d.ln = s.dev.ln)
      ∧ (fault ≠ 0 → 22 ≤ s.dev.pw.runtimeSlice → ∀ i : Fin 64, (d.ln.linkOut.getD (i / 16) 0).getLsbD (i % 16) =
          ((s.dev.ln.linkOut.getD (i / 16) 0).getLsbD (i % 16) || i == loc)))

/-- The Opening ends once, when the running tempo count has reached 4,000 (R127). -/
def Obligations.OpeningEndsOnce : Prop :=
  ∀ s : State, s.Inv → s.dev.awake = true → s.dev.paused = false →
    (4000 ≤ s.dev.tempo → s.dev.pw.openEnded = false → Completes .openingEnd s (fun d =>
      d.is (H.rawBit 0x00 1) = true ∧ Dev.OnlyRegs [H.irqRaw 0x00] { s.dev with pw := { s.dev.pw with openEnded := true } } d))
    ∧ (s.dev.pw.openEnded = true → Completes .openingEnd s (fun d => d = s.dev))

/-! ### Registers, rings and interrupts (05) -/

/-- Register accesses: an accepted write of a plain register stores its fields and moves SEQ (R141, R143); a read of ERR_CODE clears COUNT
only, one of BIST.RUNTIME clears PASSES (R21); a NAME_LO write is only staged, and NAME_HI commits both halves (R8); a write of IRQ_PEND
clears raw bits, re-arms their sources and with REJECT clears the error record but COUNT (R137, R165); SOFT_RESET makes its page refuse every
further write until the reset is done, which reloads the page, clears IRQ_RAW and leaves SEQ (R139); FREEZE holds what the page shows (R138). -/
def Obligations.RegistersAct : Prop :=
  ∀ s : State, s.Inv →
    (∀ (a : BitVec 20) (v : BitVec 32) (r : RegDesc), a.toNat ∈ plainRegs → findReg (a.toNat / 0x1000) (a.toNat % 0x1000) = some r →
      s.dev.accepts a.toNat v.toNat → Completes (.regWriteGeneric a 15 v) s (fun d =>
        (∀ f ∈ r.fields, bits (d.rd a.toNat) f.hi f.lo = bits v.toNat f.hi f.lo)
        ∧ d.rd (H.seq (a.toNat / 0x1000)) = (s.dev.rd (H.seq (a.toNat / 0x1000)) + 1) % 2 ^ 32
        ∧ s.dev.regsKept [a.toNat, H.seq (a.toNat / 0x1000)] d ∧ d = { s.dev with regs := d.regs, cfg := d.cfg }))
    ∧ (∀ (a : BitVec 20) (p : Nat), a.toNat = p * 0x1000 + 0x01C → pageAssigned p = true → p ≠ 0x07 → s.dev.hostOpen = true → s.dev.paused = false →
      Completes (.rcRead a) s (fun d => d.get (H.errCount p) = 0 ∧ d.get (H.errCode p) = s.dev.get (H.errCode p) ∧ d.is (H.errMore p) = s.dev.is (H.errMore p)
        ∧ Dev.OnlyRegs [p * 0x1000 + 0x01C] { s.dev with out := .regRead a.toNat (s.dev.readView a.toNat) :: s.dev.out } d))
    ∧ (s.dev.hostOpen = true → s.dev.paused = false → s.dev.frozen = [] → Completes (.rcRead (BitVec.ofNat 20 R.BIST_RUNTIME)) s (fun d =>
        d.get F.BIST_RUNTIME_PASSES = 0 ∧ d.get F.BIST_RUNTIME_LAST_CODE = s.dev.get F.BIST_RUNTIME_LAST_CODE
        ∧ d.is F.BIST_RUNTIME_EN = s.dev.is F.BIST_RUNTIME_EN
        ∧ Dev.OnlyRegs [R.BIST_RUNTIME] { s.dev with out := .regRead R.BIST_RUNTIME (s.dev.readView R.BIST_RUNTIME) :: s.dev.out } d))
    ∧ (∀ (a : BitVec 20) (v : BitVec 32), pairLo a.toNat = true → s.dev.accepts a.toNat v.toNat → Completes (.pairLoStage a 15 v) s (fun d =>
        d.stagedLo a.toNat = v.toNat ∧ (∀ b, b ≠ a.toNat → d.stagedLo b = s.dev.stagedLo b) ∧ d = { s.dev with staged := d.staged }))
    ∧ (∀ v : BitVec 32, s.dev.accepts R.PWR_WAKE_TIMER_HI v.toNat → Completes (.pairHiCommit (BitVec.ofNat 20 R.PWR_WAKE_TIMER_HI) 15 v) s (fun d =>
        d.rd R.PWR_WAKE_TIMER_LO = s.dev.stagedLo R.PWR_WAKE_TIMER_LO % 2 ^ 32 ∧ d.get F.PWR_WAKE_TIMER_HI_TICKS = v.toNat % 16
        ∧ d.rd (H.seq 0x01) = (s.dev.rd (H.seq 0x01) + 1) % 2 ^ 32
        ∧ s.dev.regsKept [R.PWR_WAKE_TIMER_LO, R.PWR_WAKE_TIMER_HI, H.seq 0x01] d
        ∧ d = { s.dev with regs := d.regs, cfg := d.cfg, staged := s.dev.staged.filter (fun x => x.1 != R.PWR_WAKE_TIMER_LO) }))
    ∧ (∀ (p : BitVec 8) (v : BitVec 32), p.toNat ≠ 0x07 → s.dev.accepts (H.irqPend p.toNat) v.toNat → Completes (.irqPendClear p v) s (fun d =>
        (∀ b : Fin 32, bit (d.rd (H.irqRaw p.toNat)) b = (bit (s.dev.rd (H.irqRaw p.toNat)) b && !v.getLsbD b))
        ∧ (∀ x, x ∈ d.disarmed ↔ x ∈ s.dev.disarmed ∧ ¬∃ b : Fin 32, v.getLsbD b = true ∧ bit (s.dev.rd (H.irqRaw p.toNat)) b = true ∧ srcOf p.toNat b = some x)
        ∧ (v.getLsbD 31 = true → d.get (H.errCode p.toNat) = 0 ∧ d.is (H.errMore p.toNat) = false ∧ d.get (H.errAddr p.toNat) = 0 ∧ d.get (H.errData p.toNat) = 0)
        ∧ d.get (H.errCount p.toNat) = s.dev.get (H.errCount p.toNat)
        ∧ Dev.OnlyRegs (H.irqRaw p.toNat :: if v.getLsbD 31 then errKeys p.toNat else []) { s.dev with disarmed := d.disarmed } d))
    ∧ (∀ (p : BitVec 8) (v : BitVec 32), s.dev.accepts (H.ctrl p.toNat) (rowWord v 2 0) → Completes (.softReset p v) s (fun d =>
        p.toNat ∈ d.resetting ∧ (∀ a w, a / 0x1000 = p.toNat → d.writeCode a w true ≠ 0)
        ∧ d.rd (H.seq p.toNat) = (s.dev.rd (H.seq p.toNat) + 1) % 2 ^ 32))
    ∧ (s.dev.awake = true → 0x09 ∈ s.dev.resetting → Completes (.softResetDone 0x09) s (fun d =>
        0x09 ∉ d.resetting ∧ (∀ p, p ≠ 0x09 → (p ∈ d.resetting ↔ p ∈ s.dev.resetting)) ∧ d.rd (H.irqRaw 0x09) = 0 ∧ d.rd R.GPIO_EVT = 0
        ∧ d.get F.GPIO_DIR_OUT_EN = bits (s.dev.cfgRd R.GPIO_DIR) 15 0 ∧ d.get (H.errCode 0x09) = 0 ∧ d.get (H.errAddr 0x09) = 0
        ∧ d.rd (H.seq 0x09) = s.dev.rd (H.seq 0x09)
        ∧ (∀ k, keyPage k ≠ 0x09 → d.rd k = s.dev.rd k) ∧ d.cfg = s.dev.cfg ∧ d.tab = s.dev.tab ∧ d.ra = s.dev.ra ∧ d.pins = s.dev.pins))
    ∧ (∀ v : BitVec 32, v.getLsbD 2 = true → s.dev.is (H.freeze 0x03) = false → s.dev.accepts (H.ctrl 0x03) (rowWord v 0 2) → Completes (.freeze 0x03 v) s (fun d =>
        d.is (H.freeze 0x03) = true ∧ d.is (H.enable 0x03) = v.getLsbD 0 ∧ d.readView R.BIST_RUNTIME = s.dev.readView R.BIST_RUNTIME
        ∧ d.get F.BIST_RUNTIME_PASSES = 0 ∧ d.rd (H.seq 0x03) = (s.dev.rd (H.seq 0x03) + 1) % 2 ^ 32
        ∧ d = { s.dev with regs := d.regs, cfg := d.cfg, frozen := d.frozen }))

/-- RESULT of a command that is late before it begins: where it would transmit, CAUSE with INDEX and CHAIN 0xFF (R286), else zeros. -/
def lateResult (d : Dev) (e : Entry) : List Byte :=
  if e.opcode ∈ [0x0300, 0x0320, 0x0321] then [BitVec.ofNat 8 (lateCause e (d.lateCode e)), 0xFF, 0xFF] else []

/-- The rings (R153 to R158): doorbells, EN, CQ_BASE; an arriving entry in sequence is accepted and waits to begin, one out of sequence stops
fetching with SEQ, each ring fetching in its turn; a command begins in order, or completes with LATE or RANGE; a waiting completion is written once there is space; a failed
DMA stops the ring and leaves its completions held only. -/
def Obligations.RingsAct : Prop :=
  ∀ (s : State) (n : Fin 8) (v : BitVec 32), s.Inv →
    (s.dev.accepts (R.HOST_SQ_DB n) (rowWord v 0 0) → Completes (.sqDoorbell n v) s (fun d => d.get (F.HOST_SQ_DB_VALUE n) = v.toNat % 65536
      ∧ d.ring n = { s.dev.ring n with stopped := false } ∧ (∀ m, m ≠ n.val → d.ring m = s.dev.ring m)
      ∧ Dev.OnlyRegs [R.HOST_SQ_DB n, H.seq 0x05] { s.dev with rings := d.rings } d))
    ∧ (s.dev.accepts (R.HOST_CQ_DB n) (rowWord v 0 0) → Completes (.cqDoorbell n v) s (fun d => d.get (F.HOST_CQ_DB_VALUE n) = v.toNat % 65536
      ∧ s.dev.OnlyRegs [R.HOST_CQ_DB n, H.seq 0x05] d))
    ∧ (s.dev.accepts (R.HOST_RING_CFG n) (rowWord v 1 0) → Completes (.ringEnable n v) s (fun d => d.ringEn n = true
      ∧ d.ring n = (if s.dev.ringEn n || s.dev.is (F.HOST_RING_STAT_FAULT n) then s.dev.ring n else { s.dev.ring n with dead := false })
      ∧ (∀ m, m ≠ n.val → d.ring m = s.dev.ring m) ∧ d = { s.dev with regs := d.regs, cfg := d.cfg, rings := d.rings }
      ∧ s.dev.regsKept [R.HOST_RING_CFG n, H.seq 0x05] d))
    ∧ (s.dev.accepts (R.HOST_RING_CFG n) (rowWord v 0 1) → Completes (.ringDisable n v) s (fun d => d.ringEn n = false ∧ d.fetching n = false
      ∧ d.is (F.HOST_RING_STAT_FAULT n) = false ∧ d = { s.dev with regs := d.regs, cfg := d.cfg }
      ∧ s.dev.regsKept [R.HOST_RING_CFG n, R.HOST_RING_STAT n, H.seq 0x05] d))
    ∧ (s.dev.accepts (R.HOST_CQ_BASE_HI n) (rowWord v 0 0) → Completes (.cqBaseWrite n v) s (fun d =>
      d.rd (R.HOST_CQ_BASE_LO n) = s.dev.stagedLo (R.HOST_CQ_BASE_LO n) % 2 ^ 32 ∧ d.rd (R.HOST_CQ_BASE_HI n) = v.toNat
      ∧ d.get (F.HOST_CQ_STATE_CQ_WRITTEN n) = 0 ∧ d.get (F.HOST_CQ_DB_VALUE n) = 0
      ∧ s.dev.regsKept [R.HOST_CQ_BASE_LO n, R.HOST_CQ_BASE_HI n, R.HOST_CQ_STATE n, R.HOST_CQ_DB n, H.seq 0x05] d
      ∧ d = { s.dev with regs := d.regs, cfg := d.cfg, staged := s.dev.staged.filter (fun x => x.1 != R.HOST_CQ_BASE_LO n) }))
    ∧ (∀ (b : List Byte) (e : Entry), e = Entry.ofBytes b → s.dev.hostOpen = true → s.dev.paused = false → s.dev.fetching n = true →
      s.dev.turnOf n = true → s.dev.inflight.length < 512 →
      (e.hseq = (s.dev.lastHseq n + 1) % 65536 → e.flags / 8 = 0 → e.byte7 = 0 → (∀ c ∈ s.dev.inflight, c.ring = n → c.e.tag ≠ e.tag) →
        Completes (.commandEntry n b none) s (fun d => d.lastHseq n = e.hseq ∧ d.lastDseq n = s.dev.lastDseq n
          ∧ Dev.OnlyRegs [R.HOST_RING_STATE n, R.HOST_IN_FLIGHT]
              { s.dev with fetched := n, inflight := s.dev.inflight ++ [{ ring := n, e := e, begun := false, ran := false, issued := false, sess := none }] } d))
      ∧ (e.hseq ≠ (s.dev.lastHseq n + 1) % 65536 →
        Completes (.commandEntry n b none) s (fun d => d.ring n = { s.dev.ring n with stopped := true } ∧ d.get (H.errCode 0x05) = 0x09
          ∧ d.get (H.errAddr 0x05) = n ∧ d.get (H.errData 0x05) = e.hseq * 65536 + (s.dev.lastHseq n + 1) % 65536 ∧ d.is (H.rawBit 0x05 (8 + n)) = true
          ∧ Dev.OnlyRegs (errKeys 0x05) { s.dev with fetched := n, rings := d.rings } d)))
    ∧ (∀ (hseq : Nat) (errs : List LineError) (c : Cmd), s.dev.awake = true → s.dev.paused = false → s.dev.cmdOf n hseq = some c →
      s.dev.inflight.find? (fun c => c.ring == n.val && c.e.hseq == hseq && !c.begun) = some c →
      (s.dev.mayBegin c = true → s.dev.tooLate c.e = false → c.e.opcode ∈ opcodes → Completes (.commandBegin n ⟨hseq, errs⟩) s (fun d =>
        d = Dev.strikes { s.dev with inflight := s.dev.inflight.map (fun x => if x.ring == n.val && x.e.hseq == hseq then { x with begun := true } else x) } errs))
      ∧ (s.dev.mayBegin c = true → s.dev.tooLate c.e = true → Completes (.commandBegin n ⟨hseq, errs⟩) s (fun d =>
        s.dev.Completed d n hseq ((s.dev.begun n hseq).lateCode c.e) (lateResult (s.dev.begun n hseq) c.e) ∧ s.dev.OnlyCompletes [H.irqRaw 0x16] d n hseq))
      ∧ (s.dev.mayBegin c = true → s.dev.tooLate c.e = false → c.e.opcode ∉ opcodes → Completes (.commandBegin n ⟨hseq, errs⟩) s (fun d =>
        s.dev.Completed d n hseq 0x01 [] ∧ s.dev.OnlyCompletes [] d n hseq))
      ∧ (s.dev.mayBegin c = false → Completes (.commandBegin n ⟨hseq, errs⟩) s (fun d => d = s.dev))
      ∧ (c.begun = false → s.dev.tooLate c.e = true → Completes (.latestStartPass n hseq) s (fun d =>
        s.dev.Completed d n hseq ((s.dev.begun n hseq).lateCode c.e) (lateResult (s.dev.begun n hseq) c.e) ∧ s.dev.OnlyCompletes [H.irqRaw 0x16] d n hseq)))
    ∧ (∀ (w : Waiting) (rest : List Waiting), (s.dev.ring n).waiting = w :: rest → s.dev.ringPcie n = true → (s.dev.ring n).dead = false → s.dev.cqUsed n < 4096 →
      s.dev.is F.PCIE_LINK_UP = true → Completes (.completionWrite n) s (fun d => d.ring n = { s.dev.ring n with waiting := rest }
        ∧ d.get (F.HOST_CQ_STATE_CQ_WRITTEN n) = (s.dev.get (F.HOST_CQ_STATE_CQ_WRITTEN n) + 1) % 65536
        ∧ (∃ c, d.out = .completion n (s.dev.get (F.HOST_CQ_STATE_CQ_WRITTEN n) % 4096) (s.dev.cqPhase n) c :: s.dev.out
            ∧ c.dseq = w.c.dseq ∧ c.tag = w.c.tag ∧ c.hseq = w.c.hseq ∧ c.code = w.c.code ∧ c.time = w.c.time ∧ c.result = w.c.result)
        ∧ (w.own = true → d.inflight = s.dev.inflight.filter (fun c => !(c.ring == n.val && c.e.hseq == w.c.hseq))) ∧ (w.own = false → d.inflight = s.dev.inflight)
        ∧ Dev.OnlyRegs [R.HOST_CQ_STATE n] { s.dev with rings := d.rings, out := d.out, inflight := d.inflight } d))
    ∧ (s.dev.awake = true → s.dev.paused = false → (s.dev.ringEn n = true ∨ s.dev.ringIdle n = false) → (s.dev.ring n).dead = false →
      s.dev.ringPcie n = true → Completes (.ringDmaError n) s (fun d =>
      d.is (F.HOST_RING_STAT_FAULT n) = true ∧ d.is (H.rawBit 0x05 (8 + n)) = true ∧ d.ring n = { s.dev.ring n with waiting := [], dead := true }
      ∧ d.fetching n = false ∧ (∀ m, m ≠ n.val → d.ring m = s.dev.ring m) ∧ (∀ c ∈ s.dev.inflight, c.ring ≠ n → c ∈ d.inflight)
      ∧ d.get F.PCIE_ERR_UNCORR = min (s.dev.get F.PCIE_ERR_UNCORR + 1) F.PCIE_ERR_UNCORR.top
      ∧ Dev.OnlyRegs [R.PCIE_ERR, R.HOST_RING_STAT n, H.irqRaw 0x05] { s.dev with rings := d.rings, inflight := d.inflight } d))


/-- The host-interface opcodes (R161, R162): NOP, REG_READ, REG_WRITE and RESYNC each complete once, with their RESULT, and change nothing else
but what the command itself does: a register read or written as by BAR0, a rejected write recorded, a held completion sent again. -/
def Obligations.HostCommandsComplete : Prop :=
  ∀ (s : State) (n : Fin 8) (hseq : Nat) (e : Entry), s.Inv →
    (s.dev.cmdFor n hseq 0x0000 = some e → Completes (.nop n hseq) s (fun d => s.dev.Completed d n hseq 0 [] ∧ s.dev.OnlyCompletes [] d n hseq))
    ∧ (s.dev.cmdFor n hseq 0x0001 = some e → s.dev.paused = false →
      (regCmdCode e ≠ 0 → Completes (.regRead n hseq) s (fun d => s.dev.Completed d n hseq (regCmdCode e) [] ∧ s.dev.OnlyCompletes [] d n hseq))
      ∧ (e.p4 0 ∈ plainRegs → e.p1 4 = 1 → Completes (.regRead n hseq) s (fun d =>
          s.dev.Completed d n hseq 0 (beBytes 4 (s.dev.readView (e.p4 0))) ∧ s.dev.OnlyCompletes [] d n hseq)))
    ∧ (s.dev.cmdFor n hseq 0x0002 = some e → s.dev.awake = true → s.dev.paused = false →
      (regCmdCode e ≠ 0 → Completes (.regWrite n hseq) s (fun d => s.dev.Completed d n hseq (regCmdCode e) [] ∧ s.dev.OnlyCompletes [] d n hseq))
      ∧ (∀ r, e.p4 0 ∈ plainRegs → e.p1 4 = 1 → findReg (e.p4 0 / 0x1000) (e.p4 0 % 0x1000) = some r →
          (s.dev.writeCode (e.p4 0) (e.p4 5) true = 0 → Completes (.regWrite n hseq) s (fun d =>
            s.dev.Completed d n hseq 0 [0] ∧ (∀ f ∈ r.fields, bits (d.rd (e.p4 0)) f.hi f.lo = bits (e.p4 5) f.hi f.lo)
            ∧ Dev.OnlyCompletes [e.p4 0, H.seq (e.p4 0 / 0x1000)] { s.dev with cfg := d.cfg } d n hseq))
          ∧ (s.dev.writeCode (e.p4 0) (e.p4 5) true ≠ 0 → Completes (.regWrite n hseq) s (fun d =>
            s.dev.Completed d n hseq (s.dev.writeCode (e.p4 0) (e.p4 5) true) [BitVec.ofNat 8 (s.dev.writeCode (e.p4 0) (e.p4 5) true)]
            ∧ d.get (H.errAddr (e.p4 0 / 0x1000)) = e.p4 0 ∧ d.get (H.errData (e.p4 0 / 0x1000)) = e.p4 5
            ∧ s.dev.OnlyCompletes (errKeys (e.p4 0 / 0x1000)) d n hseq))))
    ∧ (s.dev.cmdFor n hseq 0x0003 = some e →
      (7 < e.p1 0 → Completes (.resync n hseq) s (fun d => s.dev.Completed d n hseq 0x01 [] ∧ s.dev.OnlyCompletes [] d n hseq))
      ∧ (∀ (m : Fin 8) (c : Compl), m ≠ n → e.p1 0 = m → (s.dev.ring m).held = [c] → c.dseq = s.dev.lastDseq m → e.p2 1 = c.dseq → s.dev.ringPcie m = true →
          (s.dev.ring m).dead = false → (s.dev.ring m).waiting = [] → s.dev.cqUsed m < 4096 → s.dev.is F.PCIE_LINK_UP = true → Completes (.resync n hseq) s (fun d =>
            s.dev.Completed d n hseq 0 (beBytes 2 1 ++ beBytes 2 c.dseq ++ beBytes 2 c.dseq)
            ∧ (∃ fl, bit fl 0 = true ∧ .completion m (s.dev.get (F.HOST_CQ_STATE_CQ_WRITTEN m) % 4096) (s.dev.cqPhase m) { c with cflags := fl } ∈ d.out)
            ∧ d.ring m = s.dev.ring m ∧ d.lastDseq m = s.dev.lastDseq m)))

/-- Interrupt delivery (R165 to R167): a due vector is posted with every source it carries, which are disarmed, and its gap begins; one that
is masked or cannot be posted is kept in the pending-bit array with its sources armed; within the gap it waits for its end; an event record
goes to every subscribed session, at most one for a source in a tempo; IRQ.SOFT.SET sets its own raw bit. -/
def Obligations.InterruptsAreDelivered : Prop :=
  ∀ (s : State) (v : Fin 64) (canPost : Bool), s.Inv → s.dev.awake = true →
    (s.dev.vectorDue v ≠ [] → (v : Nat) ∉ s.dev.gaps →
      (canPost = true → s.dev.is F.PCIE_LINK_UP = true → s.dev.vectorMasked v = false → Completes (.msixPost v canPost) s (fun d =>
        d.out = .msix v (s.dev.vectorDue v) :: s.dev.out ∧ (∀ x, x ∈ d.disarmed ↔ x ∈ s.dev.disarmed ∨ x ∈ s.dev.vectorDue v)
        ∧ (v : Nat) ∉ d.pba ∧ ((v : Nat) ∈ d.gaps ↔ s.dev.get F.IRQ_MSIX_GAP_US ≠ 0)
        ∧ d = { s.dev with out := d.out, disarmed := d.disarmed, pba := d.pba, gaps := d.gaps }))
      ∧ ((canPost = false ∨ s.dev.is F.PCIE_LINK_UP = false ∨ s.dev.vectorMasked v = true) → Completes (.msixPost v canPost) s (fun d =>
        (v : Nat) ∈ d.pba ∧ (∀ x, x ≠ v.val → (x ∈ d.pba ↔ x ∈ s.dev.pba)) ∧ d = { s.dev with pba := d.pba })))
    ∧ ((v : Nat) ∈ s.dev.gaps → Completes (.msixPost v canPost) s (fun d => d = s.dev))
    ∧ (s.dev.vectorDue v = [] → Completes (.msixGapExpiry v canPost) s (fun d => d = { s.dev with gaps := s.dev.gaps.filter (fun x => x != v.val) }))
    ∧ (s.dev.vectorDue v ≠ [] → canPost = true → s.dev.is F.PCIE_LINK_UP = true → s.dev.vectorMasked v = false → Completes (.msixGapExpiry v canPost) s (fun d =>
        d.out = .msix v (s.dev.vectorDue v) :: s.dev.out ∧ (∀ x, x ∈ d.disarmed ↔ x ∈ s.dev.disarmed ∨ x ∈ s.dev.vectorDue v)
        ∧ d = { s.dev with out := d.out, disarmed := d.disarmed, pba := d.pba, gaps := d.gaps }))
    ∧ (bit (s.dev.rd (if (v : Nat) < 32 then R.IRQ_BRZ_EN_A else R.IRQ_BRZ_EN_B)) (v % 32) = true → s.dev.sessions.any (fun u => bit u.evSub 0) = true →
      s.dev.dueSource v = true →
      ((v : Nat) ∉ s.dev.bh.evSent → Completes (.eventRecordSend v) s (fun d =>
        d.bh.events = s.dev.bh.events ++ (s.dev.sessions.filter (fun u => bit u.evSub 0)).map (fun u => (u.uid, s.dev.eventRecord v))
        ∧ (v : Nat) ∈ d.bh.evSent ∧ (v : Nat) ∈ d.disarmed ∧ d.foldCount v = 0
        ∧ d = { s.dev with disarmed := d.disarmed, bh := { s.dev.bh with events := d.bh.events, evSent := d.bh.evSent, evFold := d.bh.evFold } }))
      ∧ ((v : Nat) ∈ s.dev.bh.evSent → Completes (.eventRecordSend v) s (fun d =>
        d.foldCount v = s.dev.foldCount v + 1 ∧ (v : Nat) ∈ d.disarmed
        ∧ d = { s.dev with disarmed := d.disarmed, bh := { s.dev.bh with evFold := d.bh.evFold } })))
    ∧ (∀ w : BitVec 32, s.dev.accepts R.IRQ_SOFT (rowWord w 1 0) → Completes (.softSet w) s (fun d => d.is (H.rawBit 0x06 0) = true
        ∧ (bit (s.dev.rd (H.irqMask 0x06)) 0 = true → d.asserted 63 = true) ∧ s.dev.OnlyRegs [R.IRQ_SOFT, H.irqRaw 0x06, H.seq 0x06] d))

/-! ### Table memory, directory and telemetry (12, 13) -/

/-- Table memory from outside and its own jobs (R147, R148, R362 to R369, R378, R394, R396): BAR2 reads a word, a free value where the spec states none (0 in
a frame-store cell that nothing has filled), or poison for a line in error, and writes a word of the host-defined region only; TMEM_CLEAR_LINE zeroes a line; the scrub moves on line by line and reports a whole pass;
telemetry queues a snapshot and writes records with SEQ into its ring; the sweeper ages out unused forwarding entries; the timing clear
makes its slice's anchors absent. -/
def Obligations.TableMemoryActs : Prop :=
  ∀ s : State, s.Inv →
    (∀ (off : Nat) (whole : Bool), s.dev.hostOpen = true → s.dev.is F.DIR_TCLEAR_ACTIVE = false →
      (s.dev.lineBad (s.dev.barWord off % 2 ^ 26 / 4) = false → s.dev.wordOpen (s.dev.barWord off % 2 ^ 26) = false →
        (s.dev.barWord off % 2 ^ 26 < 0x02800000 ∨ 0x03400000 ≤ s.dev.barWord off % 2 ^ 26) → Completes (.bar2Read off whole []) s (fun d =>
        d = { s.dev with out := .bar2Read off (if whole then s.dev.mem (s.dev.barWord off % 2 ^ 26) else
          if off / 4 % 2 = 0 then s.dev.mem (s.dev.barWord off % 2 ^ 26) % 2 ^ 32 else s.dev.mem (s.dev.barWord off % 2 ^ 26) / 2 ^ 32) false :: s.dev.out }))
      ∧ (s.dev.lineBad (s.dev.barWord off % 2 ^ 26 / 4) = true → s.dev.wordOpen (s.dev.barWord off % 2 ^ 26) = false → Completes (.bar2Read off true []) s (fun d =>
        d.out = .bar2Read off (2 ^ 64 - 1) true :: s.dev.out ∧ d.get F.TMEM_UE_LOG_LINE = s.dev.barWord off % 2 ^ 26 / 4 ∧ d.get F.TMEM_UE_LOG_READER = 2
        ∧ d.get F.TMEM_UE_CNT_COUNT = min (s.dev.get F.TMEM_UE_CNT_COUNT + 1) 65535
        ∧ Dev.OnlyRegs [R.TMEM_UE_LOG, R.TMEM_UE_CNT, H.irqRaw 0x21]
            { s.dev with out := d.out, tab := { s.dev.tab with ueLines := d.tab.ueLines } } d))
      ∧ (s.dev.lineBad (s.dev.barWord off % 2 ^ 26 / 4) = false → s.dev.wordOpen (s.dev.barWord off % 2 ^ 26) = true → Completes (.bar2Read off true []) s (fun d =>
        ∃ v, v < 2 ^ 36 ∧ d = { s.dev with out := .bar2Read off v false :: s.dev.out }))
      ∧ (s.dev.lineBad (s.dev.barWord off % 2 ^ 26 / 4) = false → 0x02800000 ≤ s.dev.barWord off % 2 ^ 26 → s.dev.barWord off % 2 ^ 26 < 0x03400000 →
        (∀ x ∈ s.dev.tab.store.cells, x.1 ≠ (s.dev.barWord off % 2 ^ 26 - 0x02800000) / 64) → Completes (.bar2Read off true []) s (fun d =>
        d = { s.dev with out := .bar2Read off 0 false :: s.dev.out })))
    ∧ (∀ off k : Nat, s.dev.hostOpen = true → s.dev.is F.DIR_TCLEAR_ACTIVE = true → s.dev.get F.DIR_TCLEAR_NEXT ≤ k → k < 6291456 →
      s.dev.barWord off % 2 ^ 26 = timingAddr k + 1 → s.dev.lineBad ((timingAddr k + 1) / 4) = false → Completes (.bar2Read off true []) s (fun d =>
        (∃ v, d.out = .bar2Read off v false :: s.dev.out ∧ bits v 7 7 = 0 ∧ bits v 19 8 = 0xFFF ∧ bits v 35 20 = 0)
        ∧ (s.dev.paused = true → d = { s.dev with out := d.out })
        ∧ (s.dev.paused = false → d.memBits (timingAddr k + 1) 7 7 = 0
            ∧ d = { s.dev with out := d.out, tab := { s.dev.tab with mem := d.tab.mem, writeBack := d.tab.writeBack } })))
    ∧ (∀ (off v a : Nat), s.dev.hostOpen = true → a = s.dev.barWord off % 2 ^ 26 → off % 8 = 0 → v < 2 ^ 36 → s.dev.lineBad (a / 4) = false →
      (inHostRegion a 1 = true → s.dev.paused = true → Completes (.bar2Write off 8 true v []) s (fun d =>
        d = { s.dev with tab := { s.dev.tab with heldWrites := s.dev.tab.heldWrites ++ [.word a v] } }))
      ∧ (inHostRegion a 1 = true → s.dev.paused = false → Completes (.bar2Write off 8 true v []) s (fun d => d.mem a = v ∧ (∀ b, b ≠ a → d.mem b = s.dev.mem b)
        ∧ d = { s.dev with tab := { s.dev.tab with mem := d.tab.mem, writeBack := d.tab.writeBack } }))
      ∧ (inHostRegion a 1 = false → Completes (.bar2Write off 8 true v []) s (fun d => d.get (H.errCode 0x21) = 0x01 ∧ d.get (H.errAddr 0x21) = a
        ∧ s.dev.OnlyRegs (errKeys 0x21) d)))
    ∧ (∀ (n : Fin 8) (hseq : Nat) (e : Entry), s.dev.cmdFor n hseq 0x0520 = some e →
      (0x00F80000 ≤ e.p4 0 → e.p4 0 ≤ 0x00FFFFFF → e.zeroFrom 4 = true → Completes (.tmemClearLine n hseq) s (fun d => s.dev.Completed d n hseq 0 []
        ∧ (∀ k : Fin 4, d.mem (4 * e.p4 0 + k) = 0) ∧ d.lineBad (e.p4 0) = false ∧ (∀ a, a / 4 ≠ e.p4 0 → d.mem a = s.dev.mem a)
        ∧ Dev.OnlyCompletes [] { s.dev with tab := { s.dev.tab with mem := d.tab.mem, writeBack := d.tab.writeBack, ueLines := d.tab.ueLines } } d n hseq))
      ∧ (e.p4 0 < 0x00F80000 → Completes (.tmemClearLine n hseq) s (fun d => s.dev.Completed d n hseq 0x01 [] ∧ s.dev.OnlyCompletes [] d n hseq)))
    ∧ (s.dev.awake = true → 1 ≤ s.dev.bgLeft 1 0 → s.dev.is F.TMEM_SCRUB_CFG_EN = true → s.dev.lineBad (s.dev.get F.TMEM_SCRUB_STAT_POS) = false →
      6291456 ≤ s.dev.get F.TMEM_SCRUB_STAT_POS →
      (s.dev.get F.TMEM_SCRUB_STAT_POS ≠ 0xFFFFFF → Completes (.scrubSlice 1 []) s (fun d => d.get F.TMEM_SCRUB_STAT_POS = s.dev.get F.TMEM_SCRUB_STAT_POS + 1
        ∧ Dev.OnlyRegs [R.TMEM_SCRUB_STAT] { s.dev with bg := d.bg } d))
      ∧ (s.dev.paused = false → s.dev.get F.TMEM_SCRUB_STAT_POS = 0xFFFFFF → s.dev.tab.passWhole = true → Completes (.scrubSlice 1 []) s (fun d =>
        d.get F.TMEM_SCRUB_STAT_POS = 0 ∧ d.get F.TMEM_SCRUB_STAT_STATUS = (if s.dev.tab.passUe = 0 then 1 else 2) ∧ d.is (H.rawBit 0x21 2) = true
        ∧ d.get F.TMEM_SCRUB_PASSES_PASSES = min (s.dev.get F.TMEM_SCRUB_PASSES_PASSES + 1) 65535
        ∧ Dev.OnlyRegs [R.TMEM_SCRUB_STAT, R.TMEM_SCRUB_PASSES, H.irqRaw 0x21] { s.dev with bg := d.bg, tab := { s.dev.tab with passUe := 0 } } d)))
    ∧ (s.dev.paused = false → Completes .scrubWriteBack s (fun d => d = { s.dev with tab := { s.dev.tab with writeBack := s.dev.tab.writeBack.drop 1 } }))
    ∧ (∀ v : BitVec 32, s.dev.accepts R.TMEM_SCRUB_CFG (rowWord v 0 0) → Completes (.scrubEnWrite v) s (fun d =>
        d.is F.TMEM_SCRUB_CFG_EN = v.getLsbD 31 ∧ d.get F.TMEM_SCRUB_CFG_PERIOD = v.toNat % 2 ^ 25 ∧ d.get F.TMEM_SCRUB_STAT_POS = s.dev.get F.TMEM_SCRUB_STAT_POS
        ∧ (s.dev.is F.TMEM_SCRUB_CFG_EN = false → v.getLsbD 31 = true → d.tab.scrubRestart = true)
        ∧ (s.dev.is F.TMEM_SCRUB_CFG_EN = true → v.getLsbD 31 = false → d.tab.passWhole = false)
        ∧ (s.dev.is F.TMEM_SCRUB_CFG_EN = v.getLsbD 31 → d.tab = s.dev.tab) ∧ d.tab.mem = s.dev.tab.mem
        ∧ s.dev.regsKept [R.TMEM_SCRUB_CFG, H.seq 0x21] d ∧ d = { s.dev with regs := d.regs, cfg := d.cfg, tab := d.tab }))
    ∧ (s.dev.is F.TMEM_TELEM_CFG_EN = true → s.dev.get F.TMEM_TELEM_CFG_INTERVAL ≤ s.dev.tab.telemCount →
      (s.dev.tab.telemQueue = [] → Completes .telemSnapshot s (fun d => d.tab.telemQueue = s.dev.telemSnapshot ∧ d.tab.telemCount = 0
        ∧ d.tab.mem = s.dev.tab.mem ∧ d = { s.dev with tab := d.tab, bg := { s.dev.bg with due := d.bg.due } }))
      ∧ (s.dev.tab.telemQueue ≠ [] → Completes .telemSnapshot s (fun d => d.get F.TMEM_TELEM_STAT_SKIPPED = min (s.dev.get F.TMEM_TELEM_STAT_SKIPPED + 1) 65535
        ∧ Dev.OnlyRegs [R.TMEM_TELEM_STAT] { s.dev with tab := { s.dev.tab with telemCount := 0 } } d)))
    ∧ (∀ (r : List Nat) (rest : List (List Nat)) (l : Nat), s.dev.awake = true → s.dev.paused = false → s.dev.is F.TMEM_TELEM_CFG_EN = true → 1 ≤ s.dev.bgLeft 3 0 →
      s.dev.tab.telemQueue = r :: rest → r.length = 4 → (∀ w ∈ r, w < 2 ^ 36) → r.headD 0 + s.dev.get F.TMEM_TELEM_SEQ_SEQ < 2 ^ 36 → l = s.dev.get F.TMEM_TELEM_WR_LINE →
      Completes (.telemWriteSlice 1) s (fun d => d.mem (telemAddr l) = r.headD 0 + s.dev.get F.TMEM_TELEM_SEQ_SEQ
        ∧ (∀ k : Fin 4, k ≠ 0 → d.mem (telemAddr l + k) = r.getD k 0) ∧ (∀ a, (a < telemAddr l ∨ telemAddr l + 4 ≤ a) → d.mem a = s.dev.mem a)
        ∧ d.tab.telemQueue = rest ∧ d.get F.TMEM_TELEM_WR_LINE = (l + 1) % 1048576 ∧ d.get F.TMEM_TELEM_SEQ_SEQ = (s.dev.get F.TMEM_TELEM_SEQ_SEQ + 1) % 2 ^ 32
        ∧ Dev.OnlyRegs [R.TMEM_TELEM_WR, R.TMEM_TELEM_SEQ] { s.dev with tab := d.tab, bg := d.bg } d))
    ∧ (∀ k : Nat, s.dev.paused = false → s.dev.is F.DIR_TCLEAR_ACTIVE = true → s.dev.tab.clearFrom ≤ s.dev.tempo → s.dev.get F.DIR_TCLEAR_NEXT + 16384 ≤ 6291456 →
      s.dev.get F.DIR_TCLEAR_NEXT ≤ k → k < s.dev.get F.DIR_TCLEAR_NEXT + 16384 → Completes .timingClearSlice s (fun d =>
        d.memBits (timingAddr k + 1) 7 7 = 0 ∧ d.memBits (timingAddr k + 1) 19 8 = 0xFFF ∧ d.memBits (timingAddr k + 1) 35 20 = 0 ∧ d.lineBits k 3 12 0 = 0x1000
        ∧ d.eValid k = s.dev.eValid k ∧ d.tab.clearFrom = s.dev.tempo + 1
        ∧ (s.dev.get F.DIR_TCLEAR_NEXT + 16384 = 6291456 → d.is F.DIR_TCLEAR_ACTIVE = false)
        ∧ (s.dev.get F.DIR_TCLEAR_NEXT + 16384 < 6291456 → d.is F.DIR_TCLEAR_ACTIVE = true ∧ d.get F.DIR_TCLEAR_NEXT = s.dev.get F.DIR_TCLEAR_NEXT + 16384)
        ∧ Dev.OnlyRegs [R.DIR_TCLEAR] { s.dev with tab := d.tab } d))
    ∧ (∀ (g : Fin 4) (k : Nat), s.dev.awake = true → s.dev.paused = false → s.dev.enabled (0x24 + g) = true → s.dev.is (F.FWD_CFG_SWEEP_EN g) = true → 1 ≤ s.dev.bgLeft 2 g → k = s.dev.get (F.FWD_SWEEP_POS_POS g) →
      Completes (.sweepVisit g ⟨1, []⟩) s (fun d => d.get (F.FWD_SWEEP_POS_POS g) = (k + 1) % 262144
        ∧ (s.dev.fwdValid g k = true → s.dev.fwdHit g k = true → d.fwdValid g k = true ∧ d.fwdHit g k = false ∧ d.fwdOrigin g k = s.dev.fwdOrigin g k)
        ∧ (s.dev.fwdValid g k = true → s.dev.fwdHit g k = false → d.mem (fwdAddr g k) = 0 ∧ d.mem (fwdAddr g k + 1) = 0
            ∧ d.get (F.FWD_STAT_A_AGED g) = min (s.dev.get (F.FWD_STAT_A_AGED g) + 1) 65535 ∧ d.get (F.FWD_COUNT_ENTRIES g) = s.dev.get (F.FWD_COUNT_ENTRIES g) - 1)
        ∧ (s.dev.fwdValid g k = false → d.tab = s.dev.tab) ∧ (∀ a, a ≠ fwdAddr g k → a ≠ fwdAddr g k + 1 → d.mem a = s.dev.mem a)
        ∧ Dev.OnlyRegs [R.FWD_SWEEP_POS g, R.FWD_COUNT g, R.FWD_STAT_A g] { s.dev with tab := d.tab, bg := d.bg } d))

/-- The directory commands (R385 to R389, R396): a load starts and goes on by at most 2,048 records a tempo, each counted once, and completes after
its last; DIR_REMOVE leaves no valid entry; DIR_FIND returns the handle and the probes; FWD_FLUSH removes the entry of a node. -/
def Obligations.DirectoryActs : Prop :=
  ∀ (s : State) (n : Fin 8) (hseq : Nat) (e : Entry), s.Inv →
    (s.dev.cmdFor n hseq 0x0500 = some e → e.p4 0 % 4 = 0 → e.p2 4 ≠ 0 → inHostRegion (e.p4 0) (4 * e.p2 4) = true → e.zeroFrom 6 = true →
      (s.dev.enabled 0x20 = true → (∀ j ∈ s.dev.tab.loads, j.src ≠ .ring n hseq) → Completes (.dirLoad n hseq) s (fun d =>
        (∃ j, d.tab.loads = s.dev.tab.loads ++ [j] ∧ j.src = .ring n hseq ∧ j.buf = e.p4 0 ∧ j.count = e.p2 4 ∧ j.next = 0 ∧ j.loaded = 0 ∧ j.updated = 0 ∧ j.failed = 0)
        ∧ (d.cmdOf n hseq).isSome = true ∧ d = { s.dev with tab := { s.dev.tab with loads := d.tab.loads }, inflight := d.inflight }))
      ∧ (s.dev.enabled 0x20 = false → Completes (.dirLoad n hseq) s (fun d => s.dev.Completed d n hseq 0x03 [] ∧ s.dev.OnlyCompletes [] d n hseq)))
    ∧ (∀ (j : LoadJob) (rest : List LoadJob), s.dev.paused = false → s.dev.tab.loads = j :: rest →
      (s.dev.loadLeft = 0 → Completes (.dirLoadBatch []) s (fun d => d = s.dev))
      ∧ (s.dev.loadLeft ≠ 0 → j.next + s.dev.loadLeft < j.count → Completes (.dirLoadBatch []) s (fun d => ∃ j', d.tab.loads = j' :: rest
        ∧ j'.next = j.next + s.dev.loadLeft ∧ d.loadLeft = 0
        ∧ j'.loaded + j'.updated + j'.failed = j.loaded + j.updated + j.failed + s.dev.loadLeft ∧ j'.src = j.src ∧ j'.buf = j.buf ∧ j'.count = j.count
        ∧ d.inflight = s.dev.inflight ∧ d.rings = s.dev.rings ∧ d.ra = s.dev.ra ∧ d.tempo = s.dev.tempo))
      ∧ (s.dev.loadLeft ≠ 0 → j.count ≤ j.next + s.dev.loadLeft → j.src = .ring n hseq → (s.dev.cmdOf n hseq).isSome = true → Completes (.dirLoadBatch []) s (fun d => d.tab.loads = rest
        ∧ (∃ code result, s.dev.Completed d n hseq code result) ∧ d.ra = s.dev.ra ∧ d.tempo = s.dev.tempo ∧ d.cfg = s.dev.cfg)))
    ∧ (∀ x, s.dev.cmdFor n hseq 0x0501 = some e → e.p4 0 < 2 ^ 23 → e.zeroFrom 4 = true → s.dev.enabled 0x20 = true →
      (s.dev.validEntry (e.p4 0) = some x →
        (s.dev.tab.blockMap.filter (fun y => y.pan == e.p4 0 / 65536 && y.block == e.p4 0 % 65536 / 1024)).length = 1 → Completes (.dirRemove n hseq) s (fun d => s.dev.Completed d n hseq 0 [] ∧ d.validEntry (e.p4 0) = none
        ∧ d.get F.DIR_COUNT_ENTRIES = s.dev.get F.DIR_COUNT_ENTRIES - 1 ∧ d.ra = s.dev.ra ∧ d.cfg = s.dev.cfg ∧ d.sch = s.dev.sch))
      ∧ (s.dev.validEntry (e.p4 0) = none → Completes (.dirRemove n hseq) s (fun d => s.dev.Completed d n hseq 0x11 [] ∧ s.dev.OnlyCompletes [] d n hseq)))
    ∧ (s.dev.cmdFor n hseq 0x0502 = some e → e.p1 0 ≤ 127 → e.p3 1 = 0 → e.zeroFrom 12 = true → s.dev.enabled 0x20 = true →
      (∀ x h, (s.dev.lookupExt (e.p1 0) (e.p8 4)).1 = some x → s.dev.handleOf x = some h → Completes (.dirFind n hseq) s (fun d =>
        s.dev.Completed d n hseq 0 (beBytes 4 h ++ beBytes 1 (s.dev.lookupExt (e.p1 0) (e.p8 4)).2)
        ∧ d.get F.DIR_XPROBE_PEAK = max (s.dev.get F.DIR_XPROBE_PEAK) (s.dev.lookupExt (e.p1 0) (e.p8 4)).2 ∧ s.dev.OnlyCompletes [R.DIR_XPROBE] d n hseq))
      ∧ ((s.dev.lookupExt (e.p1 0) (e.p8 4)).1 = none → Completes (.dirFind n hseq) s (fun d =>
        s.dev.Completed d n hseq 0x11 (beBytes 4 0 ++ beBytes 1 (s.dev.lookupExt (e.p1 0) (e.p8 4)).2) ∧ s.dev.OnlyCompletes [R.DIR_XPROBE] d n hseq)))
    ∧ (∀ (g : Fin 4) (k : Nat), s.dev.cmdFor n hseq 0x0510 = some e → e.p1 0 = g → e.p3 1 = 0 → e.zeroFrom 8 = true → s.dev.enabled (0x24 + g) = true → e.p4 4 < 2 ^ 23 →
      s.dev.fwdFind g (e.p4 4) = some k → Completes (.fwdFlush n hseq) s (fun d => s.dev.Completed d n hseq 0 (beBytes 4 1)
        ∧ d.fwdValid g k = false ∧ d.get (F.FWD_COUNT_ENTRIES g) = s.dev.get (F.FWD_COUNT_ENTRIES g) - 1
        ∧ (∀ a, a ≠ fwdAddr g k → a ≠ fwdAddr g k + 1 → d.mem a = s.dev.mem a)
        ∧ Dev.OnlyCompletes [R.FWD_COUNT g] { s.dev with tab := { s.dev.tab with mem := d.tab.mem, writeBack := d.tab.writeBack } } d n hseq))

/-! ### Control lanes (06) -/

/-- A live lane is dropped with a cause (R182, R183, R187): it is struck, and quarantined, or retired at STRIKE_LIMIT. The frame is that of a
drop after which the device stays in RUN. -/
def laneDropped (d d' : Dev) (i : Fin 4) (cause : Nat) : Prop :=
  d'.strikesOf i = min (d.strikesOf i + 1) (F.LANE_HIST_STRIKES i).top ∧ d'.get (F.LANE_HIST_LAST_CAUSE i) = cause
  ∧ d'.role i = (if d.get F.LANE_CFG_STRIKE_LIMIT ≤ d'.strikesOf i then 5 else 4) ∧ d'.is (H.rawBit 0x04 1) = true
  ∧ d'.tempo = d.tempo ∧ d'.cfg = d.cfg
  ∧ (d.is F.LANE_CFG_SIMPLEX_IDLE = false → d'.tab = d.tab ∧ d'.ra = d.ra ∧ d'.ks = d.ks ∧ d'.pw = d.pw)

/-- The control lanes (R174 to R189): agreeing lanes issue their output, which the stage holds, and the oldest granted command of a port
passes stage TX; where the voter's halves differ the choice of half 0 among the live lanes is issued and no lane is dropped; a lane that disagrees, at the mark
by its signature (R181), or whose SRAM fails, is struck and quarantined or retired with its cause; a test's end parks or retires it; an admission copies the source's SRAM and then
makes the lane LIVE; a dry admission runs in lockstep after its copy, and ends parked or suspect. -/
def Obligations.LanesAct : Prop :=
  ∀ s : State, s.Inv →
    (∀ (stage : Fin 5) (port : Fin 32) (outs : List (Option Nat)), s.dev.lanesRun = true → s.dev.paused = false → s.dev.ln.dry = none →
      (∀ x, stage ≠ 0 → (s.dev.ballot outs).dropped = [] → (s.dev.ballot outs).passed = some x → Completes (.vote stage port outs none) s (fun d =>
          d = { s.dev with ln := { s.dev.ln with issued := setAt s.dev.ln.issued stage (some x) }, out := .voted stage x :: s.dev.out }))
      ∧ (∀ x t, s.dev.noGrants = false → s.dev.ra.txs.find? (fun t => t.port == port.val && t.stage == .granted) = some t →
          (s.dev.ballot outs).dropped = [] → (s.dev.ballot outs).passed = some x → Completes (.vote 0 port outs none) s (fun d =>
          d = { s.dev with
            ra := { s.dev.ra with txs := s.dev.ra.txs.map (fun y => if y.id = t.id then { y with stage := .voted } else y) }
            ln := { s.dev.ln with issued := setAt s.dev.ln.issued 0 (some x) }, out := .voted 0 x :: s.dev.out }))
      ∧ (∀ i : Fin 4, stage ≠ 0 → (s.dev.ballot outs).dropped = [i.val] → Completes (.vote stage port outs none) s (fun d =>
          laneDropped s.dev d i (s.dev.ballot outs).cause
          ∧ d.get F.LANE_DISAGREE_COUNT = min (s.dev.get F.LANE_DISAGREE_COUNT + 1) F.LANE_DISAGREE_COUNT.top ∧ d.get F.LANE_DISAGREE_LAST_LANES = 2 ^ i.val
          ∧ d.is (H.rawBit 0x04 0) = true
          ∧ (∀ x, (s.dev.ballot outs).passed = some x → d.ln.issued = setAt s.dev.ln.issued stage (some x))))
      ∧ (∀ i : Fin 4, 2 ≤ s.dev.live.length → s.dev.role i ≠ 0 → Completes (.vote stage port outs (some i)) s (fun d =>
          d.out = s.dev.out ∧ d.ln = s.dev.ln ∧ d.live = s.dev.live))
      ∧ (∀ (i : Fin 4) (x : Nat), 2 ≤ s.dev.live.length → s.dev.role i = 0 → outOf outs i = some x → stage ≠ 0 → Completes (.vote stage port outs (some i)) s (fun d =>
          d.get F.LANE_DISAGREE_LAST_KIND = 4 ∧ d.is (H.rawBit 0x04 0) = true ∧ d.live = s.dev.live
          ∧ Dev.OnlyRegs [R.LANE_DISAGREE, H.irqRaw 0x04]
              { s.dev with ln := { s.dev.ln with issued := setAt s.dev.ln.issued stage (some x) }, out := .voted stage x :: s.dev.out } d)))
    ∧ (∀ (outs : List (Option (BitVec 36))) (ce : List Nat) (b : Ballot), b = s.dev.ballot (outs.map (fun o => o.map (fun x => x.toNat))) →
      s.dev.lanesRun = true → s.dev.awake = true → s.dev.ln.lateMark = false → s.dev.ln.marked = false → s.dev.ln.dry = none → s.dev.cycle < 100000 →
      (b.dropped = [] → Completes (.endOfTempoMark ⟨outs, ce⟩ none) s (fun d => d.get F.LANE_EXEC_MARK = s.dev.cycle
        ∧ d.get F.LANE_EXEC_PEAK_PEAK = max (s.dev.get F.LANE_EXEC_PEAK_PEAK) s.dev.cycle
        ∧ (∀ i : Fin 4, d.get (F.LANE_HIST_CE i) = min (s.dev.get (F.LANE_HIST_CE i) + ce.getD i 0) (F.LANE_HIST_CE i).top
            ∧ d.strikesOf i = s.dev.strikesOf i)
        ∧ Dev.OnlyRegs (R.LANE_EXEC :: R.LANE_EXEC_PEAK :: (List.range 4).map R.LANE_HIST)
            { s.dev with ln := { s.dev.ln with marked := true, sigs := outs }, fw := { s.dev.fw with promote := d.fw.promote } } d))
      ∧ (∀ i : Fin 4, s.dev.paused = false → b.dropped = [i.val] → Completes (.endOfTempoMark ⟨outs, ce⟩ none) s (fun d =>
          laneDropped s.dev d i 2 ∧ d.ln.marked = true ∧ d.ln.sigs = outs)))
    ∧ (∀ i : Fin 4, s.dev.lanesUp = true → s.dev.paused = false → s.dev.ln.dry = none →
      (s.dev.role i = 0 → Completes (.sramUe i) s (fun d => laneDropped s.dev d i 3))
      ∧ (∀ pass, s.dev.role i = 4 → s.dev.ln.quarEnd.getD i 0 ≤ s.dev.tempo → s.dev.is F.LANE_CFG_AUTO_ADMIT = false → Completes (.quarantineEnd i pass) s (fun d =>
        d.role i = (if pass then 1 else 5) ∧ (∀ j : Fin 4, j ≠ i → d.role j = s.dev.role j) ∧ s.dev.OnlyRegs [R.LANE_ROLES, R.LANE_CLAIM i] d)))
    ∧ (∀ (v : BitVec 32) (i : Nat), s.dev.accepts R.LANE_ADMIT (rowWord v 1 0) → s.dev.admitChoice = some i → s.dev.live ≠ [] → Completes (.admitReq v) s (fun d =>
        d.role i = 2 ∧ d.live = s.dev.live ∧ d.ln.copied = false ∧ (∃ src ∈ s.dev.live, d.ln.copy = some (i, src))
        ∧ Dev.OnlyRegs [R.LANE_ADMIT, R.LANE_ROLES, R.LANE_CLAIM i, H.seq 0x04] { s.dev with ln := { s.dev.ln with copy := d.ln.copy, copied := false } } d))
    ∧ (∀ (i src : Fin 4) m, s.dev.lanesUp = true → s.dev.ln.copy = some (i.val, src.val) → s.dev.ln.mem[src.val]? = some m → Completes .admissionCopyDone s (fun d =>
        d = { s.dev with ln := { s.dev.ln with copied := true, mem := setAt s.dev.ln.mem i m } }))
    ∧ (∀ (i : Fin 4) (src : Nat), s.dev.lanesUp = true → s.dev.ln.copy = some (i.val, src) → s.dev.ln.copied = true →
      (s.dev.paused = false → s.dev.ln.dry = none → s.dev.is F.LANE_CFG_AUTO_ADMIT = false → Completes .admissionComplete s (fun d => d.role i = 0
        ∧ (∀ j : Fin 4, j ≠ i → d.role j = s.dev.role j) ∧ d.is (H.rawBit 0x04 2) = true
        ∧ Dev.OnlyRegs [R.LANE_ROLES, R.LANE_CLAIM i, H.irqRaw 0x04] { s.dev with ln := { s.dev.ln with copy := none, copied := false } } d))
      ∧ (s.dev.ln.dry = some i.val → s.dev.ln.dryJoin = false → Completes .admissionComplete s (fun d =>
        d = { s.dev with ln := { s.dev.ln with copy := none, copied := false, shadow := true } })))
    ∧ (∀ v : BitVec 32, s.dev.accepts R.LANE_DRY_CTRL (rowWord v (2 ^ 31) (2 ^ 30)) → Completes (.dryStart v) s (fun d =>
        d.role (bits v.toNat 25 24) = 3 ∧ d.ln.dry = some (bits v.toNat 25 24) ∧ d.ln.dryPrev = s.dev.role (bits v.toNat 25 24) ∧ d.ln.shadow = false
        ∧ d.get F.LANE_DRY_LEFT_TEMPOS = bits v.toNat 23 0 ∧ d.get F.LANE_DRY_RESULT_STATE = 1 ∧ d.get F.LANE_DRY_RESULT_MISMATCH = 0
        ∧ d = { s.dev with regs := d.regs, ln := d.ln }
        ∧ s.dev.regsKept [R.LANE_DRY_CTRL, R.LANE_ROLES, R.LANE_CLAIM (bits v.toNat 25 24), R.LANE_DRY_RESULT, R.LANE_DRY_LEFT, H.seq 0x04] d))
    ∧ (∀ v : BitVec 32, s.dev.accepts R.LANE_DRY_CTRL (rowWord v (2 ^ 30) (2 ^ 31)) → Completes (.dryAbort v) s (fun d =>
        Dev.OnlyRegs [R.LANE_DRY_CTRL, H.seq 0x04] { s.dev with ln := { s.dev.ln with dryAbort := true } } d))
    ∧ (∀ i : Fin 4, s.dev.awake = true → s.dev.paused = false → s.dev.ln.dry = some i.val → s.dev.ln.shadow = true → s.dev.ln.dryJoin = false →
      s.dev.get F.LANE_DRY_LEFT_TEMPOS = 0 → Completes .dryEnd s (fun d =>
        d.role i = (if 0 < s.dev.get F.LANE_DRY_RESULT_MISMATCH then 6 else 1) ∧ d.get F.LANE_DRY_RESULT_STATE = (if 0 < s.dev.get F.LANE_DRY_RESULT_MISMATCH then 3 else 2)
        ∧ (∀ j : Fin 4, j ≠ i → d.role j = s.dev.role j) ∧ d.ln.dry = none ∧ d.is (H.rawBit 0x04 3) = true
        ∧ Dev.OnlyRegs [R.LANE_ROLES, R.LANE_CLAIM i, R.LANE_DRY_RESULT, R.LANE_DRY_LEFT, H.irqRaw 0x04]
            { s.dev with ln := { s.dev.ln with dry := none, shadow := false, dryAbort := false, dryJoin := false } } d))

/-! ### Staged tables (09 to 12) -/

/-- Listen entries, receive ring pointers, filter and mask sets, profiles, PAN descriptors and PAN_SEC (R8, R265, R266, R270, R288, R289, R328,
R354): a select loads the staging words from the entry in force, COMMIT holds them for the next boundary, LOAD loads them again; SET_DATA writes
and reads the word at INDEX, which advances under AUTO_INC; a BASE write clears PROD and CONS; PROF_DATA awaits its boundary; PAN_SEC takes
effect at once. Nothing else changes but SEQ. -/
def Obligations.StagedTablesAct : Prop :=
  ∀ (s : State) (v : BitVec 32), s.Inv →
    (s.dev.accepts R.RXP_LSEL (rowWord v 0 0) → Completes (.lselWrite v) s (fun d =>
      d.get F.RXP_LSEL_GROUP = bits v.toNat 5 4 ∧ d.get F.RXP_LSEL_ENTRY = bits v.toNat 3 0
      ∧ (∀ k : Fin 7, d.rd (R.RXP_LDATA k) = s.dev.leWord (bits v.toNat 5 4) (bits v.toNat 3 0) k)
      ∧ s.dev.OnlyRegs (R.RXP_LSEL :: H.seq 0x15 :: (List.range 7).map R.RXP_LDATA) d))
    ∧ (s.dev.accepts R.RXP_LCTRL (rowWord v 1 0) → Completes (.listenCommit v) s (fun d =>
      d.rx.pending = some (s.dev.get F.RXP_LSEL_GROUP, s.dev.get F.RXP_LSEL_ENTRY, (List.range 7).map (fun k => s.dev.rd (R.RXP_LDATA k)))
      ∧ Dev.OnlyRegs (H.seq 0x15 :: if v.getLsbD 1 then (List.range 7).map R.RXP_LDATA else []) { s.dev with rx := { s.dev.rx with pending := d.rx.pending } } d))
    ∧ (s.dev.accepts R.RXP_LCTRL (rowWord v 2 0) → Completes (.listenLoad v) s (fun d =>
      (∀ k : Fin 7, d.rd (R.RXP_LDATA k) = s.dev.leWord (s.dev.get F.RXP_LSEL_GROUP) (s.dev.get F.RXP_LSEL_ENTRY) k)
      ∧ (v.getLsbD 0 = false → d.rx.pending = s.dev.rx.pending)
      ∧ Dev.OnlyRegs (H.seq 0x15 :: (List.range 7).map R.RXP_LDATA) { s.dev with rx := { s.dev.rx with pending := d.rx.pending } } d))
    ∧ (∀ n : Fin 4,
      (s.dev.accepts (R.RXP_RXR_CONS n) (rowWord v 0 0) → Completes (.rxrConsWrite n v) s (fun d =>
        d.get (F.RXP_RXR_CONS_COUNT n) = v.toNat % 65536 ∧ s.dev.OnlyRegs [R.RXP_RXR_CONS n, H.seq 0x15] d))
      ∧ (s.dev.accepts (R.RXP_RXR_BASE_HI n) (rowWord v 0 0) → Completes (.rxrBaseWrite n v) s (fun d =>
        d.rd (R.RXP_RXR_BASE_LO n) = s.dev.stagedLo (R.RXP_RXR_BASE_LO n) % 2 ^ 32 ∧ d.rd (R.RXP_RXR_BASE_HI n) = v.toNat
        ∧ d.get (F.RXP_RXR_PROD_COUNT n) = 0 ∧ d.get (F.RXP_RXR_CONS_COUNT n) = 0
        ∧ Dev.OnlyRegs [R.RXP_RXR_BASE_LO n, R.RXP_RXR_BASE_HI n, R.RXP_RXR_PROD n, R.RXP_RXR_CONS n, H.seq 0x15]
            { s.dev with staged := s.dev.staged.filter (fun x => x.1 != R.RXP_RXR_BASE_LO n) } d)))
    ∧ (s.dev.accepts R.TXP_SET_SEL (rowWord v 0 0) → Completes (.setSelWrite v) s (fun d =>
      d.setSel = (bits v.toNat 28 28, bits v.toNat 25 24, bits v.toNat 18 16) ∧ d.get F.TXP_SET_SEL_INDEX = bits v.toNat 5 0 ∧ d.is F.TXP_SET_SEL_AUTO_INC = v.getLsbD 30
      ∧ d.ra.staging = (if d.setSel = s.dev.setSel then s.dev.ra.staging else
          (List.range (setLen (bits v.toNat 28 28))).map (fun i => s.dev.rd (setKey (bits v.toNat 28 28) (bits v.toNat 25 24) (bits v.toNat 18 16) i)))
      ∧ Dev.OnlyRegs [R.TXP_SET_SEL, H.seq 0x16] { s.dev with ra := { s.dev.ra with staging := d.ra.staging } } d))
    ∧ (s.dev.accepts R.TXP_SET_DATA (rowWord v 0 0) → Completes (.setDataAccess true v) s (fun d =>
      (∀ j, j < setLen s.dev.setSel.1 → d.ra.staging.getD j 0 = if j = s.dev.get F.TXP_SET_SEL_INDEX then v.toNat else s.dev.ra.staging.getD j 0)
      ∧ d.get F.TXP_SET_SEL_INDEX = (if s.dev.is F.TXP_SET_SEL_AUTO_INC then (s.dev.get F.TXP_SET_SEL_INDEX + 1) % setLen s.dev.setSel.1 else s.dev.get F.TXP_SET_SEL_INDEX)
      ∧ d.setSel = s.dev.setSel ∧ Dev.OnlyRegs [R.TXP_SET_SEL, H.seq 0x16] { s.dev with ra := { s.dev.ra with staging := d.ra.staging } } d))
    ∧ (s.dev.hostOpen = true → s.dev.paused = false → Completes (.setDataAccess false v) s (fun d =>
      d.get F.TXP_SET_SEL_INDEX = (if s.dev.is F.TXP_SET_SEL_AUTO_INC then (s.dev.get F.TXP_SET_SEL_INDEX + 1) % setLen s.dev.setSel.1 else s.dev.get F.TXP_SET_SEL_INDEX)
      ∧ d.setSel = s.dev.setSel ∧ Dev.OnlyRegs [R.TXP_SET_SEL] { s.dev with out := .regRead R.TXP_SET_DATA (s.dev.setWord % 2 ^ 32) :: s.dev.out } d))
    ∧ (s.dev.accepts R.TXP_SET_CTRL (rowWord v 1 0) → Completes (.setCommit v) s (fun d =>
      d.ra.setPending = some (setKey s.dev.setSel.1 s.dev.setSel.2.1 s.dev.setSel.2.2 0, (List.range (setLen s.dev.setSel.1)).map (fun i => s.dev.ra.staging.getD i 0))
      ∧ (v.getLsbD 1 = false → d.ra.staging = s.dev.ra.staging)
      ∧ Dev.OnlyRegs [H.seq 0x16] { s.dev with ra := { s.dev.ra with setPending := d.ra.setPending, staging := d.ra.staging } } d))
    ∧ (s.dev.accepts R.TXP_SET_CTRL (rowWord v 2 0) → Completes (.setLoad v) s (fun d =>
      d.ra.staging = (List.range (setLen s.dev.setSel.1)).map (fun i => s.dev.rd (setKey s.dev.setSel.1 s.dev.setSel.2.1 s.dev.setSel.2.2 i))
      ∧ (v.getLsbD 0 = false → d.ra.setPending = s.dev.ra.setPending)
      ∧ Dev.OnlyRegs [H.seq 0x16] { s.dev with ra := { s.dev.ra with setPending := d.ra.setPending, staging := d.ra.staging } } d))
    ∧ (∀ k, k = profKey (s.dev.get F.TXP_PROF_SEL_GROUP) (s.dev.get F.TXP_PROF_SEL_PHY) → s.dev.accepts R.TXP_PROF_DATA (rowWord v 0 0) →
      Completes (.profDataWrite v) s (fun d => (k, v.toNat) ∈ d.ra.profPending ∧ (∀ w, (k, w) ∈ d.ra.profPending → w = v.toNat)
        ∧ (∀ x, x.1 ≠ k → (x ∈ d.ra.profPending ↔ x ∈ s.dev.ra.profPending)) ∧ d.cfgRd k = v.toNat ∧ (∀ k', k' ≠ k → d.cfgRd k' = s.dev.cfgRd k')
        ∧ Dev.OnlyRegs [H.seq 0x16] { s.dev with cfg := d.cfg, ra := { s.dev.ra with profPending := d.ra.profPending } } d))
    ∧ (∀ g : Fin 4,
      (s.dev.accepts (R.MAC_PAN_SEL g) (rowWord v 0 0) → Completes (.panSelWrite g v) s (fun d =>
        d.get (F.MAC_PAN_SEL_PAN g) = v.toNat % 128 ∧ (∀ k : Fin 9, d.rd (R.MAC_PAN_DATA g k) = s.dev.panWord (v.toNat % 128) k)
        ∧ s.dev.OnlyRegs (R.MAC_PAN_SEL g :: H.seq (0x18 + g) :: (List.range 9).map (R.MAC_PAN_DATA g)) d))
      ∧ (g < s.dev.ra.panPending.length → s.dev.accepts (R.MAC_PAN_CTRL g) (rowWord v 1 0) → Completes (.panCommit g v) s (fun d =>
        d.ra.panPending.getD g none = some (s.dev.get (F.MAC_PAN_SEL_PAN g), (List.range 9).map (fun k => s.dev.rd (R.MAC_PAN_DATA g k)))
        ∧ (∀ h, h ≠ g.val → d.ra.panPending.getD h none = s.dev.ra.panPending.getD h none)
        ∧ Dev.OnlyRegs (H.seq (0x18 + g) :: if v.getLsbD 1 then (List.range 9).map (R.MAC_PAN_DATA g) else [])
            { s.dev with ra := { s.dev.ra with panPending := d.ra.panPending } } d))
      ∧ (s.dev.accepts (R.MAC_PAN_CTRL g) (rowWord v 2 0) → Completes (.panLoad g v) s (fun d =>
        (∀ k : Fin 9, d.rd (R.MAC_PAN_DATA g k) = s.dev.panWord (s.dev.get (F.MAC_PAN_SEL_PAN g)) k)
        ∧ (v.getLsbD 0 = false → d.ra.panPending = s.dev.ra.panPending)
        ∧ Dev.OnlyRegs (H.seq (0x18 + g) :: (List.range 9).map (R.MAC_PAN_DATA g)) { s.dev with ra := { s.dev.ra with panPending := d.ra.panPending } } d)))
    ∧ (∀ p : Fin 128, s.dev.accepts (R.SEC_PAN_SEC p) (rowWord v 0 0) → Completes (.panSecWrite p v) s (fun d =>
      d.is (F.SEC_PAN_SEC_GROUP_EN p) = v.getLsbD 31 ∧ d.get (F.SEC_PAN_SEC_GROUP_KEY p) = bits v.toNat 27 16 ∧ d.get (F.SEC_PAN_SEC_BCAST_LEVEL p) = bits v.toNat 14 12
      ∧ d.get (F.SEC_PAN_SEC_DATA_LEVEL p) = bits v.toNat 10 8 ∧ d.get (F.SEC_PAN_SEC_MIN_LEVEL p) = bits v.toNat 6 4
      ∧ d.is (F.SEC_PAN_SEC_JOIN_SECURED p) = v.getLsbD 0 ∧ (∀ k, k ≠ R.SEC_PAN_SEC p → d.cfgRd k = s.dev.cfgRd k)
      ∧ Dev.OnlyRegs [R.SEC_PAN_SEC p, H.seq 0x0F] { s.dev with cfg := d.cfg } d))

/-! ### The radio front end and the transmit slot (07, 10) -/

/-- No frame that gave way on the frame's port waits to return to its slot (R200). -/
def noneDisplaced (d : Dev) (t : Tx) : Prop := ∀ u ∈ d.ra.txs, u.port = t.port → u.stage ≠ .displaced

/-- A TX_RAW transmission on its way, with the command of ring n that it completes; no displaced frame waits for its port. -/
def rawTx (d : Dev) (t : Tx) (n hseq : Nat) : Prop :=
  d.tx t.id = some t ∧ t.src = .ring n hseq ∧ t.kind = .raw ∧ t.sent = false ∧ (d.cmdOf n hseq).isSome = true
  ∧ noneDisplaced d t

/-- The transmission's command has completed with this code and RESULT; the stores and engines outside the radio, the rings and the buffer
counts are as they were. -/
def txOver (d d' : Dev) (t : Tx) (n hseq code : Nat) (result : List Byte) : Prop :=
  d.Completed d' n hseq code result
  ∧ d'.cfg = d.cfg ∧ d'.ks = d.ks ∧ d'.tab.mem = d.tab.mem ∧ d'.fw = d.fw ∧ d'.bh = d.bh ∧ d'.rx.rings = d.rx.rings
  ∧ d'.tempo = d.tempo ∧ d'.systime = d.systime ∧ d'.pw = d.pw

/-- The command has completed, and the transmission has left the path. -/
def txEnded (d d' : Dev) (t : Tx) (n hseq code : Nat) (result : List Byte) : Prop :=
  d'.tx t.id = none ∧ txOver d d' t n hseq code result

/-- The command has completed, and the ramp-down has begun: until its end the port keeps the slot, and the load stays counted (R206, R287). -/
def txStopped (d d' : Dev) (t : Tx) (n hseq code : Nat) (result : List Byte) : Prop :=
  (∃ u, d'.tx t.id = some u ∧ u.stage = .rampDown ∧ u.src = .none ∧ u.port = t.port ∧ u.load = t.load ∧ u.counted = t.counted)
  ∧ txOver d d' t n hseq code result

/-- What step 5 finds for a frame that needs no securing and passes every check: its slot k and channel ch of generation n in force, the
power-table entry i with its clamp, its occupancy parts, and room in the budget (R204 to R206, R216). -/
def passesStep5 (d : Dev) (t : Tx) (n k ch i : Nat) (cl : Bool) (parts : List (Nat × Nat)) : Prop :=
  d.enabled 0x16 = true ∧ (d.securing t).2.2 = 0 ∧ d.tx t.id = some t ∧ (∀ x ∈ d.ra.txs, x.id = t.id → x = t) ∧ t.counted = false
  ∧ d.ra.vault.inForce = some n ∧ d.slotFor t.group t.freq = some k ∧ (d.slotRec n k).channel t.freq = some ch ∧ (d.slotRec n k).enabled = true
  ∧ (d.slotRec n k).fits t.freq (phyBandwidth t.phy) = true ∧ d.powerStep t (d.slotRec n k) = some (i, cl)
  ∧ ((d.slotRec n k).dwellMax = 0 ∨ t.airtime ≤ (d.slotRec n k).dwellMax)
  ∧ d.occCheck (d.slotRec n k) k ch (d.planUs t) t.airtime t.id = (true, parts)
  ∧ d.is F.CLK_STAT_TX_HELD = false ∧ d.rfLoad + loadMw (ptOut (d.ptWord t.port i)) ≤ d.get F.VAULT_RF_LIMIT_LIMIT_MW

/-- The frame is granted with what step 5 found, its load counted (R205, R206). -/
def grantedAs (d d' : Dev) (t : Tx) (n k ch i : Nat) (cl : Bool) (parts : List (Nat × Nat)) : Prop :=
  (∃ u, d'.tx t.id = some u ∧ u.stage = .granted ∧ u.counted = true ∧ u.index = some i ∧ u.clamped = cl ∧ u.occRes = parts
    ∧ u.load = loadMw (ptOut (d.ptWord t.port i)) ∧ u.vslot = k ∧ u.vchan = ch ∧ u.vgen = n ∧ u.src = t.src)
  ∧ (∀ j, j ≠ t.id → d'.tx j = d.tx j)
  ∧ Dev.OnlyRegs [R.VAULT_HELD, R.VAULT_RF_LOAD] { d with ra := { d.ra with txs := d'.ra.txs }, tab := { d.tab with telemRf := d'.tab.telemRf } } d'

/-- Stage TX issues a command that the live lanes present alike, for a fixed-instant frame or a swap (R174, R177); its bits are a free value
(log entry 103). -/
def issuedTx (d : Dev) (x : Nat) : Dev :=
  { d with freeCtr := d.freeCtr + 1, ln := { d.ln with issued := setAt d.ln.issued 0 (some x) }, out := .voted 0 x :: d.out }

/-- The lanes run, and one at least is live, so that a command presented alike passes stage TX. -/
def lanesVote (d : Dev) : Prop := d.lanesRun = true ∧ d.live ≠ [] ∧ ∀ i, d.ln.dry = some i → i < 4

/-- A port's way through the air (R197 to R202, R206, R209, R213, R278 to R286): PORT_EN puts a port into service with its chain in STBY;
locks lead a chain in RUN to SYNTH and RX; a voted command takes the free slot with its chain tuned, fills the delay line under the profile,
filter and mask then in force, is released on its channel when due, and completes at the end of its ramp-down; a lost lock, a PA stop, a run
of windows that violate the mask, or a lost coexistence grant stops it with its cause; a held load is granted once RF_LIMIT leaves room;
BLANK_g blanks its group. -/
def Obligations.RadioPortsAct : Prop :=
  ∀ s : State, s.Inv →
    (∀ (g : Fin 4) (k : Fin 8) (v : BitVec 32), s.dev.enabled (0x10 + g) = true → s.dev.accepts (R.RFG_PORT_EN g) (rowWord v 0 0) →
      (∀ j : Fin 8, bit (s.dev.get (F.RFG_PORT_EN_EN g)) j = true → v.getLsbD j = true) → (g = 2 → v.getLsbD 16 = true ∧ v.getLsbD 17 = true) →
      Completes (.portServiceChange g false v) s (fun d => d.inService (8 * g + k) = v.getLsbD k
        ∧ (s.dev.inService (8 * g + k) = false → v.getLsbD k = true → s.dev.chainOf (8 * g + k) = k → s.dev.chainState g k ≠ 5 →
            d.chainState g k = 1 ∧ d.txLocked g k = false ∧ bit (d.rd (R.RFG_LOCK g)) (16 + k) = false)
        ∧ (s.dev.inService (8 * g + k) = v.getLsbD k → d.chainState g k = s.dev.chainState g k ∧ d.txLocked g k = s.dev.txLocked g k)
        ∧ Dev.OnlyRegs [R.RFG_PORT_EN g, R.RFG_CHAIN_STATE g, R.RFG_LOCK g, H.seq (0x10 + g)] { s.dev with cfg := d.cfg } d))
    ∧ (∀ (k : Fin 36) (g c : Nat), g = chainGroup k → c = chainInGroup k →
      (∀ rx tx : Bool, Completes (.chainLock ⟨k, rx, tx⟩) s (fun d => d.txLocked g c = (s.dev.txLocked g c || tx)
        ∧ bit (d.rd (R.RFG_LOCK g)) (16 + c) = (bit (s.dev.rd (R.RFG_LOCK g)) (16 + c) || rx)
        ∧ d.chainState g c = (if s.dev.pw.phase ≠ .run ∨ s.dev.onDuty g c = false then s.dev.chainState g c
            else if s.dev.chainState g c = 1 then 2
            else if s.dev.chainState g c = 2 ∧ bit (d.rd (R.RFG_LOCK g)) (16 + c) = true then 3 else s.dev.chainState g c)
        ∧ (∀ j, j < 9 → j ≠ c → d.chainState g j = s.dev.chainState g j ∧ d.txLocked g j = s.dev.txLocked g j)
        ∧ s.dev.OnlyRegs [R.RFG_CHAIN_STATE g, R.RFG_LOCK g] d))
      ∧ (s.dev.paused = false → Completes (.lockFail k) s (fun d => d.is (H.rawBit (0x10 + g) 0) = true ∧ s.dev.OnlyRegs [H.irqRaw (0x10 + g)] d))
      ∧ (s.dev.paused = false → k < 32 → Completes (.rxLoUnlock k) s (fun d => d.is (H.rawBit (0x10 + g) 0) = true
        ∧ bit (d.rd (R.RFG_LOCK g)) (16 + c) = false ∧ d.txLocked g c = s.dev.txLocked g c
        ∧ d.rx.ctxs = (if s.dev.onDuty g c then (s.dev.markLost (s.dev.portOfChain g c)).rx.ctxs else s.dev.rx.ctxs)
        ∧ Dev.OnlyRegs [R.RFG_LOCK g, H.irqRaw (0x10 + g)] { s.dev with rx := { s.dev.rx with ctxs := d.rx.ctxs } } d)))
    ∧ (∀ (p : Fin 32) (t : Tx) (g k : Nat), g = portGroup p → k = deviceChain g (s.dev.chainOf p) → s.dev.paused = false → s.dev.slotTx p = none →
      s.dev.ra.txs.find? (fun t => t.port == p.val && t.stage == .voted) = some t → s.dev.tx t.id = some t → s.dev.ra.synth.length = 36 →
      (s.dev.inService p = true → s.dev.portLost p = false → s.dev.rangeOn g t.freq = true → bit (s.dev.get (F.RFG_PORT_FAULT_PA g)) (portSector p) = false →
        Completes (.slotCommand p) s (fun d => (∃ u, d.tx t.id = some u ∧ u.stage = .slot ∧ u.chain = k ∧ u.filling = t.filling ∧ u.src = t.src ∧ u.freq = t.freq
            ∧ u.planned = s.dev.planUs t)
          ∧ (d.slotTx p).isSome = true ∧ d.synthAt k = t.freq
          ∧ (s.dev.synthAt k ≠ t.freq → d.txLocked g (s.dev.chainOf p) = false)
          ∧ (s.dev.synthAt k = t.freq → d.rd (R.RFG_LOCK g) = s.dev.rd (R.RFG_LOCK g))
          ∧ Dev.OnlyRegs [R.RFG_LOCK g, R.RFG_TX_CNT g] { s.dev with ra := { s.dev.ra with txs := d.ra.txs, synth := d.ra.synth } } d))
      ∧ (∀ (n : Fin 8) (hseq : Nat), rawTx s.dev t n hseq → s.dev.inService p = false → Completes (.slotCommand p) s (fun d =>
          txEnded s.dev d t n hseq 0x03 (txResult 5 t.index none 0 0))))
    ∧ (∀ (p : Fin 32) (t : Tx), s.dev.slotTx p = some t → t.stage = .slot → t.filling = false → t.planned ≤ s.dev.monoUs + phyDelayLine t.phy →
      s.dev.tx t.id = some t →
      Completes (.delayLineFill p) s (fun d => (∃ u, d.tx t.id = some u ∧ u.stage = .slot ∧ u.filling = true ∧ u.src = t.src
          ∧ u.planned = max t.planned (s.dev.monoUs + phyDelayLine t.phy)
          ∧ u.profile = some (s.dev.profile t.group t.phy)
          ∧ u.airtime = airtimeUs t.phy t.opts t.preamble (s.dev.txPsdu t) (profRamp (s.dev.profile t.group t.phy))
          ∧ u.mask = (if bits (s.dev.profile t.group t.phy) 7 4 = 0xF then builtinMask t.phy
              else (List.range 16).map (fun i => s.dev.rd (setKey 1 t.group (bits (s.dev.profile t.group t.phy) 7 4) i)))
          ∧ u.filter = (if bits (s.dev.profile t.group t.phy) 3 0 = 0xF then builtinFilter t.phy
              else (List.range 64).map (fun i => toSigned 18 (s.dev.rd (setKey 0 t.group (bits (s.dev.profile t.group t.phy) 3 0) i)))))
        ∧ (∀ i x, i ≠ t.id → s.dev.tx i = some x → x.port ≠ p → d.tx i = some x)
        ∧ d = { s.dev with ra := { s.dev.ra with txs := d.ra.txs } }))
    ∧ (∀ p : Fin 32, (∀ t, s.dev.slotTx p = some t → s.dev.fillDue t = false) →
      (s.dev.fixedUnfilled p = none → Completes (.delayLineFill p) s (fun d => d = s.dev))
      ∧ (∀ t, s.dev.fixedUnfilled p = some t → s.dev.tx t.id = some t → Completes (.delayLineFill p) s (fun d =>
          (∃ u, d.tx t.id = some u ∧ u.stage = .step5 ∧ u.filling = true ∧ u.planned = t.planned ∧ u.profile = some (s.dev.profile t.group t.phy))
          ∧ (∀ x ∈ d.ra.txs, x.port = t.port → x.id ≠ t.id → x.onPort = false → x.filling = false)
          ∧ d = { s.dev with ra := { s.dev.ra with txs := d.ra.txs } })))
    ∧ (∀ (p : Fin 32) (t : Tx) (power : List (Option Int)) (grant : Bool) (c : Nat), s.dev.slotTx p = some t → t.stage = .slot → t.filling = true → s.dev.tx t.id = some t →
      s.dev.paused = false → c = s.dev.chainOf p → s.dev.tunedFor t = true → t.due ≤ s.dev.sysNs + s.dev.turnaroundNs t →
      t.planned ≤ s.dev.monoUs + (s.dev.turnaroundNs t + 999) / 1000 →
      (s.dev.ra.vault.inForce = some t.vgen → (t.latest = 0 ∨ s.dev.sysNs + s.dev.turnaroundNs t ≤ t.latest) →
        (∀ r, s.dev.slotInForce t.vslot = some r → r.lbtEn = true → s.dev.airBusy t r power = false) → (grant = true ∨ s.dev.covered t = false) →
        Completes (.txRelease p power grant) s (fun d => (∃ u, d.tx t.id = some u ∧ u.stage = .onAir ∧ u.chain = deviceChain t.group c
            ∧ u.rampStart = s.dev.sysNs + s.dev.turnaroundNs t ∧ u.index = t.index ∧ u.src = t.src)
          ∧ d.chainState t.group c = 4 ∧ (d.onAirTx p).isSome = true
          ∧ d.get (F.TXP_ONAIR_COUNT t.group) = min (s.dev.get (F.TXP_ONAIR_COUNT t.group) + 1) (F.TXP_ONAIR_COUNT t.group).top
          ∧ d.out = .air p (deviceChain t.group c) t.freq (airBits t.phy t.opts t.preamble (s.dev.psduOctets t)) t.filter :: s.dev.out
          ∧ d.pins = { s.dev.pins with coexGrant := if s.dev.covered t then grant else s.dev.pins.coexGrant }
          ∧ Dev.OnlyRegs [R.RFG_CHAIN_STATE t.group, R.TXP_ONAIR t.group]
              { s.dev with ra := { s.dev.ra with txs := d.ra.txs }, rx := { s.dev.rx with ctxs := d.rx.ctxs }, out := d.out, pins := d.pins } d))
      ∧ (∀ (n : Fin 8) (hseq : Nat), rawTx s.dev t n hseq → t.latest ≠ 0 → t.latest < s.dev.sysNs + s.dev.turnaroundNs t →
        Completes (.txRelease p power grant) s (fun d => txEnded s.dev d t n hseq 0x0F (txResult 8 t.index none 0 0)))
      ∧ (∀ r, s.dev.ra.vault.inForce = some t.vgen → (t.latest = 0 ∨ s.dev.sysNs + s.dev.turnaroundNs t ≤ t.latest) → t.kind ≠ .ack → noneDisplaced s.dev t →
        s.dev.slotInForce t.vslot = some r → r.lbtEn = true → s.dev.airBusy t r power = true → t.nb + 1 ≤ s.dev.get (F.MAC_LBT_MAX_BACKOFFS t.group) →
        Completes (.txRelease p power grant) s (fun d => (∃ u, d.tx t.id = some u ∧ u.stage = .backoff ∧ u.nb = t.nb + 1 ∧ u.filling = true
            ∧ u.be = min (t.be + 1) (s.dev.get (F.MAC_LBT_MAX_BE t.group)))
          ∧ d.get (F.MAC_COUNT_LBT_BUSY t.group) = min (s.dev.get (F.MAC_COUNT_LBT_BUSY t.group) + 1) (F.MAC_COUNT_LBT_BUSY t.group).top
          ∧ d.pins = { s.dev.pins with coexGrant := if s.dev.covered t then grant else s.dev.pins.coexGrant }
          ∧ Dev.OnlyRegs [R.MAC_COUNT_LBT t.group] { s.dev with ra := { s.dev.ra with txs := d.ra.txs }, pins := d.pins } d)))
    ∧ (∀ (p : Fin 32) (t : Tx) (n : Fin 8) (hseq : Nat), s.dev.airTx p = some t → t.stage = .onAir → rawTx s.dev t n hseq → t.chain < 32 → s.dev.paused = false →
      Completes (.txEnd p) s (fun d => txEnded s.dev d t n hseq 0 (txResult 0 t.index (some t.chain) t.airtime t.rampStart)
        ∧ (s.dev.chainState t.group (chainInGroup t.chain) = 4 → s.dev.inService p = true → s.dev.pw.phase = .run →
            bit (s.dev.rd (R.RFG_LOCK t.group)) (16 + s.dev.chainOf p) = true → d.chainState t.group (chainInGroup t.chain) = 3)
        ∧ (t.vslot < s.dev.ra.dutyEnded.length → d.ra.dutyEnded.getD t.vslot 0 = s.dev.ra.dutyEnded.getD t.vslot 0 + t.airtime))
      ∧ (t.rampStart < s.dev.sysNs → Completes (.txUnlockAbort p) s (fun d => txStopped s.dev d t n hseq 0x03 (txResult 1 t.index (some t.chain) (s.dev.stoppedAir t) t.rampStart)
        ∧ d.is (H.rawBit (0x10 + t.group) 1) = true ∧ d.get F.TXP_ABORT_CAUSE = 1 ∧ d.get F.TXP_ABORT_PORT = p
        ∧ d.get (F.RFG_TX_CNT_ABORTS t.group) = min (s.dev.get (F.RFG_TX_CNT_ABORTS t.group) + 1) 65535))
      ∧ (t.rampStart < s.dev.sysNs → Completes (.paProtect p) s (fun d => txStopped s.dev d t n hseq 0x03 (txResult 2 t.index (some t.chain) (s.dev.stoppedAir t) t.rampStart)
        ∧ d.is (H.rawBit (0x10 + t.group) 2) = true ∧ d.get F.TXP_ABORT_CAUSE = 2 ∧ d.get F.TXP_ABORT_PORT = p
        ∧ bit (d.get (F.RFG_PORT_FAULT_PA t.group)) (portSector p) = true))
      ∧ (∀ (window k : Nat) (x : List (Int × Int)), s.dev.slotTx p = some t → t.filling = true → k = bits (t.profile.getD 0) 19 16 → 0 < k → k ≤ window + 1 →
          (runViolates t.mask x k = false → Completes (.maskViolation p window x) s (fun d => d = s.dev))
          ∧ (runViolates t.mask x k = true → bit (t.profile.getD 0) 20 = false → Completes (.maskViolation p window x) s (fun d =>
            txStopped s.dev d t n hseq 0x03 (if window = 0 then txResult 3 t.index none 0 0
              else txResult 3 t.index (some t.chain) (maskAirUs t.phy (profRamp (t.profile.getD 0)) (128 * window)) t.rampStart)
            ∧ d.is (H.rawBit 0x16 1) = true ∧ d.get F.TXP_ABORT_CAUSE = 3
            ∧ d.get F.TXP_ABORT_EXCESS = min (worstSegment t.mask (windowOf x (k - 1))).1 255
            ∧ d.get F.TXP_ABORT_SEGMENT = (worstSegment t.mask (windowOf x (k - 1))).2 % 16))
          ∧ (runViolates t.mask x k = true → bit (t.profile.getD 0) 20 = true → Completes (.maskViolation p window x) s (fun d =>
          d.get F.TXP_COUNT_MASK_OBSERVED = min (s.dev.get F.TXP_COUNT_MASK_OBSERVED + 1) 65535 ∧ d.get F.TXP_ABORT_PORT = p
          ∧ s.dev.OnlyRegs [R.TXP_COUNT, R.TXP_ABORT] d)))
      ∧ (s.dev.ra.txs.filter (fun t => t.stage == .onAir && s.dev.covered t) = [t] → s.dev.is F.COEX_CFG_ABORT_ON_LOSS = true → t.rampStart < s.dev.sysNs →
          Completes .coexGrantLoss s (fun d => d.pins.coexGrant = false ∧ txStopped s.dev d t n hseq 0x03 (txResult 4 t.index (some t.chain) (s.dev.stoppedAir t) t.rampStart)
          ∧ d.get F.COEX_COUNT_LOST = min (s.dev.get F.COEX_COUNT_LOST + 1) 65535 ∧ d.is (H.rawBit 0x0A 1) = true)))
    ∧ ((∀ t ∈ s.dev.ra.txs, t.stage = .onAir → s.dev.covered t = false) → Completes .coexGrantLoss s (fun d =>
        d = { s.dev with pins := { s.dev.pins with coexGrant := false } }))
    ∧ (∀ v : BitVec 32, s.dev.accepts R.VAULT_RF_LIMIT (rowWord v 0 0) → Completes (.rfLimitWrite v) s (fun d =>
        d.get F.VAULT_RF_LIMIT_LIMIT_MW = v.toNat
        ∧ (∀ t, s.dev.heldList .budgetHeld = [t] → s.dev.tx t.id = some t → s.dev.get F.VAULT_RF_LIMIT_LIMIT_MW < v.toNat → s.dev.rfLoad + t.load ≤ v.toNat →
            s.dev.is F.CLK_STAT_TX_HELD = false → s.dev.enabled 0x16 = true → d.tx t.id = some { t with counted := true, stage := .granted })
        ∧ (v.toNat ≤ s.dev.get F.VAULT_RF_LIMIT_LIMIT_MW → Dev.OnlyRegs [R.VAULT_RF_LIMIT, H.seq 0x0B] { s.dev with cfg := d.cfg } d)))
    ∧ (∀ (p : Fin 32) (t : Tx), s.dev.noGrants = false →
      s.dev.ra.txs.find? (fun t => t.port == p.val && t.stage == .step5 && t.kind != .ack && t.kind != .assocResp) = some t →
      (∀ (n : Fin 8) (hseq : Nat), s.dev.enabled 0x16 = true → rawTx s.dev t n hseq → s.dev.ra.vault.inForce = none → Completes (.step5Check p) s (fun d =>
        txEnded s.dev d t n hseq 0x0E (txResult 7 t.index none 0 0) ∧ d.get F.VAULT_REFUSE_LAST_CAUSE = 4))
      ∧ (∀ (n k ch i : Nat) (cl : Bool) (parts : List (Nat × Nat)), passesStep5 s.dev t n k ch i cl parts →
        Completes (.step5Check p) s (fun d => grantedAs s.dev d t n k ch i cl parts)))
    ∧ (∀ (g : Fin 4) (level : Bool), s.dev.awake = true → s.dev.paused = false → s.dev.ra.blankExt.length = 4 → s.dev.ra.blankTail.length = 4 →
      Completes (.blankPin g level) s (fun d => d.pins.blank.getLsbD g = level ∧ (∀ j : Fin 4, j ≠ g → d.pins.blank.getLsbD j = s.dev.pins.blank.getLsbD j)
        ∧ d.ra.blankExt.getD g false = (level && bit (s.dev.get F.COEX_BLANK_CFG_EN) g)
        ∧ (s.dev.ra.blankExt.getD g false = false → level = true → bit (s.dev.get F.COEX_BLANK_CFG_EN) g = true →
            d.is (H.rawBit (0x10 + g) 3) = true ∧ ∀ k : Fin 8, d.portBlanked (8 * g + k) = true)
        ∧ (s.dev.ra.blankExt.getD g false = true → level = false → d.ra.blankTail.getD g false = decide (0 < s.dev.get F.COEX_BLANK_CFG_EXT_US))
        ∧ d.ra.txs = s.dev.ra.txs ∧ d.tempo = s.dev.tempo ∧ d.tab = s.dev.tab ∧ d.ks = s.dev.ks ∧ d.cfg = s.dev.cfg)
      ∧ Completes (.blankExtExpiry g) s (fun d => d.ra.blankTail.getD g false = false ∧ (∀ j : Fin 4, j ≠ g → d.ra.blankTail.getD j false = s.dev.ra.blankTail.getD j false)
        ∧ d = { s.dev with ra := { s.dev.ra with blankTail := d.ra.blankTail } }))

/-! ### The regulatory vault, calibration and castling (07, 08) -/

/-- The vault (R216 to R220): a commit under the owner key begins the burn of the draft as the next generation, and is refused under any
other; the draft is reloaded from the generation in force; a frame held for occupancy is checked again in a later window. Calibration (R224,
R228, R232 to R242): a due chain starts, over the spare where its port is in service; the one step of a tempo counts down and stages what it
trimmed, and a step that fails twice faults its chain; a chain whose last step is done commits at the boundary; the swap moves the ball to the
spare and back at its swap point; the return tunes the chain as the spare was; a request names the chains it waits for. -/
def Obligations.VaultAndCalibrationAct : Prop :=
  ∀ s : State, s.Inv →
    (∀ (n : Fin 8) (hseq : Nat) (e : Entry), s.dev.cmdFor n hseq 0x0200 = some e →
      (s.dev.ks.owner = none → Completes (.vaultCommit n hseq) s (fun d => s.dev.Completed d n hseq 0x08 (s.dev.vaultResult none) ∧ s.dev.OnlyCompletes [] d n hseq))
      ∧ (∀ k, s.dev.ks.owner = some k → s.dev.ks.lock = false → s.dev.is F.PWR_FLAGS_VIN_LOW = false → s.dev.is F.PWR_FLAGS_VBAK_LOW = false →
        ((e.params.drop 1).take 15 ++ e.params.drop 32).all (fun b => b == 0) = true → s.dev.draftRange = none → s.dev.draftLoosens = none →
        s.dev.ra.vault.burn = none → s.dev.ra.vault.used < 8 → e.p1 0 = s.dev.ra.vault.used → Completes (.vaultCommit n hseq) s (fun d =>
          if aesCmac k ([0x51, 0x56, BitVec.ofNat 8 (e.p1 0), 0] ++ s.dev.draftBytes) = (e.params.drop 16).take 16 then
            (∃ b, d.ra.vault.burn = some b ∧ b.src = .ring n hseq ∧ b.gen = s.dev.ra.vault.used ∧ b.verified = false
              ∧ b.words = (List.range 512).map (fun i => (i, s.dev.rd (draftKey (i / 16) (i % 16)))))
            ∧ (d.cmdOf n hseq).isSome = true
            ∧ d = { s.dev with inflight := d.inflight, ra := { s.dev.ra with vault := { s.dev.ra.vault with burn := d.ra.vault.burn } } }
          else s.dev.Completed d n hseq 0x08 (s.dev.vaultResult none) ∧ s.dev.OnlyCompletes [] d n hseq)))
    ∧ (∀ b, s.dev.ra.vault.burn = some b → Completes .vaultBurnDone s (fun d =>
        d = { s.dev with ra := { s.dev.ra with vault := { s.dev.ra.vault with burn := some { b with verified := true } } } }))
    ∧ (∀ v : BitVec 32, s.dev.accepts R.VAULT_DRAFT_CTRL (rowWord v 1 0) → Completes (.draftReload v) s (fun d =>
        (∀ (k : Fin 32) (j : Fin 16), d.rd (draftKey k j) = (match s.dev.ra.vault.inForce with | some n => s.dev.genWord n k j | none => 0))
        ∧ (∀ q, (∀ (k : Fin 32) (j : Fin 16), q ≠ draftKey k j) → q ≠ H.seq 0x0B → q ≠ R.VAULT_DRAFT_CTRL → d.rd q = s.dev.rd q)
        ∧ d = { s.dev with regs := d.regs, cfg := d.cfg }))
    ∧ (∀ (t : Tx) (n k ch i : Nat) (cl : Bool) (parts : List (Nat × Nat)), s.dev.heldList .occHeld = [] → s.dev.heldList .occHeld5 = [t] →
      (s.dev.occLater t = false → Completes .occWindowStart s (fun d => d = s.dev))
      ∧ (s.dev.occLater t = true → passesStep5 s.dev t n k ch i cl parts → Completes .occWindowStart s (fun d => grantedAs s.dev d t n k ch i cl parts)))
    ∧ (s.dev.cal.length = 4 → s.dev.ra.synth.length = 36 → s.dev.paused = false → ∀ (g : Fin 4) (c : Nat),
      (∀ (temps : List Int) (own : Bool), (s.dev.calg g).on = true → s.dev.calRuns g = true →
        ((s.dev.calg g).due = false → s.dev.tempo - (s.dev.calg g).since < (s.dev.calg g).interval → Completes (.calDue g temps) s (fun d => d = s.dev))
        ∧ ((s.dev.calg g).interval ≤ s.dev.tempo - (s.dev.calg g).since →
          (s.dev.calChain g = 0xF → s.dev.calState g = 0 → s.dev.calChoose g temps = (c, own) → c ≤ 8 →
            (c = 8 ∨ s.dev.inService (8 * g + c) = false ∨ s.dev.spareCovers g c = true) → Completes (.calDue g temps) s (fun d =>
              d.calState g = (if c = 8 then 6 else if s.dev.inService (8 * g + c) then 1 else 5) ∧ d.calChain g = c
              ∧ d.get (F.CAL_GSTAT_STEPS_LEFT g) = (calItems g c).length ∧ (d.calg g).since = s.dev.tempo ∧ (d.calg g).due = false
              ∧ (d.calg g).interval = s.dev.get F.CAL_ROUND_TEMPOS / 9
              ∧ d.chainState g c = (if c = 8 then max 1 (s.dev.chainState g 8) else if s.dev.inService (8 * g + c) then s.dev.chainState g c else 1)
              ∧ (d.calState g = 1 → d.txLocked g 8 = false ∧ d.synthAt (32 + g) = (match s.dev.slotTx (8 * g + c) with | some t => t.freq | none => s.dev.synthAt (8 * g + c)))
              ∧ Dev.OnlyRegs [R.CAL_GSTAT g, R.RFG_LOCK g, R.RFG_CHAIN_STATE g] { s.dev with cal := d.cal, ra := { s.dev.ra with synth := d.ra.synth } } d))
          ∧ (s.dev.calChain g ≠ 0xF → Completes (.calDue g temps) s (fun d => (d.calg g).due = true ∧ d = { s.dev with cal := d.cal }))))
      ∧ (∀ (temp : Int) (code : BitVec 32) (trims : List Trim), s.dev.calCan g = false → Completes (.calStep g true ⟨temp, code, trims⟩) s (fun d => d = s.dev))
      ∧ (∀ (temp : Int) (code : BitVec 32) (trims : List Trim) (left item : Nat), s.dev.calCan g = true → s.dev.calChain g = c → c ≤ 8 →
        left = s.dev.get (F.CAL_GSTAT_STEPS_LEFT g) → item = (calItems g c).getD ((calItems g c).length - left) 5 →
        (s.dev.holdsSlice 0 = true ∨ (item < 4 ∧ s.dev.rfLoad ≤ s.dev.get F.VAULT_RF_LIMIT_LIMIT_MW)) →
        Completes (.calStep g true ⟨temp, code, trims⟩) s (fun d => d.get (F.CAL_GSTAT_STEPS_LEFT g) = left - 1
          ∧ d.get (F.CAL_GSTAT_ITEM g) = (if left = 1 then 0xF else s.dev.get (F.CAL_GSTAT_ITEM g))
          ∧ d.calState g = (if left = 1 ∧ s.dev.calState g = 2 then 3 else s.dev.calState g) ∧ d.calChain g = c ∧ d.chainState g c = 5 ∧ (d.calg g).again = false
          ∧ (d.calg g).temp = temp
          ∧ (item ≠ 5 → (d.calg g).staged = (s.dev.calg g).staged
              ∧ (d.calg g).stagedTrims = kvSet (s.dev.calg g).stagedTrims (1000 * c + ((calItems g c).length - left)) code.toNat)
          ∧ (item = 5 → (d.calg g).staged = (s.dev.calg g).staged ++ trims.map (fun (x : Trim) => (x.entry, trimmed g (x.entry % 64) x.bias x.gain x.met)))
          ∧ (item < 4 → (d.calg g).load = 0) ∧ (item = 5 → (d.calg g).load = loadMw (calOut g (trims.map (fun x => (x.entry, x.entry)))))
          ∧ (s.dev.heldList .budgetHeld = [] → d.ra.txs = s.dev.ra.txs)
          ∧ Dev.OnlyRegs [R.CAL_GSTAT g, R.VAULT_RF_LOAD] { s.dev with
              cal := d.cal, bg := d.bg, freeCtr := d.freeCtr, tab := { s.dev.tab with telemRf := d.tab.telemRf }, ra := { s.dev.ra with txs := d.ra.txs } } d)
        ∧ ((s.dev.calg g).again = false → Completes (.calStep g false ⟨temp, code, trims⟩) s (fun d => (d.calg g).again = true ∧ d.get (F.CAL_GSTAT_STEPS_LEFT g) = left
          ∧ d.calState g = s.dev.calState g ∧ (d.calg g).staged = (s.dev.calg g).staged
          ∧ (s.dev.heldList .budgetHeld = [] → d.ra.txs = s.dev.ra.txs)
          ∧ Dev.OnlyRegs [R.VAULT_RF_LOAD] { s.dev with
              cal := d.cal, bg := d.bg, freeCtr := d.freeCtr, tab := { s.dev.tab with telemRf := d.tab.telemRf }, ra := { s.dev.ra with txs := d.ra.txs } } d))
        ∧ ((s.dev.calg g).again = true → (s.dev.calg g).req = none → Completes (.calStep g false ⟨temp, code, trims⟩) s (fun d => bit (d.rd (R.CAL_FAULT g)) c = true
          ∧ d.get (F.CAL_CHAIN_LAST_CODE (deviceChain g c)) = (if item = 0 then 2 else 1) ∧ d.get (F.CAL_CHAIN_FAIL_ITEM (deviceChain g c)) = item
          ∧ d.calState g = (if c = 8 then 8 else if s.dev.calState g = 2 then 7
              else if s.dev.calState g = 5 ∧ (s.dev.calg g).heldRun = false then 0 else s.dev.calState g)
          ∧ (c = 8 → d.chainState g 8 = 0 ∧ d.txLocked g 8 = false ∧ bit (d.rd (R.RFG_LOCK g)) 24 = false)
          ∧ d.calChain g = 0xF ∧ (d.calg g).staged = [] ∧ (d.calg g).stagedTrims = [] ∧ d.is (H.rawBit 0x14 (if c = 8 then 2 else 1)) = true
          ∧ (∀ p i, d.ptWord p i = s.dev.ptWord p i) ∧ d.tab.mem = s.dev.tab.mem ∧ d.cfg = s.dev.cfg ∧ d.ks = s.dev.ks)))
      ∧ (s.dev.calRuns g = true → s.dev.calChain g = c → c < 8 → s.dev.get (F.CAL_GSTAT_STEPS_LEFT g) = 0 → s.dev.calState g = 3 → (s.dev.calg g).committed = false →
          ((s.dev.calTempo g).calg g).committed = true ∧ ((s.dev.calTempo g).calg g).staged = []
          ∧ (s.dev.calTempo g).get (F.CAL_CHAIN_LAST_CODE (8 * g + c)) = 0 ∧ (s.dev.calTempo g).get (F.CAL_CHAIN_SINCE (8 * g + c)) = 0
          ∧ (s.dev.calTempo g).get (F.CAL_CHAIN_TEMP (8 * g + c)) = ofSigned 8 (s.dev.calg g).temp
          ∧ (s.dev.calTempo g).get (F.RFG_PT_VER_VERSION g) = (s.dev.get (F.RFG_PT_VER_VERSION g) + 1) % 65536
          ∧ (∀ y, (s.dev.calg g).staged.getLast? = some y → (s.dev.calTempo g).ptWord (8 * g + c) (y.1 % 64) = y.2 % 2 ^ 32)
          ∧ (∀ i, (∀ y ∈ (s.dev.calg g).staged, y.1 % 64 ≠ i) → i < 64 → (s.dev.calTempo g).ptWord (8 * g + c) i = s.dev.ptWord (8 * g + c) i)
          ∧ (s.dev.calTempo g).tab.mem = s.dev.tab.mem ∧ (s.dev.calTempo g).cfg = s.dev.cfg ∧ (s.dev.calTempo g).ks = s.dev.ks ∧ (s.dev.calTempo g).ra = s.dev.ra)
      ∧ ((s.dev.calg g).settled = true → Completes (.castlingSettled g) s (fun d => d = s.dev))
      ∧ ((s.dev.calg g).settled = false → s.dev.calState g = 1 → Completes (.castlingSettled g) s (fun d => (d.calg g).settled = true
          ∧ (d.calg g).settledAt = s.dev.monoCycles ∧ d.txLocked g 8 = true ∧ bit (d.rd (R.RFG_LOCK g)) 24 = true
          ∧ Dev.OnlyRegs [R.RFG_LOCK g] { s.dev with cal := d.cal } d))
      ∧ ((s.dev.calg g).settled = false → s.dev.calState g = 4 → s.dev.calChain g = c → c < 8 → Completes (.castlingSettled g) s (fun d => (d.calg g).settled = true
          ∧ (d.calg g).settledAt = s.dev.monoCycles ∧ d.txLocked g c = true
          ∧ bit (d.rd (R.RFG_LOCK g)) (16 + c) = true ∧ Dev.OnlyRegs [R.RFG_LOCK g] { s.dev with cal := d.cal } d))
      ∧ (∀ gap : Fin 65, (s.dev.swapPoint g (8 * g + s.dev.calChain g) = false ∨ (s.dev.lanesRun = false ∧ s.dev.paused = false)) →
          Completes (.swapPoint g gap) s (fun d => d = s.dev))
      ∧ (∀ (gap : Fin 65) (b : Dev) (x : Nat), s.dev.calChain g = c → c < 8 → s.dev.swapPoint g (8 * g + c) = true → x = Config.freeNat s.dev.freeCtr →
        ((lanesVote s.dev ∧ b = issuedTx s.dev x) ∨ (s.dev.lanesRun = false ∧ s.dev.paused = true ∧ b = s.dev)) →
        (s.dev.calState g = 1 → Completes (.swapPoint g gap) s (fun d => d.chainOf (8 * g + c) = 8 ∧ d.calState g = 2 ∧ d.chainState g 8 = 3 ∧ (d.calg g).settled = false
          ∧ d.get F.CAL_COUNT_SWAPS = min (s.dev.get F.CAL_COUNT_SWAPS + 1) 65535
          ∧ d.get ⟨R.CAL_GAP_MAX, 8 * g + 7, 8 * g⟩ = max (s.dev.get ⟨R.CAL_GAP_MAX, 8 * g + 7, 8 * g⟩) gap
          ∧ (∀ x ∈ d.rx.ctxs, x.latch.isSome = true → x.members.any (fun m => m.1 == 8 * g + c) = true → x.straddle = true ∧ (x.combined = true → x.blanked = true))
          ∧ (8 * g + c < s.dev.ra.gapEnd.length → d.ra.gapEnd.getD (8 * g + c) 0 = s.dev.monoCycles + gapCycles g gap)
          ∧ (∀ t, s.dev.slotTx (8 * g + c) = some t → t.stage = .slot → d.synthAt (32 + g) = t.freq)
          ∧ Dev.OnlyRegs [R.CAL_COUNT, R.CAL_GAP_MAX, R.RFG_CHAIN_MAP g, R.CAL_GSTAT g, R.RFG_CHAIN_STATE g, R.RFG_LOCK g, R.RFG_TX_CNT g]
              { b with cal := d.cal, rx := { s.dev.rx with ctxs := d.rx.ctxs }, ra := { s.dev.ra with txs := d.ra.txs, synth := d.ra.synth, gapEnd := d.ra.gapEnd } } d))
        ∧ (s.dev.calState g = 4 → Completes (.swapPoint g gap) s (fun d => d.chainOf (8 * g + c) = c ∧ d.calState g = (if (s.dev.calg g).badAfter then 8 else 0)
          ∧ d.calChain g = 0xF
          ∧ (s.dev.inService (8 * g + c) = true → s.dev.pw.phase = .run → bit (s.dev.rd (R.RFG_LOCK g)) (16 + c) = true → d.chainState g c = 3)
          ∧ ((s.dev.calg g).committed = true → (d.calg g).trims = (s.dev.calg g).stagedTrims.foldl (fun l x => kvSet l x.1 x.2) (s.dev.calg g).trims)
          ∧ d.get F.CAL_COUNT_SWAPS = min (s.dev.get F.CAL_COUNT_SWAPS + 1) 65535
          ∧ Dev.OnlyRegs [R.CAL_COUNT, R.CAL_GAP_MAX, R.RFG_CHAIN_MAP g, R.CAL_GSTAT g, R.RFG_CHAIN_STATE g, R.RFG_LOCK g, R.RFG_TX_CNT g, H.irqRaw 0x14]
              { b with cal := d.cal, rx := { s.dev.rx with ctxs := d.rx.ctxs }, ra := { s.dev.ra with txs := d.ra.txs, synth := d.ra.synth, gapEnd := d.ra.gapEnd } } d)))
      ∧ (∀ ch : Fin 9, s.dev.calChain g = c → c < 8 → ch.val = c → (s.dev.calg g).committed = true → (s.dev.calg g).req = none →
        (s.dev.calState g = 3 → Completes (.castlingReturn g ch) s (fun d =>
          d.calState g = 4 ∧ d.chainState g c = 2 ∧ d.txLocked g c = false ∧ bit (d.rd (R.RFG_LOCK g)) (16 + c) = false ∧ (d.calg g).settled = false
          ∧ d.synthAt (8 * g + c) = (match s.dev.slotTx (8 * g + c) with | some t => t.freq | none => s.dev.synthAt (32 + g))
          ∧ Dev.OnlyRegs [R.CAL_GSTAT g, R.RFG_CHAIN_STATE g, R.RFG_LOCK g] { s.dev with cal := d.cal, ra := { s.dev.ra with synth := d.ra.synth } } d))
        ∧ (s.dev.calState g = 5 → Completes (.castlingReturn g ch) s (fun d =>
          d.calState g = 0 ∧ d.calChain g = 0xF ∧ d.chainState g c = s.dev.dutyState (8 * g + c)
          ∧ Dev.OnlyRegs [R.CAL_GSTAT g, R.RFG_CHAIN_STATE g, H.irqRaw 0x14] { s.dev with cal := d.cal } d)))
      ∧ (∀ ch : Fin 9, (s.dev.calg g).committed = false ∨ s.dev.calChain g ≠ ch.val → Completes (.castlingReturn g ch) s (fun d => d = s.dev)))
    ∧ (∀ (n : Fin 8) (hseq : Nat) (e : Entry) (g : Fin 4), s.dev.cal.length = 4 → s.dev.cmdFor n hseq 0x0210 = some e →
      (3 < e.p1 0 → Completes (.calRequest n hseq) s (fun d => s.dev.Completed d n hseq 0x01 [] ∧ s.dev.OnlyCompletes [] d n hseq))
      ∧ (e.p1 0 = g → 0 < e.p2 1 → e.p2 1 < 512 → e.zeroFrom 3 = true → s.dev.calRuns g = true → (s.dev.calg g).req = none → s.dev.calState g < 7 →
        Completes (.calRequest n hseq) s (fun d => (d.calg g).req = some (.ring n hseq, (List.range 9).filter (fun k => bit (e.p2 1) k), 0)
          ∧ (d.cmdOf n hseq).isSome = true ∧ d = { s.dev with cal := d.cal, inflight := d.inflight })))

/-! ### Reception (09) and the uplink (01) -/

/-- The context c is FREE again, counted in STAT_g_k; the other contexts stand (R254). -/
def ctxFreed (d d' : Dev) (c : Ctx) (k : Nat) : Prop :=
  d'.ctx c.id = none ∧ (∀ j, j ≠ c.id → d'.ctx j = d.ctx j)
  ∧ d'.get (F.RXP_STAT_COUNT c.group k) = min (d.get (F.RXP_STAT_COUNT c.group k) + 1) (F.RXP_STAT_COUNT c.group k).top
  ∧ Dev.OnlyRegs (R.RXP_POOL :: R.RXP_STAT c.group k :: (List.range 4).map R.RXP_POOL_USE)
      { d with rx := { d.rx with ctxs := d'.rx.ctxs }, tab := { d.tab with telemPoolPeak := d'.tab.telemPoolPeak } } d'

/-- What a context latches at its synchronising word (R256). -/
def latched (d : Dev) (strength snr cfo : Int) (errs : Nat) (alt : Bool) : Latch :=
  { strength := max (-300) (min 20 strength), snr := snr, cfo := max (-32768) (min 32767 cfo), time := d.sysNs, tempo := d.sysTempo, cycle := d.cycle,
    mono := d.monoCycles, errs := errs, alt := alt }

/-- Reception (R246, R251 to R269) and the uplink path (R27): a preamble takes a context or exhausts the pool; the word latches the frame's
values, by its distance from the entry's words, and opens a merge window, or joins one, unless a port already receives the frame; the window's
end combines or selects; the check of a frame's octets delivers to the pipeline or to the ring that takes the kind, and a context given up is counted by its reason; a waiting record is written once there is room, and
a ring's record bit follows its timeout; a frame leaves its pipeline's queue and is acknowledged and timed, or dropped where its PAN is unknown. -/
def Obligations.ReceptionActs : Prop :=
  ∀ s : State, s.Inv →
    (∀ (p : Fin 32) (entry : Fin 16) (chan : Fin 64),
      (s.dev.sentry p entry chan = false → Completes (.preambleDetect p entry chan) s (fun d => d = s.dev))
      ∧ (s.dev.sentry p entry chan = true → s.dev.poolGrants (portGroup p) = true → s.dev.ctx s.dev.rx.nextCtx = none → Completes (.preambleDetect p entry chan) s (fun d =>
        (∃ c, d.ctx s.dev.rx.nextCtx = some c ∧ c.port = p ∧ c.group = portGroup p ∧ c.entry = entry ∧ c.chan = chan ∧ c.latch = none ∧ c.window = false
          ∧ c.words = (List.range 7).map (fun k => s.dev.leWord (portGroup p) entry k))
        ∧ d.rx.ctxs.length = s.dev.rx.ctxs.length + 1
        ∧ d.get (F.RXP_STAT_COUNT (portGroup p) 0) = min (s.dev.get (F.RXP_STAT_COUNT (portGroup p) 0) + 1) (F.RXP_STAT_COUNT (portGroup p) 0).top
        ∧ Dev.OnlyRegs (R.RXP_POOL :: R.RXP_STAT (portGroup p) 0 :: (List.range 4).map R.RXP_POOL_USE)
            { s.dev with rx := { s.dev.rx with ctxs := d.rx.ctxs, nextCtx := s.dev.rx.nextCtx + 1 }, tab := { s.dev.tab with telemPoolPeak := d.tab.telemPoolPeak } } d))
      ∧ (s.dev.sentry p entry chan = true → s.dev.poolGrants (portGroup p) = false → s.dev.paused = false → Completes (.preambleDetect p entry chan) s (fun d =>
        d.get F.RXP_EXHAUST_COUNT = min (s.dev.get F.RXP_EXHAUST_COUNT + 1) 65535 ∧ d.get F.RXP_EXHAUST_LAST_PORT = p ∧ d.is (H.rawBit 0x15 0) = true
        ∧ Dev.OnlyRegs [R.RXP_EXHAUST, H.irqRaw 0x15] { s.dev with tab := { s.dev.tab with telemRefused := d.tab.telemRefused } } d)))
    ∧ (∀ (c : Ctx) (strength snr cfo : Int) (amp noise : Nat) (word : BitVec 32), s.dev.ctx c.id = some c → c.group < 4 →
      (c.latch.isSome = true ∨ s.dev.hears c.port = false ∨ c.matched word.toNat = none →
        Completes (.syncFound c.id strength snr cfo ⟨amp, noise⟩ word) s (fun d => d = s.dev))
      ∧ (∀ (errs : Nat) (alt : Bool) (l : Latch) (c1 : Ctx), c.latch = none → s.dev.hears c.port = true → c.matched word.toNat = some (errs, alt) →
        l = latched s.dev strength snr cfo errs alt →
        c1 = { c with latch := some l, members := [(c.port, max (-300) (min 20 strength))], weights := [(c.port, amp, noise)],
                      chain := deviceChain c.group (s.dev.chainOf c.port) } →
        (s.dev.sameFrame c l = [] → Completes (.syncFound c.id strength snr cfo ⟨amp, noise⟩ word) s (fun d =>
          d.ctx c.id = some { c1 with window := true } ∧ (∀ j, j ≠ c.id → d.ctx j = s.dev.ctx j) ∧ d = { s.dev with rx := { s.dev.rx with ctxs := d.rx.ctxs } }))
        ∧ ((s.dev.sameFrame c l).any (fun x => x.window) = true → Completes (.syncFound c.id strength snr cfo ⟨amp, noise⟩ word) s (fun d =>
          d.ctx c.id = some c1 ∧ (∀ j, j ≠ c.id → d.ctx j = s.dev.ctx j) ∧ d = { s.dev with rx := { s.dev.rx with ctxs := d.rx.ctxs } }))
        ∧ (s.dev.sameFrame c l ≠ [] → (∀ x ∈ s.dev.sameFrame c l, x.window = false) →
          Completes (.syncFound c.id strength snr cfo ⟨amp, noise⟩ word) s (fun d => ctxFreed s.dev d c 6)))
      ∧ (c.latch = none → Completes (.syncTimeout c.id) s (fun d => ctxFreed s.dev d c 1))
      ∧ (∀ l, c.latch = some l → c.window = true →
        (s.dev.sameFrame c l = [] → Completes (.mergeWindowClose c.id snr) s (fun d => (∃ u, d.ctx c.id = some u ∧ u.window = false ∧ u.combined = false ∧ u.snr = snr
            ∧ u.latch = c.latch ∧ u.port = c.port ∧ u.weights = c.weights) ∧ (∀ j, j ≠ c.id → d.ctx j = s.dev.ctx j) ∧ d = { s.dev with rx := { s.dev.rx with ctxs := d.rx.ctxs } }))
        ∧ (∀ y p q, s.dev.sameFrame c l = [y] → s.dev.ctx y.id = some y → strongest [c, y] = [p, q] → Completes (.mergeWindowClose c.id snr) s (fun d =>
            d.ctx q.id = none ∧ (∃ u, d.ctx p.id = some u ∧ u.window = false ∧ u.combined = c.combine ∧ u.snr = snr ∧ u.latch = p.latch
              ∧ u.weights = (if c.combine then p.weights ++ q.weights else p.weights))
            ∧ d.get (F.RXP_STAT_COUNT c.group (if c.combine then 5 else 6)) =
                min (s.dev.get (F.RXP_STAT_COUNT c.group (if c.combine then 5 else 6)) + 1) (F.RXP_STAT_COUNT c.group (if c.combine then 5 else 6)).top)))
      ∧ (c.latch.isSome = true → ∀ (phr : BitVec 16) (bytes : List Byte),
        (c.deliver ≠ 2 → c.frameLen phr.toNat bytes = none → Completes (.phrInvalid c.id ⟨phr, bytes⟩) s (fun d => ctxFreed s.dev d c 2))
        ∧ (c.frameLen phr.toNat bytes ≠ none → Completes (.phrInvalid c.id ⟨phr, bytes⟩) s (fun d => d = s.dev)))
      ∧ (c.latch.isSome = true → ∀ (fcs2 white : Bool) (len : BitVec 11) (phr : Nat) (bytes plain : List Byte) (fec : Nat),
        phr = sunPhr (!fcs2) white len.toNat → plain = c.plainBytes phr bytes → fec = c.fecField phr →
        (c.frameLen phr bytes ≠ some bytes.length → Completes (.frameCheck c.id fcs2 white len bytes) s (fun d => d = s.dev))
        ∧ (c.frameLen phr bytes = some bytes.length →
          (c.deliver = 0 → (c.checks phr bytes = false ∨ MacFrame.ofOctets (plain.take (plain.length - (if c.fcs4 phr then 4 else 2))) = none) →
            Completes (.frameCheck c.id fcs2 white len bytes) s (fun d => ctxFreed s.dev d c 3))
          ∧ (∀ m, c.checks phr bytes = true → c.deliver = 0 → MacFrame.ofOctets (plain.take (plain.length - (if c.fcs4 phr then 4 else 2))) = some m →
            (m.cmdKnown = false → Completes (.frameCheck c.id fcs2 white len bytes) s (fun d => ctxFreed s.dev d c 3))
            ∧ (m.cmdKnown = true → (m.ftype ≠ 2 ∨ m.sec ≠ none) → (m.ftype ≠ 0 ∨ m.beacon = none) → s.dev.rx.queues.length = 4 → s.dev.paused = false →
              Completes (.frameCheck c.id fcs2 white len bytes) s (fun d => d.ctx c.id = none
                ∧ d.get (F.RXP_STAT_COUNT c.group 4) = min (s.dev.get (F.RXP_STAT_COUNT c.group 4) + 1) (F.RXP_STAT_COUNT c.group 4).top
                ∧ ((s.dev.rx.queues.getD c.group []).length < 8192 →
                    d.rx.queues.getD c.group [] = s.dev.rx.queues.getD c.group [] ++ [(s.dev.atEnd c).toFrame s.dev.rx.nextNo true fec m plain])
                ∧ (8192 ≤ (s.dev.rx.queues.getD c.group []).length → d.rx.queues = s.dev.rx.queues ∧ d.is (H.rawBit 0x15 1) = true
                    ∧ d.get F.RXP_OVERLOAD_COUNT = min (s.dev.get F.RXP_OVERLOAD_COUNT + 1) 65535)
                ∧ d.rx.nextNo = s.dev.rx.nextNo + 1
                ∧ d.tab.mem = s.dev.tab.mem ∧ d.ra = s.dev.ra ∧ d.rx.rings = s.dev.rx.rings ∧ d.cfg = s.dev.cfg ∧ d.tempo = s.dev.tempo)))
          ∧ (∀ k : Nat, c.checks phr bytes = true → c.deliver = k → k ≠ 0 → s.dev.ringFor k = none → Completes (.frameCheck c.id fcs2 white len bytes) s (fun d =>
              d.ctx c.id = none ∧ d.get F.RXP_OVERLOAD_NO_RING = min (s.dev.get F.RXP_OVERLOAD_NO_RING + 1) 65535 ∧ d.rx.rings = s.dev.rx.rings ∧ d.out = s.dev.out))
          ∧ (∀ (k : Nat) (n : Fin 4), c.checks phr bytes = true → c.deliver = k → k ≠ 0 → s.dev.ringFor k = some n.val →
              s.dev.rxWaits ((s.dev.atEnd c).toFrame s.dev.rx.nextNo true fec MacFrame.blank plain) k = false → (s.dev.rxRing n).backlog = [] → s.dev.rxRoom n = true →
              s.dev.cellsFit false (cellsFor (64 + plain.length)) = true → s.dev.rx.rings.length = 4 → Completes (.frameCheck c.id fcs2 white len bytes) s (fun d =>
                d.ctx c.id = none ∧ (∃ r, d.out = .rxRecord n (s.dev.get (F.RXP_RXR_PROD_COUNT n) % 4096) r :: s.dev.out
                  ∧ r.take 2 = beBytes 2 (r.length - 64))
                ∧ d.get (F.RXP_RXR_PROD_COUNT n) = (s.dev.get (F.RXP_RXR_PROD_COUNT n) + 1) % 65536
                ∧ (d.rxRing n).nextSeq = ((s.dev.rxRing n).nextSeq + 1) % 2 ^ 32))))
      ∧ (c.members.all (fun m => s.dev.portBlanked m.1 || !s.dev.inService m.1 || c.lost.contains m.1) = true → Completes (.contextAbandon c.id) s (fun d => ctxFreed s.dev d c 7))
      ∧ (c.members.all (fun m => s.dev.portBlanked m.1 || !s.dev.inService m.1 || c.lost.contains m.1) = false → Completes (.contextAbandon c.id) s (fun d => d = s.dev)))
    ∧ (∀ k : Fin 36, s.dev.rx.gain.length = 36 → Completes (.gainStepDown k) s (fun d => d.rx.gain.getD k 0 = s.dev.rx.gain.getD k 0 - 1
        ∧ (∀ j : Fin 36, j ≠ k → d.rx.gain.getD j 0 = s.dev.rx.gain.getD j 0) ∧ d = { s.dev with rx := { s.dev.rx with gain := d.rx.gain } }))
    ∧ (∀ n : Fin 4, s.dev.rx.rings.length = 4 →
      (∀ x rest, (s.dev.rxRing n).backlog = x :: rest →
        (s.dev.rxRoom n = true → Completes (.rxRecordWrite n) s (fun d => (d.rxRing n).backlog = rest
          ∧ (∃ r, d.out = .rxRecord n (s.dev.get (F.RXP_RXR_PROD_COUNT n) % 4096) r :: s.dev.out)
          ∧ d.get (F.RXP_RXR_PROD_COUNT n) = (s.dev.get (F.RXP_RXR_PROD_COUNT n) + 1) % 65536
          ∧ (∀ m : Fin 4, m ≠ n → d.rxRing m = s.dev.rxRing m) ∧ d.rx.ctxs = s.dev.rx.ctxs ∧ d.rx.queues = s.dev.rx.queues ∧ d.ra = s.dev.ra
          ∧ d.tab.mem = s.dev.tab.mem ∧ d.cfg = s.dev.cfg ∧ d.tempo = s.dev.tempo))
        ∧ (s.dev.rxRoom n = false → Completes (.rxRecordWrite n) s (fun d => d = s.dev)))
      ∧ (0 < (s.dev.rxRing n).since → 0 < s.dev.get (F.RXP_RXR_IRQ_TIMEOUT_US n) → s.dev.paused = false → Completes (.rxRingTimeout n) s (fun d =>
        d.is (H.rawBit 0x15 (4 + n)) = true ∧ (d.rxRing n).since = 0 ∧ (d.rxRing n).backlog = (s.dev.rxRing n).backlog
        ∧ Dev.OnlyRegs [R.RXP_RXR_STAT n, H.irqRaw 0x15] { s.dev with rx := { s.dev.rx with rings := d.rx.rings } } d))
      ∧ (s.dev.rxPcie n = true → s.dev.is (F.RXP_RXR_CFG_EN n) = true → s.dev.paused = false → Completes (.rxRingDmaError n) s (fun d =>
        d.is (F.RXP_RXR_STAT_FAULT n) = true ∧ d.is (H.rawBit 0x15 (8 + n)) = true ∧ d.rxRoom n = false
        ∧ s.dev.OnlyRegs [R.RXP_RXR_STAT n, H.irqRaw 0x15] d)))
    ∧ (∀ (g : Fin 4) (f : RxFrame) (rest : List RxFrame), s.dev.awake = true → s.dev.paused = false → s.dev.rx.queues.length = 4 → s.dev.rx.queues.getD g [] = f :: rest →
      s.dev.rx.parked = [] →
      (s.dev.panOf f.group f.frame.panId = none → f.frame.ftype ≠ 3 → Completes (.uplinkPipeline g []) s (fun d => d.rx.queues.getD g [] = rest
        ∧ Dev.OnlyRegs [] { s.dev with rx := { s.dev.rx with queues := d.rx.queues } } d))
      ∧ (∀ p x e, s.dev.panOf f.group f.frame.panId = some p → s.dev.enabled 0x20 = true → f.frame.src = .short x → x < 65536 → s.dev.validEntry (p * 65536 + x) = some e →
        e < 6291456 → f.frame.sec = none → s.dev.get (F.SEC_PAN_SEC_MIN_LEVEL p) = 0 → f.frame.flood = none → f.frame.mesh = none → f.frame.csl = none → f.frame.ftype = 0 →
        f.frame.ackReq = true → f.frame.dst = .short 0 → s.dev.enabled (0x24 + f.group) = false →
        (∀ t ∈ s.dev.ra.txs, t.stage ≠ .awaitNode) → Completes (.uplinkPipeline g []) s (fun d => d.rx.queues.getD g [] = rest
          ∧ (∃ t ∈ d.ra.txs, t.kind = .ack ∧ t.stage = .step5 ∧ t.port = f.port ∧ t.frame.map (fun m => m.seq) = some f.frame.seq)
          ∧ (∀ t ∈ s.dev.ra.txs, t ∈ d.ra.txs) ∧ d.memBits (timingAddr e + 1) 6 6 = 1 ∧ d.memBits (timingAddr e + 1) 19 8 = f.latch.mono / 25600000000 % 4095
          ∧ d.cfg = s.dev.cfg ∧ d.ks = s.dev.ks ∧ d.tempo = s.dev.tempo ∧ d.sch = s.dev.sch)))

/-! ### Medium access: timing, acknowledgments, beacons, peers and relays (11) -/

/-- A data frame for a node on its way, with the command of ring n that it completes. -/
def nodeTx (d : Dev) (t : Tx) (n hseq : Nat) : Prop :=
  d.tx t.id = some t ∧ t.src = .ring n hseq ∧ t.kind = .data ∧ (d.cmdOf n hseq).isSome = true ∧ noneDisplaced d t

/-- The frame's slot k of generation n in force has duty and occupancy left for it (R216, R313). -/
def dutyRoom (d : Dev) (t : Tx) (n k : Nat) (parts : List (Nat × Nat)) : Prop :=
  d.ra.vault.inForce = some n ∧ d.slotFor t.group t.freq = some k
  ∧ d.dutyHour k + d.dutyReserved k t.id + t.airtime + d.get (F.MAC_DUTY_CFG_ACK_RESERVE t.group) * 360000 ≤ (d.slotRec n k).budgetUs
  ∧ d.occCheck (d.slotRec n k) k (((d.slotRec n k).channel t.freq).getD 64) (if t.timed then t.planned else d.planUs t) t.airtime t.id = (true, parts)

/-- The frame has reserved its airtime in slot k, and goes to step 5, or to its first backoff where the slot asks for listen-before-talk of
an untimed frame (R313, R315). -/
def admittedTo (d d' : Dev) (t : Tx) (n k : Nat) (parts : List (Nat × Nat)) : Prop :=
  (∃ u, d'.tx t.id = some u ∧ u.dutyRes = t.airtime ∧ u.occRes = parts ∧ u.vslot = k ∧ u.src = t.src ∧ u.nb = (if (d.slotRec n k).lbtEn then 0 else u.nb)
    ∧ (if (d.slotRec n k).lbtEn && !t.timed then u.stage = .backoff ∧ u.be = d.get (F.MAC_LBT_MIN_BE t.group) else u.stage = .step5))
  ∧ (∀ j, j ≠ t.id → d'.tx j = d.tx j) ∧ d' = { d with ra := { d.ra with txs := d'.ra.txs } }

/-- Only this frame changes, to u. -/
def onlyTx (d d' : Dev) (t u : Tx) : Prop :=
  d'.tx t.id = some u ∧ (∀ j, j ≠ t.id → d'.tx j = d.tx j) ∧ d' = { d with ra := { d.ra with txs := d'.ra.txs } }

/-- What a fixed-instant frame needs at its release, a turnaround before its instant, to be sent: step 5 passed there, with duty left, and the air and the grant free
(R200, R295, R318, R319). -/
def sendsNow (d : Dev) (t : Tx) (a : AirSense) (n k ch i : Nat) (cl : Bool) (parts : List (Nat × Nat)) : Prop :=
  lanesVote d ∧ d.enabled 0x16 = true ∧ d.airTx t.port = none ∧ d.slotRefuses t = none
  ∧ d.paused = false ∧ d.noGrants = false ∧ (d.securing t).2.2 = 0 ∧ (∀ x ∈ d.ra.txs, x.id = t.id → x = t) ∧ t.counted = false ∧ t.latest = 0
  ∧ d.ra.vault.inForce = some n ∧ d.slotFor t.group t.freq = some k ∧ (d.slotRec n k).channel t.freq = some ch ∧ (d.slotRec n k).enabled = true
  ∧ (d.slotRec n k).fits t.freq (phyBandwidth t.phy) = true ∧ d.powerStep t (d.slotRec n k) = some (i, cl)
  ∧ ((d.slotRec n k).dwellMax = 0 ∨ t.airtime ≤ (d.slotRec n k).dwellMax)
  ∧ d.occCheck (d.slotRec n k) k ch (d.monoUs + (d.turnaroundNs t + 999) / 1000) t.airtime t.id = (true, parts)
  ∧ d.dutyHour k + d.dutyReserved k t.id + t.airtime + (if t.kind = .ack then 0 else d.get (F.MAC_DUTY_CFG_ACK_RESERVE t.group) * 360000)
      ≤ (d.slotRec n k).budgetUs
  ∧ d.is F.CLK_STAT_TX_HELD = false ∧ d.rfLoad + loadMw (ptOut (d.ptWord t.port i)) ≤ d.get F.VAULT_RF_LIMIT_LIMIT_MW
  ∧ (t.kind = .ack ∨ (d.slotRec n k).lbtEn = false ∨ d.airBusy t (d.slotRec n k) a.power = false) ∧ (a.grant = true ∨ d.covered t = false)

/-- Stage TX issues it, and it is released, on its port's chain, tuned and locked to its channel: its ramp starts a turnaround from now. -/
def sentNow (d d' : Dev) (t : Tx) (i : Nat) : Prop :=
  (∃ x, d'.ln = { d.ln with issued := setAt d.ln.issued 0 (some x) })
  ∧ (∃ u, d'.tx t.id = some u ∧ u.stage = .onAir ∧ u.rampStart = d.sysNs + d.turnaroundNs t ∧ u.filling = true ∧ u.index = some i ∧ u.chain = deviceChain t.group (d.chainOf t.port))
  ∧ d'.chainState t.group (d.chainOf t.port) = 4 ∧ d'.txLocked t.group (d.chainOf t.port) = true
  ∧ d'.synthAt (deviceChain t.group (d.chainOf t.port)) = t.freq
  ∧ d'.get (F.TXP_ONAIR_COUNT t.group) = min (d.get (F.TXP_ONAIR_COUNT t.group) + 1) (F.TXP_ONAIR_COUNT t.group).top
  ∧ d'.tab.mem = d.tab.mem ∧ d'.ks = d.ks ∧ d'.cfg = d.cfg ∧ d'.tempo = d.tempo ∧ d'.rings = d.rings

/-- It is missed: the frame is gone, counted, and raised (R295, R319). -/
def missedNow (d d' : Dev) (t : Tx) : Prop :=
  d'.tx t.id = none ∧ d'.get (F.MAC_COUNT_ACK_MISSED t.group) = min (d.get (F.MAC_COUNT_ACK_MISSED t.group) + 1) (F.MAC_COUNT_ACK_MISSED t.group).top
  ∧ d'.is (H.rawBit (0x18 + t.group) 8) = true ∧ d'.tab.mem = d.tab.mem ∧ d'.ks = d.ks ∧ d'.cfg = d.cfg ∧ d'.tempo = d.tempo ∧ d'.rings = d.rings

/-- Medium access (R297 to R304, R310 to R320, R325): a frame at step 4 is placed, waits for its node, is held for duty, or goes on to its
backoff or step 5; backoffs, new rounds and waits for acknowledgment end in their next stage; minute bins roll; fixed-instant frames are sent
or missed; beacons are made when due and skipped when late; a silent peer turns absent, adoptable and adopted; a relay is sent or cancelled. -/
def Obligations.MediumAccessActs : Prop :=
  ∀ s : State, s.Inv →
    (∀ t : Tx, s.dev.tx t.id = some t → s.dev.paused = false → s.dev.noGrants = false → (t.stage = .step4 ∨ (t.stage = .repeating ∧ (t.timed = true ∨ t.readyT ≤ s.dev.tempo))) →
      (t.dest = none →
        (s.dev.ra.vault.inForce = none → Completes (.channelAccess ⟨t.id, []⟩) s (fun d => onlyTx s.dev d t { t with airtime := s.dev.predictUs t, stage := .step5 }))
        ∧ (∀ n k parts, dutyRoom s.dev { t with airtime := s.dev.predictUs t } n k parts → Completes (.channelAccess ⟨t.id, []⟩) s (fun d =>
            admittedTo s.dev d { t with airtime := s.dev.predictUs t } n k parts))
        ∧ (∀ n k, s.dev.ra.vault.inForce = some n → s.dev.slotFor t.group t.freq = some k → t.port < 32 →
            (s.dev.slotRec n k).budgetUs < s.dev.dutyHour k + s.dev.dutyReserved k t.id + s.dev.predictUs t + s.dev.get (F.MAC_DUTY_CFG_ACK_RESERVE t.group) * 360000 →
            Completes (.channelAccess ⟨t.id, []⟩) s (fun d => (∃ u, d.tx t.id = some u ∧ u.stage = .dutyHeld ∧ u.airtime = s.dev.predictUs t ∧ u.src = t.src)
              ∧ d.get (F.MAC_COUNT_MISC_DUTY_HELD t.group) = min (s.dev.get (F.MAC_COUNT_MISC_DUTY_HELD t.group) + 1) (F.MAC_COUNT_MISC_DUTY_HELD t.group).top
              ∧ d.is (H.rawBit (0x18 + t.group) 0) = true ∧ (∀ j, j ≠ t.id → d.tx j = s.dev.tx j)
              ∧ Dev.OnlyRegs [R.MAC_COUNT_MISC t.group, H.irqRaw (0x18 + t.group)]
                  { s.dev with ra := { s.dev.ra with txs := d.ra.txs, nextHeld := d.ra.nextHeld } } d)))
      ∧ (∀ h, t.dest = some h →
        (∀ (n : Fin 8) (hseq : Nat), nodeTx s.dev t n hseq → t.sent = false → s.dev.panEn (h / 65536) = false → Completes (.channelAccess ⟨t.id, []⟩) s (fun d =>
            txEnded s.dev d t n hseq 0x11 (txResult 11 t.index none 0 0)))
        ∧ (∀ x, s.dev.nextHop h = (s.dev, some x) → (s.dev.adriftCheck x.handle x.entry).1 = s.dev →
          (s.dev.eHeard x.entry = false → Completes (.channelAccess ⟨t.id, []⟩) s (fun d => onlyTx s.dev d t { t with stage := .awaitNode, hop := some x.handle }))
          ∧ (∀ w, s.dev.eHeard x.entry = true → t.sent = false → s.dev.pathUsable (s.dev.panGroup (h / 65536)) x.path = true → s.dev.panWakePeriod (h / 65536) ≠ 0 →
              isPawnBlock t = false → s.dev.pickWindow { s.dev.onPath t x with port := t.port } x.entry 0 = some w → s.dev.monoUs + 250 < w.planned → Completes (.channelAccess ⟨t.id, []⟩) s (fun d =>
                ∃ u, onlyTx s.dev d t u ∧ u.stage = .step4 ∧ u.timed = true ∧ u.planned = w.planned ∧ u.window = w.k ∧ u.preamble = w.preamble
                  ∧ u.hop = some x.handle ∧ u.port = t.port ∧ u.src = t.src)))))
    ∧ (s.dev.awake = true → s.dev.tempo % 240000 = 0 → s.dev.ra.rolledT < s.dev.tempo → Completes .minuteBinRoll s (fun d =>
        (∀ k, k < s.dev.ra.duty.length → d.ra.duty.getD k [] = (0 :: s.dev.ra.duty.getD k []).take 60) ∧ d.ra.rolledT = s.dev.tempo
        ∧ d = { s.dev with ra := { s.dev.ra with duty := d.ra.duty, rolledT := d.ra.rolledT } }))
    ∧ ((s.dev.tempo % 240000 ≠ 0 ∨ s.dev.ra.rolledT = s.dev.tempo) → Completes .minuteBinRoll s (fun d => d = s.dev))
    ∧ (∀ (t : Tx) (power : List (Option Int)) (grant : Bool), s.dev.tx t.id = some t → t.stage = .backoff →
      (t.nb = 0 → Completes (.backoffExpiry t.id power grant) s (fun d => onlyTx s.dev d t { t with stage := .step5 }))
      ∧ (t.nb ≠ 0 → t.timed = false →
        ((s.dev.slotTx t.port).isSome = true → Completes (.backoffExpiry t.id power grant) s (fun d => onlyTx s.dev d t { t with stage := .voted }))
        ∧ (∀ g c, g = t.group → c = s.dev.chainOf t.port → s.dev.slotTx t.port = none → t.port < 32 → s.dev.slotRefuses t = none → s.dev.ra.synth.length = 36 →
            (s.dev.synthAt (deviceChain g c) ≠ t.freq → Completes (.backoffExpiry t.id power grant) s (fun d =>
              (∃ u, d.tx t.id = some u ∧ u.stage = .slot ∧ u.chain = deviceChain g c ∧ u.src = t.src) ∧ d.synthAt (deviceChain g c) = t.freq ∧ d.txLocked g c = false))
            ∧ (s.dev.tunedFor t = true → s.dev.paused = false → t.filling = true → t.due ≤ s.dev.sysNs → noneDisplaced s.dev t → t.latest = 0 → s.dev.ra.vault.inForce = some t.vgen →
                (grant = true ∨ s.dev.covered t = false) → (∀ r, s.dev.slotInForce t.vslot = some r → t.kind ≠ .ack →
                (r.lbtEn = false ∨ s.dev.airBusy t r power = false → Completes (.backoffExpiry t.id power grant) s (fun d =>
                  (∃ u, d.tx t.id = some u ∧ u.stage = .onAir ∧ u.rampStart = s.dev.sysNs + s.dev.turnaroundNs t ∧ u.src = t.src) ∧ d.chainState g c = 4))
                ∧ (r.lbtEn = true → s.dev.airBusy t r power = true → t.nb + 1 ≤ s.dev.get (F.MAC_LBT_MAX_BACKOFFS g) → Completes (.backoffExpiry t.id power grant) s (fun d =>
                  (∃ u, d.tx t.id = some u ∧ u.stage = .backoff ∧ u.nb = t.nb + 1 ∧ u.be = min (t.be + 1) (s.dev.get (F.MAC_LBT_MAX_BE g)) ∧ u.src = t.src)
                  ∧ d.get (F.MAC_COUNT_LBT_BUSY g) = min (s.dev.get (F.MAC_COUNT_LBT_BUSY g) + 1) (F.MAC_COUNT_LBT_BUSY g).top))))))
      ∧ (∀ h e, t.nb ≠ 0 → t.timed = true → t.hop = some h → s.dev.validEntry h = some e → Completes (.backoffExpiry t.id power grant) s (fun d =>
          ∃ b u, b < 2 ^ t.be ∧ d.tx t.id = some u ∧ (∀ j, j ≠ t.id → d.tx j = s.dev.tx j)
            ∧ d = { s.dev with ra := { s.dev.ra with txs := d.ra.txs }, freeCtr := s.dev.freeCtr + 1 }
            ∧ (match s.dev.pickWindow t e (s.dev.windowNow t e + 1 + b) with
              | none => u = { t with stage := .awaitNode, filling := false }
              | some w => u = { t with stage := .voted, planned := w.planned, window := w.k, preamble := w.preamble, anchor := w.anchor, filling := false }))))
    ∧ (∀ t : Tx, s.dev.tx t.id = some t → t.stage = .newRound →
      (t.timed = false → s.dev.tempo < t.readyT → Completes (.lbtNewRound t.id) s (fun d => d = s.dev))
      ∧ (∀ n k parts, t.timed = false → t.readyT ≤ s.dev.tempo → dutyRoom s.dev t n k parts → Completes (.lbtNewRound t.id) s (fun d => admittedTo s.dev d t n k parts))
      ∧ (∀ h e, t.timed = true → t.hop = some h → s.dev.validEntry h = some e → s.dev.pickWindow t e (s.dev.windowNow t e + 1) = none →
          Completes (.lbtNewRound t.id) s (fun d => onlyTx s.dev d t { t with stage := .awaitNode }))
      ∧ (∀ h e w t1 n k parts, t.timed = true → t.hop = some h → s.dev.validEntry h = some e → s.dev.pickWindow t e (s.dev.windowNow t e + 1) = some w →
          t1 = { t with planned := w.planned, window := w.k, preamble := w.preamble, anchor := w.anchor, stage := .step4 } →
          dutyRoom s.dev { t1 with airtime := s.dev.predictUs t1 } n k parts → Completes (.lbtNewRound t.id) s (fun d =>
            admittedTo s.dev d { t1 with airtime := s.dev.predictUs t1 } n k parts)))
    ∧ (∀ (t : Tx) (n : Fin 8) (hseq : Nat), s.dev.tx t.id = some t → t.stage = .ackWait → t.port < 32 →
      (s.dev.ackQueued t = true → Completes (.ackWaitExpiry t.id) s (fun d => d = s.dev))
      ∧ (s.dev.ackQueued t = false → t.retries < s.dev.get (F.MAC_ACK_MAX_RETRIES t.group) → Completes (.ackWaitExpiry t.id) s (fun d =>
        onlyTx s.dev d t { t with stage := .repeating, retries := t.retries + 1, rounds := 0, nb := 0, index := none, readyT := s.dev.tempo + 1 }))
      ∧ (s.dev.ackQueued t = false → s.dev.get (F.MAC_ACK_MAX_RETRIES t.group) ≤ t.retries → nodeTx s.dev t n hseq → Completes (.ackWaitExpiry t.id) s (fun d =>
        txEnded s.dev d t n hseq 0x03 (txResult 10 t.index (some t.chain) t.airtime t.rampStart))))
    ∧ (∀ (p : Fin 32) (t : Tx) (power : List (Option Int)) (grant : Bool), s.dev.tx t.id = some t → t.src = .none → s.dev.paused = false → s.dev.ra.synth.length = 36 → noneDisplaced s.dev t →
      (s.dev.ra.txs.find? (fun t => t.port == p.val && t.kind == .ack && t.stage == .step5) = some t →
        Completes (.ackSend p false grant) s (fun d => missedNow s.dev d t)
        ∧ (s.dev.lanesRun = false → Completes (.ackSend p true grant) s (fun d => missedNow s.dev d t))
        ∧ (∀ n k ch i cl parts, sendsNow s.dev t ⟨[], grant⟩ n k ch i cl parts → Completes (.ackSend p true grant) s (fun d => sentNow s.dev d t i)))
      ∧ (s.dev.ra.txs.find? (fun t => t.port == p.val && t.kind == .assocResp && t.stage == .step5) = some t →
        Completes (.associationResponse p false power grant) s (fun d => missedNow s.dev d t)
        ∧ (s.dev.lanesRun = false → Completes (.associationResponse p true power grant) s (fun d => missedNow s.dev d t))
        ∧ (∀ n k ch i cl parts, sendsNow s.dev t ⟨power, grant⟩ n k ch i cl parts → Completes (.associationResponse p true power grant) s (fun d => sentNow s.dev d t i))))
    ∧ (∀ (p : Fin 128) (port : Fin 32), s.dev.noGrants = false → s.dev.panEn p = true → 0 < s.dev.panBeaconInt p → s.dev.panGroup p = portGroup port →
      bit (s.dev.panPorts p) (portSector port) = true →
      (s.dev.tempo + 16 * s.dev.panBeaconInt p - (s.dev.panBeaconPhase p + portSector port * (s.dev.panBeaconInt p / 8))) % s.dev.panBeaconInt p = 0 →
      s.dev.ra.beaconSeq.length = 128 →
      (s.dev.ra.dueBeacons.contains (p.val, port.val, s.dev.tempo) = true → Completes (.beaconDue p port) s (fun d => d = s.dev))
      ∧ (s.dev.ra.dueBeacons.contains (p.val, port.val, s.dev.tempo) = false → Completes (.beaconDue p port) s (fun d => (∃ (t : Tx) (f : MacFrame), d.ra.txs = s.dev.ra.txs ++ [t] ∧ t.kind = .beacon ∧ t.stage = .step4 ∧ t.id = s.dev.ra.nextTx ∧ t.pan = some p.val ∧ t.port = port.val
          ∧ t.freq = s.dev.panBeaconFreq p ∧ t.dueT = s.dev.tempo ∧ t.frame = some f ∧ f.panId = s.dev.panId p ∧ f.ftype = 0 ∧ f.seq = s.dev.ra.beaconSeq.getD p 0
          ∧ f.ies = BeaconIe.octets ⟨b2n s.dev.opening + 2 * b2n (s.dev.panAdmit p == 1) + 4 * s.dev.get F.SYS_OPENING_HOLD_ASSOC, Config.brId.toNat,
              s.dev.panBeaconInt p, s.dev.panBlocks p⟩ ++ ieEnd)
        ∧ d.ra.beaconSeq.getD p 0 = (s.dev.ra.beaconSeq.getD p 0 + 1) % 256
        ∧ d.ra.dueBeacons.contains (p.val, port.val, s.dev.tempo) = true
        ∧ d = { s.dev with ra := { s.dev.ra with txs := d.ra.txs, nextTx := s.dev.ra.nextTx + 1, beaconSeq := d.ra.beaconSeq, dueBeacons := d.ra.dueBeacons } })))
    ∧ (∀ t : Tx, s.dev.tx t.id = some t → t.kind = .beacon → t.stage ≠ .onAir → t.stage ≠ .rampDown → t.port < 32 → noneDisplaced s.dev t →
      (t.dueT + s.dev.panBeaconInt (t.pan.getD 0) / 4 ≤ s.dev.tempo → t.src = .none → s.dev.paused = false → Completes (.beaconSkip t.id) s (fun d => d.tx t.id = none
        ∧ d.get (F.MAC_BEACON_STAT_SKIPPED t.group) = min (s.dev.get (F.MAC_BEACON_STAT_SKIPPED t.group) + 1) (F.MAC_BEACON_STAT_SKIPPED t.group).top
        ∧ d.is (H.rawBit (0x18 + t.group) 5) = true ∧ d.tab.mem = s.dev.tab.mem ∧ d.rings = s.dev.rings ∧ d.cfg = s.dev.cfg))
      ∧ (s.dev.tempo < t.dueT + s.dev.panBeaconInt (t.pan.getD 0) / 4 → Completes (.beaconSkip t.id) s (fun d => d = s.dev)))
    ∧ (∀ (i : Fin 64) (x : Peer), s.dev.peer i = some x → s.dev.pw.phase = .run → s.dev.paused = false → x.blocks < 2 ^ 64 →
      (x.state = 1 → x.heardT + 3 * x.interval + s.dev.get (F.MAC_PEER_CFG_TOL x.group) ≤ s.dev.tempo → Completes (.peerAbsent i) s (fun d =>
        d.peer i = some { x with state := 2, absentT := s.dev.tempo } ∧ (∀ j, j ≠ i.val → d.peer j = s.dev.peer j) ∧ d.is (H.rawBit (0x18 + x.group) 3) = true
        ∧ Dev.OnlyRegs [H.irqRaw (0x18 + x.group)] { s.dev with ra := { s.dev.ra with peers := d.ra.peers } } d))
      ∧ (x.state = 1 → s.dev.tempo < x.heardT + 3 * x.interval + s.dev.get (F.MAC_PEER_CFG_TOL x.group) → Completes (.peerAbsent i) s (fun d => d = s.dev))
      ∧ (x.state = 2 → x.group < 4 → x.absentT + s.dev.get (F.MAC_PEER_CFG_HOLD_S x.group) * 4000 ≤ s.dev.tempo →
        (s.dev.is (F.MAC_PEER_CFG_AUTO_ADOPT x.group) = false → Completes (.peerAdoptable i) s (fun d => d.peer i = some { x with state := 3 }
          ∧ (∀ j, j ≠ i.val → d.peer j = s.dev.peer j) ∧ d.is (H.rawBit (0x18 + x.group) 7) = true
          ∧ Dev.OnlyRegs [H.irqRaw (0x18 + x.group)] { s.dev with ra := { s.dev.ra with peers := d.ra.peers } } d))
        ∧ (∀ p, s.dev.is (F.MAC_PEER_CFG_AUTO_ADOPT x.group) = true → s.dev.peerPan x = some p → Completes (.peerAdoptable i) s (fun d =>
            d.peer i = some { x with state := 4 } ∧ d.panBlocks p = s.dev.panBlocks p ||| x.blocks ∧ d.is (H.rawBit (0x18 + x.group) 7) = true
            ∧ (∀ q, q < 128 → q ≠ p → ∀ k, k < 9 → d.panWord q k = s.dev.panWord q k) ∧ d.tab.mem = s.dev.tab.mem ∧ d.ra.txs = s.dev.ra.txs)))
      ∧ (x.state = 3 →
        (s.dev.is (F.MAC_PEER_CFG_AUTO_ADOPT x.group) = false → Completes (.peerAdoptable i) s (fun d => d = s.dev))
        ∧ (∀ p, s.dev.is (F.MAC_PEER_CFG_AUTO_ADOPT x.group) = true → s.dev.peerPan x = some p → Completes (.peerAdoptable i) s (fun d =>
            d.peer i = some { x with state := 4 } ∧ d.panBlocks p = s.dev.panBlocks p ||| x.blocks
            ∧ (∀ q, q < 128 → q ≠ p → ∀ k, k < 9 → d.panWord q k = s.dev.panWord q k) ∧ d.tab.mem = s.dev.tab.mem ∧ d.ra.txs = s.dev.ra.txs))))
    ∧ (∀ r : Relay, s.dev.ra.relays.find? (fun x => x.id == r.id) = some r →
      (0 < s.dev.get F.SHEET_CFG_SUPPRESS_K → s.dev.get F.SHEET_CFG_SUPPRESS_K ≤ s.dev.memBits r.sheet 34 32 → Completes (.floodRelay r.id) s (fun d =>
        d.ra.relays = s.dev.ra.relays.filter (fun x => x.id != r.id) ∧ d.get F.SHEET_COUNT_B_CANCELLED = min (s.dev.get F.SHEET_COUNT_B_CANCELLED + 1) F.SHEET_COUNT_B_CANCELLED.top
        ∧ Dev.OnlyRegs [R.SHEET_COUNT_B] { s.dev with ra := { s.dev.ra with relays := d.ra.relays } } d))
      ∧ (s.dev.memBits r.sheet 34 32 < s.dev.get F.SHEET_CFG_SUPPRESS_K ∨ s.dev.get F.SHEET_CFG_SUPPRESS_K = 0 →
        (r.pan = none → Completes (.floodRelay r.id) s (fun d => d.ra.relays = s.dev.ra.relays.filter (fun x => x.id != r.id)
          ∧ d = { s.dev with ra := { s.dev.ra with relays := d.ra.relays } }))
        ∧ (∀ p, r.pan = some p → p < s.dev.ra.macSeq.length → s.dev.ra.macSeq.getD p 0 < 256 → Completes (.floodRelay r.id) s (fun d =>
            d.ra.relays = s.dev.ra.relays.filter (fun x => x.id != r.id)
            ∧ d.ra.macSeq.getD p 0 = (s.dev.ra.macSeq.getD p 0 + ((List.range 8).filter (fun k => bit (s.dev.panPorts p) k)).length) % 256
            ∧ d.ks = s.dev.ks ∧ d.cfg = s.dev.cfg ∧ d.tempo = s.dev.tempo ∧ d.rings = s.dev.rings ∧ d.rx = s.dev.rx))))

/-! ### The MAC commands (10, 11) -/

/-- The command of ring n has been executed and awaits its completion; nothing is completed, and no register changes. -/
def started (d d' : Dev) (n hseq : Nat) : Prop :=
  (d'.cmdOf n hseq).isSome = true ∧ (∀ op, d'.cmdFor n hseq op = none) ∧ d'.rings = d.rings ∧ d'.out = d.out ∧ d'.regs = d.regs
  ∧ d'.inflight.filter (fun c => !(c.ring == n && c.e.hseq == hseq)) = d.inflight.filter (fun c => !(c.ring == n && c.e.hseq == hseq))

/-- The command completes with this code and RESULT, and nothing else happens. -/
def answers (d d' : Dev) (n hseq code : Nat) (result : List Byte) : Prop := d.Completed d' n hseq code result ∧ d.OnlyCompletes [] d' n hseq

/-- A transmit command is refused: it completes with this code and cause, and with NOTIFY set DONE is raised (R286); nothing else happens. -/
def txRefuses (d d' : Dev) (n hseq code cause : Nat) (notify : Bool) : Prop :=
  d.Completed d' n hseq code (txResult cause none none 0 0) ∧ d.OnlyCompletes (if notify then [H.irqRaw 0x16] else []) d' n hseq
  ∧ (notify = true → d.paused = false → d'.is (H.rawBit 0x16 0) = true)

/-- Whether the parameters of MAC_SEND are in range (R327). -/
def macSendOk (d : Dev) (e : Entry) : Bool :=
  decide (e.p4 0 < 2 ^ 23) && decide (e.p2 4 ≤ 16383) && e.p2 6 != 0 && decide (d.dataPsdu (e.p4 0) (e.p2 6) ≤ phyMaxPsdu (d.panPhy (e.p4 0 / 65536)))
    && bufOk (e.p4 8) (e.p2 6) && decide (e.p1 12 ≤ 3) && e.zeroFrom 13

/-- Octets that a TX_RAW adds to its bytes: an FCS or CRCs that the device generates (R285). -/
def rawExtra (e : Entry) : Nat :=
  if bit (e.p1 2) 0 then (if isModeN (e.p1 1) then modeNCrc (bit (e.p1 2) 5) (e.p2 14) else fcsLen (e.p1 1) (e.p1 2)) else 0

/-- Whether the parameters of TX_RAW are in range (R285); an O-QPSK PSDU below 5 octets is not (R272; the model's reading, log entry 112). -/
def txRawOk (e : Entry) : Bool :=
  decide (e.p1 0 ≤ 31) && phyOnGroup (e.p1 1) (e.p1 0 / 8) && !bit (e.p1 2) 7
    && (isSun (e.p1 1) || !(bit (e.p1 2) 1 || bit (e.p1 2) 2 || bit (e.p1 2) 3 || bit (e.p1 2) 4)) && !(e.p1 1 == 0x15 && bit (e.p1 2) 3)
    && (!bit (e.p1 2) 4 || bit (e.p1 2) 3) && (isModeN (e.p1 1) || !bit (e.p1 2) 5)
    && (if isSun (e.p1 1) then e.p2 6 == 0 || (decide (4 ≤ e.p2 6) && decide (e.p2 6 ≤ 1000)) else e.p2 6 == 0)
    && bufOk (e.p4 16) (e.p2 14) && e.p2 14 != 0 && decide (e.p2 14 + rawExtra e ≤ phyMaxPsdu (e.p1 1)) && decide (e.p2 12 ≤ 16383)
    && !(e.p1 1 == 0x01 && decide (e.p2 14 + rawExtra e < 5))
    && e.p1 3 == 0 && e.p4 20 == 0 && e.zeroFrom 32

/-- Octets of a flood of n payload bytes in PAN p (R326). -/
def floodPsdu (d : Dev) (p ttl n : Nat) : Nat :=
  d.txPsdu (d.panTx p 0 .flood .step2 { MacFrame.blank with
    dst := .short 0xFFFF, ies := FloodHdr.octets ⟨0x18, ttl, d.panId p, 0, d.ra.floodSeq.getD p 0⟩ ++ ieEnd, payload := List.replicate n 0 })

/-- Whether the parameters of FLOOD_SEND are in range (R327). -/
def floodOk (d : Dev) (e : Entry) : Bool :=
  decide (e.p1 0 ≤ 127) && e.p1 1 != 0 && decide (e.p1 1 ≤ 31) && e.p2 2 != 0 && decide (floodPsdu d (e.p1 0) (e.p1 1) (e.p2 2) ≤ phyMaxPsdu (d.panPhy (e.p1 0)))
    && bufOk (e.p4 4) (e.p2 2) && e.zeroFrom 8

/-- The MAC commands (R285, R296, R303, R326, R327): TX_RAW, MAC_SEND and NODE_RELEASE build their frame and queue it at step 2, with the next
sequence number of its PAN, or refuse their parameters, a disabled PAN, port or an unknown node; NODE_TIMING reports a node's timing and marks one
found adrift; NODE_SCAN counts the nodes of a range; FLOOD_SEND originates a flood on each port of its PAN; PEER_ADOPT takes over a peer's blocks. -/
def Obligations.MacCommandsAct : Prop :=
  ∀ s : State, s.Inv → ∀ (n : Fin 8) (hseq : Nat) (e : Entry),
    (s.dev.cmdFor n hseq 0x0300 = some e →
      (txRawOk e = false → Completes (.txRaw n hseq) s (fun d => txRefuses s.dev d n hseq 0x01 0 (bit (e.p1 2) 6)))
      ∧ (txRawOk e = true → s.dev.inService (e.p1 0) = false → Completes (.txRaw n hseq) s (fun d => txRefuses s.dev d n hseq 0x03 5 (bit (e.p1 2) 6)))
      ∧ (txRawOk e = true → s.dev.inService (e.p1 0) = true → Completes (.txRaw n hseq) s (fun d => started s.dev d n hseq
          ∧ (∃ t : Tx, d.ra.txs = s.dev.ra.txs ++ [t] ∧ t.id = s.dev.ra.nextTx ∧ t.src = .ring n hseq ∧ t.kind = .raw ∧ t.stage = .step2 ∧ t.port = e.p1 0 ∧ t.phy = e.p1 1
            ∧ t.opts = e.p1 2 ∧ t.freq = e.p4 8 ∧ t.power = toSigned 16 (e.p2 4) ∧ t.flow = e.p2 12 ∧ t.due = e.p8 24 ∧ t.latest = e.latest
            ∧ t.notify = bit (e.p1 2) 6 ∧ t.bytes = s.dev.packed (e.p4 16) (e.p2 14) ∧ t.preamble = (if isSun (e.p1 1) then (if e.p2 6 = 0 then 8 else e.p2 6) else 0))
          ∧ d = { s.dev with inflight := d.inflight, ra := { s.dev.ra with txs := d.ra.txs, nextTx := s.dev.ra.nextTx + 1 } })))
    ∧ (∀ p h : Nat, p = e.p4 0 / 65536 → h = e.p4 0 → s.dev.ra.macSeq.length = 128 →
      (s.dev.cmdFor n hseq 0x0320 = some e →
        (macSendOk s.dev e = false → Completes (.macSend n hseq) s (fun d => txRefuses s.dev d n hseq 0x01 0 (bit (e.p1 12) 1)))
        ∧ (macSendOk s.dev e = true → s.dev.panEn p = false → Completes (.macSend n hseq) s (fun d => txRefuses s.dev d n hseq 0x03 0 (bit (e.p1 12) 1)))
        ∧ (macSendOk s.dev e = true → s.dev.panEn p = true → s.dev.validEntry h = none → Completes (.macSend n hseq) s (fun d =>
            txRefuses s.dev d n hseq 0x11 0 (bit (e.p1 12) 1)))
        ∧ (macSendOk s.dev e = true → s.dev.panEn p = true → (s.dev.validEntry h).isSome = true → Completes (.macSend n hseq) s (fun d => started s.dev d n hseq
            ∧ (∃ (t : Tx) (f : MacFrame), d.ra.txs = s.dev.ra.txs ++ [t] ∧ t.id = s.dev.ra.nextTx ∧ t.src = .ring n hseq ∧ t.kind = .data ∧ t.stage = .step2 ∧ t.pan = some p ∧ t.dest = some h
              ∧ t.flow = e.p2 4 ∧ t.latest = e.latest ∧ t.notify = bit (e.p1 12) 1 ∧ t.frame = some f ∧ f.ftype = 1 ∧ f.ackReq = bit (e.p1 12) 0 ∧ f.panId = s.dev.panId p
              ∧ f.dst = .short (h % 65536) ∧ f.seq = s.dev.ra.macSeq.getD p 0 ∧ f.payload = s.dev.packed (e.p4 8) (e.p2 6))
            ∧ d.ra.macSeq.getD p 0 = (s.dev.ra.macSeq.getD p 0 + 1) % 256
            ∧ d = { s.dev with inflight := d.inflight, ra := { s.dev.ra with txs := d.ra.txs, nextTx := s.dev.ra.nextTx + 1, macSeq := d.ra.macSeq } })))
      ∧ (s.dev.cmdFor n hseq 0x0321 = some e →
        ((2 ^ 23 ≤ h ∨ e.zeroFrom 4 = false) → Completes (.nodeRelease n hseq) s (fun d => answers s.dev d n hseq 0x01 (txResult 0 none none 0 0)))
        ∧ (h < 2 ^ 23 → e.zeroFrom 4 = true → s.dev.panEn p = false → Completes (.nodeRelease n hseq) s (fun d => answers s.dev d n hseq 0x03 (txResult 0 none none 0 0)))
        ∧ (h < 2 ^ 23 → e.zeroFrom 4 = true → s.dev.panEn p = true → s.dev.validEntry h = none → Completes (.nodeRelease n hseq) s (fun d =>
            answers s.dev d n hseq 0x11 (txResult 0 none none 0 0)))
        ∧ (h < 2 ^ 23 → e.zeroFrom 4 = true → s.dev.panEn p = true → (s.dev.validEntry h).isSome = true → Completes (.nodeRelease n hseq) s (fun d =>
            started s.dev d n hseq
            ∧ (∃ (t : Tx) (f : MacFrame), d.ra.txs = s.dev.ra.txs ++ [t] ∧ t.id = s.dev.ra.nextTx ∧ t.src = .ring n hseq ∧ t.kind = .release ∧ t.stage = .step2 ∧ t.pan = some p ∧ t.dest = some h
              ∧ t.flow = s.dev.get F.QMAP_CTRL_CTRL_FLOW ∧ t.latest = e.latest ∧ t.frame = some f ∧ f.ftype = 3 ∧ f.cmd = some 3 ∧ f.payload = [0x01] ∧ f.ackReq = true
              ∧ f.dst = .short (h % 65536) ∧ f.seq = s.dev.ra.macSeq.getD p 0)
            ∧ d.ra.macSeq.getD p 0 = (s.dev.ra.macSeq.getD p 0 + 1) % 256
            ∧ d = { s.dev with inflight := d.inflight, ra := { s.dev.ra with txs := d.ra.txs, nextTx := s.dev.ra.nextTx + 1, macSeq := d.ra.macSeq } })))
      ∧ (s.dev.cmdFor n hseq 0x0322 = some e →
        ((2 ^ 23 ≤ h ∨ e.zeroFrom 4 = false) → Completes (.nodeTiming n hseq) s (fun d => answers s.dev d n hseq 0x01 []))
        ∧ (h < 2 ^ 23 → e.zeroFrom 4 = true → s.dev.panEn p = false → Completes (.nodeTiming n hseq) s (fun d => answers s.dev d n hseq 0x03 []))
        ∧ (h < 2 ^ 23 → e.zeroFrom 4 = true → s.dev.panEn p = true → s.dev.validEntry h = none → Completes (.nodeTiming n hseq) s (fun d => answers s.dev d n hseq 0x11 []))
        ∧ (∀ x, h < 2 ^ 23 → e.zeroFrom 4 = true → s.dev.panEn p = true → s.dev.validEntry h = some x → s.dev.is F.DIR_TCLEAR_ACTIVE = false →
          (s.dev.panCheckin p = 0 → s.dev.eAnchor x = none → Completes (.nodeTiming n hseq) s (fun d =>
            answers s.dev d n hseq 0 [BitVec.ofNat 8 (4 * b2n (s.dev.eAdrift x))]))
          ∧ (∀ a u k : Nat, s.dev.panCheckin p = 0 → s.dev.eAnchor x = some a → s.dev.panWakePeriod p ≠ 0 → k = s.dev.sinceAnchor a * 100000000 / s.dev.periodUnits p x + 1 →
              u = (if s.dev.eHeard x && s.dev.pathUsable (s.dev.panGroup p) ⟨h, s.dev.eSector x, s.dev.eEntry x, s.dev.eChan x⟩
                then s.dev.lePhy (s.dev.panGroup p) (s.dev.eEntry x) else s.dev.panPhy p) →
              Completes (.nodeTiming n hseq) s (fun d => answers s.dev d n hseq 0
                (beBytes 1 (1 + 2 * b2n (s.dev.eDrift x).isSome + 4 * b2n (s.dev.eAdrift x)) ++ beBytes 1 0 ++ beBytes 2 (ofSigned 16 ((s.dev.eDrift x).getD 0))
                  ++ beBytes 4 (s.dev.guardUs p x u k) ++ beBytes 8 (s.dev.sysNs + (s.dev.untilAnchor a + s.dev.windowUs p x k - s.dev.sinceAnchor a) * 1000))))
          ∧ (0 < s.dev.panCheckin p → x < 6291456 → s.dev.eLastAge x = none → s.dev.eAdrift x = false → s.dev.paused = false → Completes (.nodeTiming n hseq) s (fun d =>
              ∃ r, s.dev.Completed d n hseq 0 r ∧ r.getD 0 0 = BitVec.ofNat 8 (b2n (s.dev.eAnchor x).isSome + 2 * b2n (s.dev.eDrift x).isSome + 4) ∧ d.eAdrift x = true
                ∧ d.get (F.MAC_ADRIFT_LAST_HANDLE (s.dev.panGroup p)) = h ∧ d.is (H.rawBit (0x18 + s.dev.panGroup p) 2) = true
                ∧ (∀ a, a ≠ 4 * x → d.mem a = s.dev.mem a))))))
    ∧ (s.dev.cmdFor n hseq 0x0323 = some e →
      ((127 < e.p1 0 ∨ e.p1 1 ≠ 0 ∨ e.p2 4 = 0 ∨ e.zeroFrom 6 = false) → Completes (.nodeScan n hseq) s (fun d => answers s.dev d n hseq 0x01 []))
      ∧ (e.p1 0 ≤ 127 → e.p1 1 = 0 → e.p2 4 ≠ 0 → e.zeroFrom 6 = true →
        (s.dev.panEn (e.p1 0) = false → Completes (.nodeScan n hseq) s (fun d => answers s.dev d n hseq 0x03 []))
        ∧ (s.dev.panEn (e.p1 0) = true → e.p2 4 ≤ 1024 → s.dev.ra.scans = [] → Completes (.nodeScan n hseq) s (fun d => ∃ fresh, s.dev.Completed d n hseq 0
            (beBytes 2 ((List.range (e.p2 4)).filter (fun k => (s.dev.validEntry (e.p1 0 * 65536 + (e.p2 2 + k) % 65536)).isSome)).length
              ++ beBytes 2 fresh ++ beBytes 2 ((e.p2 2 + e.p2 4) % 65536))
            ∧ d.ra.txs = s.dev.ra.txs ∧ d.ks = s.dev.ks ∧ d.cfg = s.dev.cfg ∧ d.tempo = s.dev.tempo))))
    ∧ (s.dev.cmdFor n hseq 0x0330 = some e →
      (floodOk s.dev e = false → Completes (.floodSend n hseq) s (fun d => answers s.dev d n hseq 0x01 []))
      ∧ (floodOk s.dev e = true → s.dev.panEn (e.p1 0) = false → Completes (.floodSend n hseq) s (fun d => answers s.dev d n hseq 0x03 []))
      ∧ (floodOk s.dev e = true → s.dev.panEn (e.p1 0) = true → s.dev.ra.floodSeq.length = 128 → s.dev.ra.macSeq.length = 128 → s.dev.ra.macSeq.getD (e.p1 0) 0 < 256 →
          Completes (.floodSend n hseq) s (fun d =>
            (∃ m, m ≤ ((List.range 8).filter (fun k => bit (s.dev.panPorts (e.p1 0)) k)).length
              ∧ s.dev.Completed d n hseq 0 (beBytes 2 (s.dev.ra.floodSeq.getD (e.p1 0) 0) ++ beBytes 1 m))
            ∧ d.ra.floodSeq.getD (e.p1 0) 0 = (s.dev.ra.floodSeq.getD (e.p1 0) 0 + 1) % 65536
            ∧ d.ra.macSeq.getD (e.p1 0) 0 = (s.dev.ra.macSeq.getD (e.p1 0) 0 + ((List.range 8).filter (fun k => bit (s.dev.panPorts (e.p1 0)) k)).length) % 256
            ∧ d.ks = s.dev.ks ∧ d.cfg = s.dev.cfg ∧ d.tempo = s.dev.tempo ∧ d.rx = s.dev.rx)))
    ∧ (s.dev.cmdFor n hseq 0x0331 = some e →
      ((63 < e.p1 0 ∨ e.zeroFrom 1 = false) → Completes (.peerAdopt n hseq) s (fun d => answers s.dev d n hseq 0x01 []))
      ∧ (e.p1 0 ≤ 63 → e.zeroFrom 1 = true →
        ((∀ x, s.dev.peer (e.p1 0) = some x → x.state ≠ 3) → Completes (.peerAdopt n hseq) s (fun d => answers s.dev d n hseq 0x03 []))
        ∧ (∀ x, s.dev.peer (e.p1 0) = some x → x.state = 3 →
          (s.dev.peerPan x = none → Completes (.peerAdopt n hseq) s (fun d => answers s.dev d n hseq 0x11 []))
          ∧ (∀ p, s.dev.peerPan x = some p → x.blocks < 2 ^ 64 → Completes (.peerAdopt n hseq) s (fun d =>
              s.dev.Completed d n hseq 0 (beBytes 1 p ++ beBytes 8 (s.dev.panBlocks p ||| x.blocks)) ∧ d.panBlocks p = s.dev.panBlocks p ||| x.blocks
              ∧ d.peer (e.p1 0) = some { x with state := 4 } ∧ (∀ j, j ≠ e.p1 0 → d.peer j = s.dev.peer j)
              ∧ (∀ q, q < 128 → q ≠ p → ∀ k, k < 9 → d.panWord q k = s.dev.panWord q k) ∧ d.ra.txs = s.dev.ra.txs ∧ d.tab.mem = s.dev.tab.mem ∧ d.ks = s.dev.ks)))))

/-! ### The key store (12) -/

/-- Whether an owner command carries the MAC of the owner key, and an OSEQ ahead of the last (R338). -/
def ownerSigned (d : Dev) (opcode : Nat) (e : Entry) : Bool :=
  match d.ks.owner with
  | some k => aesCmac k (beBytes 2 opcode ++ e.params.take 32) == e.params.drop 32
  | none => false
def ownerFresh (d : Dev) (e : Entry) : Bool :=
  decide (1 ≤ (e.p2 6 + 65536 - d.ks.oseq) % 65536) && decide ((e.p2 6 + 65536 - d.ks.oseq) % 65536 ≤ 32767)

/-- The key that an owner command carries wrapped (R350). -/
def carriedKey (d : Dev) (e : Entry) : Option (List Byte) := keyUnwrap d.ownerKey ((e.params.drop 8).take 24)

/-- The code of KEY_LOAD, 0 where it is accepted (R24, R338, R351). -/
def keyLoadCode (d : Dev) (e : Entry) : Nat :=
  if !ownerSigned d 0x0400 e || (carriedKey d e).isNone then 0x08
  else if decide (4095 < e.p2 0) || !(decide (1 ≤ e.p1 2) && decide (e.p1 2 ≤ 3)) || e.p1 3 == 0 || bit (e.p1 3) 0 || decide (127 < e.p1 4)
      || (if e.p1 2 = 1 then e.p1 5 != 0 else e.p1 5 == 0) then 0x01
  else if (d.keySlot (e.p2 0)).isSome || (e.p1 2 != 1 && d.ks.slots.any (fun k => k.state == 1 && k.pan == e.p1 4 && k.type == e.p1 2 && k.index == e.p1 5)) then 0x03
  else if !ownerFresh d e then 0x09 else 0

/-- The codes of OWNER_LOCK and OWNER_REKEY (R338, R339, R351). -/
def ownerLockCode (d : Dev) (e : Entry) : Nat :=
  if !ownerSigned d 0x0404 e then 0x08
  else if decide (1 < e.p1 0) || !((e.params.drop 1).take 5 ++ (e.params.drop 8).take 24).all (fun b => b == 0) then 0x01
  else if !ownerFresh d e then 0x09 else 0
def ownerRekeyCode (d : Dev) (e : Entry) : Nat :=
  if !ownerSigned d 0x0405 e || (carriedKey d e).isNone then 0x08
  else if !(e.params.take 6).all (fun b => b == 0) then 0x01
  else if !ownerFresh d e then 0x09 else 0

/-- The request being processed is answered with this STATUS and payload (R480, R483). -/
def responded (d d' : Dev) (status : Nat) (payload : List Byte) : Prop :=
  ∃ (type fseq : Nat) (p : List Byte), d.fw.request = some (type, fseq, p) ∧ d'.fw.request = none ∧ d'.fw.response = some (svcFrame type fseq status payload)
    ∧ d'.fw.stored = svcFrame type fseq status payload ∧ d'.get F.SVC_STAT_BUSY = 0 ∧ d'.get F.SVC_STAT_RESP_READY = 1 ∧ d'.get F.SVC_STAT_LAST_STATUS = status

/-- A slot is written to that of its two MRAM copies that does not hold the newer valid generation, with its CRC-32; every other slot's copies
stand (R335). -/
def copyWritten (d d' : Dev) (k : Nat) (P : SlotCopy → Prop) : Prop :=
  (∃ c : SlotCopy, c.valid = true ∧ P c
    ∧ d'.copiesOf k = (if newerCopy (d.copiesOf k).1 (d.copiesOf k).2 = some false then ((d.copiesOf k).1, c) else (c, (d.copiesOf k).2)))
  ∧ ∀ j, j ≠ k → d'.copiesOf j = d.copiesOf j

/-- The key store (R334 to R339, R343, R346, R347, R351): KEY_LOAD, OWNER_LOCK and OWNER_REKEY take effect where the owner's MAC, the key's
integrity and OSEQ hold, and OWNER_REKEY closes every session; KEY_ERASE empties a slot that nothing uses; KEY_BIND points an entry at a key;
KEY_INFO reports a slot; a reserved block of counters is taken, or fails and is retried; OWNER_INIT sets the owner key once. -/
def Obligations.KeyStoreActs : Prop :=
  ∀ s : State, s.Inv →
    (∀ (n : Fin 8) (hseq : Nat) (e : Entry), s.dev.paused = false →
      (s.dev.cmdFor n hseq 0x0400 = some e → Completes (.keyLoad n hseq) s (fun d =>
        if keyLoadCode s.dev e = 0 then
          d.keySlot (e.p2 0) = some { slot := e.p2 0, state := 1, type := e.p1 2, levels := e.p1 3, pan := e.p1 4, index := e.p1 5, gen := (s.dev.slotGen (e.p2 0) + 1) % 256, key := (carriedKey s.dev e).getD [], next := 0, block := 0, refs := 0, reserving := false, failed := false, warned := false, stallT := 0, retryT := 0 }
          ∧ copyWritten s.dev d (e.p2 0) (fun c => c.state = 1 ∧ c.gen = (s.dev.slotGen (e.p2 0) + 1) % 256 ∧ c.type = e.p1 2 ∧ c.levels = e.p1 3 ∧ c.pan = e.p1 4
              ∧ c.index = e.p1 5 ∧ c.block = 0 ∧ c.wrapped = keyWrap (s.dev.ks.deviceKey.getD []) ((carriedKey s.dev e).getD []))
          ∧ (∀ j, j ≠ e.p2 0 → d.keySlot j = s.dev.keySlot j) ∧ d.ks.oseq = e.p2 6 ∧ d.ks.owner = s.dev.ks.owner ∧ d.ks.lock = s.dev.ks.lock
          ∧ s.dev.Completed d n hseq 0 (beBytes 2 (e.p2 0) ++ beBytes 1 ((s.dev.slotGen (e.p2 0) + 1) % 256)) ∧ d.is (H.rawBit 0x0F 8) = true
          ∧ Dev.OnlyCompletes [H.irqRaw 0x0F] { s.dev with ks := d.ks } d n hseq
        else answers s.dev d n hseq (keyLoadCode s.dev e) []))
      ∧ (s.dev.cmdFor n hseq 0x0401 = some e →
        (s.dev.ks.lock = true → Completes (.keyErase n hseq) s (fun d => answers s.dev d n hseq 0x0D []))
        ∧ (s.dev.ks.lock = false →
          ((4095 < e.p2 0 ∨ e.zeroFrom 2 = false) → Completes (.keyErase n hseq) s (fun d => answers s.dev d n hseq 0x01 []))
          ∧ (e.p2 0 ≤ 4095 → e.zeroFrom 2 = true →
            (s.dev.frameRefs (e.p2 0) < s.dev.slotRefs (e.p2 0) → Completes (.keyErase n hseq) s (fun d => answers s.dev d n hseq 0x03 []))
            ∧ (s.dev.slotRefs (e.p2 0) = s.dev.frameRefs (e.p2 0) → 0 < s.dev.frameRefs (e.p2 0) → Completes (.keyErase n hseq) s (fun d => answers s.dev d n hseq 0x06 []))
            ∧ (s.dev.slotRefs (e.p2 0) = 0 → Completes (.keyErase n hseq) s (fun d => s.dev.Completed d n hseq 0 [] ∧ d.keySlot (e.p2 0) = none
                ∧ d.slotGen (e.p2 0) = (s.dev.slotGen (e.p2 0) + 1) % 256
                ∧ copyWritten s.dev d (e.p2 0) (fun c => c.state = 0 ∧ c.gen = (s.dev.slotGen (e.p2 0) + 1) % 256 ∧ c.wrapped = []) ∧ (∀ j, j ≠ e.p2 0 → d.keySlot j = s.dev.keySlot j ∧ d.slotGen j = s.dev.slotGen j)
                ∧ d.is (H.rawBit 0x0F 8) = true ∧ d.ks.owner = s.dev.ks.owner ∧ d.ks.oseq = s.dev.ks.oseq
                ∧ Dev.OnlyCompletes [H.irqRaw 0x0F] { s.dev with ks := d.ks } d n hseq)))))
      ∧ (s.dev.cmdFor n hseq 0x0402 = some e →
        ((2 ^ 23 ≤ e.p4 0 ∨ 4095 < e.p2 4 ∨ 1 < e.p1 6 ∨ e.zeroFrom 7 = false) → Completes (.keyBind n hseq) s (fun d => answers s.dev d n hseq 0x01 []))
        ∧ (e.p4 0 < 2 ^ 23 → e.p2 4 ≤ 4095 → e.p1 6 ≤ 1 → e.zeroFrom 7 = true →
          (s.dev.activeSlot (e.p2 4) [1, 2] (e.p4 0 / 65536) = false → Completes (.keyBind n hseq) s (fun d => answers s.dev d n hseq 0x03 []))
          ∧ (s.dev.activeSlot (e.p2 4) [1, 2] (e.p4 0 / 65536) = true → s.dev.validEntry (e.p4 0) = none → Completes (.keyBind n hseq) s (fun d =>
              answers s.dev d n hseq 0x11 []))
          ∧ (∀ (x : Nat) (k : KeySlot), s.dev.activeSlot (e.p2 4) [1, 2] (e.p4 0 / 65536) = true → s.dev.validEntry (e.p4 0) = some x → s.dev.keySlot (e.p2 4) = some k →
              Completes (.keyBind n hseq) s (fun d => s.dev.Completed d n hseq 0 (beBytes 2 ((s.dev.eKey x).getD 0xFFFF)) ∧ d.eKey x = some (e.p2 4)
                ∧ (s.dev.eKey x ≠ some (e.p2 4) → d.keySlot (e.p2 4) = some { k with refs := k.refs + 1 })
                ∧ (e.p1 6 = 1 → d.eHwm x = none) ∧ (e.p1 6 = 0 → d.eHwm x = s.dev.eHwm x)
                ∧ (∀ a, a ≠ 4 * x → a ≠ 4 * x + 1 → a ≠ 4 * x + 2 → d.mem a = s.dev.mem a) ∧ d.tab.blockMap = s.dev.tab.blockMap
                ∧ Dev.OnlyCompletes [] { s.dev with ks := d.ks, tab := d.tab } d n hseq))))
      ∧ (s.dev.cmdFor n hseq 0x0403 = some e →
        ((4095 < e.p2 0 ∨ e.zeroFrom 2 = false) → Completes (.keyInfo n hseq) s (fun d => answers s.dev d n hseq 0x01 []))
        ∧ (e.p2 0 ≤ 4095 → e.zeroFrom 2 = true →
          (s.dev.keySlot (e.p2 0) = none → Completes (.keyInfo n hseq) s (fun d => answers s.dev d n hseq 0 []))
          ∧ (∀ k, s.dev.keySlot (e.p2 0) = some k → Completes (.keyInfo n hseq) s (fun d => answers s.dev d n hseq 0
              (beBytes 1 k.state ++ beBytes 1 k.type ++ beBytes 1 k.levels ++ beBytes 1 k.pan ++ beBytes 1 k.index ++ beBytes 1 k.gen ++ beBytes 2 0 ++ beBytes 4 k.next
                ++ beBytes 2 k.block ++ beBytes 2 0)))))
      ∧ (s.dev.cmdFor n hseq 0x0404 = some e → Completes (.ownerLock n hseq) s (fun d =>
        if ownerLockCode s.dev e = 0 then
          d.ks = { s.dev.ks with lock := e.p1 0 == 1, oseq := e.p2 6 } ∧ s.dev.Completed d n hseq 0 (beBytes 1 (e.p1 0)) ∧ d.is (H.rawBit 0x0F 8) = true
          ∧ Dev.OnlyCompletes [H.irqRaw 0x0F] { s.dev with ks := d.ks } d n hseq
        else answers s.dev d n hseq (ownerLockCode s.dev e) []))
      ∧ (s.dev.cmdFor n hseq 0x0405 = some e → Completes (.ownerRekey n hseq) s (fun d =>
        if ownerRekeyCode s.dev e = 0 then
          d.ks = { s.dev.ks with owner := carriedKey s.dev e, oseq := e.p2 6 } ∧ d.sessions = [] ∧ s.dev.Completed d n hseq 0 [] ∧ d.is (H.rawBit 0x0F 8) = true
          ∧ d.tab.mem = s.dev.tab.mem ∧ d.ra = s.dev.ra ∧ d.cfg = s.dev.cfg ∧ d.pw = s.dev.pw
        else answers s.dev d n hseq (ownerRekeyCode s.dev e) [])))
    ∧ (∀ (k : Fin 4096) (x : KeySlot), s.dev.keySlot k = some x → s.dev.paused = false →
      (x.reserving = true → x.failed = false → (∀ t ∈ s.dev.ra.txs, t.stage = .fcntWait → t.key ≠ some k.val) → Completes (.fcntReserveDone k true) s (fun d =>
          d.keySlot k = some { x with block := x.block + 1, reserving := false, failed := false, gen := (x.gen + 1) % 256, warned := x.warned || decide (s.dev.get F.SEC_CFG_WARN_BLOCK ≤ x.block + 1) }
          ∧ (∀ j, j ≠ k.val → d.keySlot j = s.dev.keySlot j)
          ∧ copyWritten s.dev d k (fun c => c.block = x.block + 1 ∧ c.gen = (x.gen + 1) % 256 ∧ c.wrapped = keyWrap (s.dev.ks.deviceKey.getD []) x.key)
          ∧ d.get F.SEC_FCNT_STAT_RESERVED = min (s.dev.get F.SEC_FCNT_STAT_RESERVED + 1) F.SEC_FCNT_STAT_RESERVED.top ∧ d.is (H.rawBit 0x0F 9) = true
          ∧ (x.warned = false → s.dev.get F.SEC_CFG_WARN_BLOCK ≤ x.block + 1 → d.is (H.rawBit 0x0F 6) = true)
          ∧ Dev.OnlyRegs [R.SEC_FCNT_STAT, H.irqRaw 0x0F] { s.dev with ks := d.ks } d))
      ∧ ((x.reserving = false ∨ x.failed = true) → (∀ t ∈ s.dev.ra.txs, t.stage = .fcntWait → t.key ≠ some k.val) → Completes (.fcntReserveDone k true) s (fun d => d = s.dev))
      ∧ (x.reserving = true → x.failed = false → Completes (.fcntReserveDone k false) s (fun d => d.keySlot k = some { x with reserving := true, failed := true, retryT := s.dev.tempo + 1 }
          ∧ (∀ j, j ≠ k.val → d.keySlot j = s.dev.keySlot j) ∧ d = { s.dev with ks := d.ks }))
      ∧ ((x.reserving = false ∨ x.failed = true) → Completes (.fcntReserveDone k false) s (fun d => d = s.dev))
      ∧ (x.failed = true → x.retryT ≤ s.dev.tempo → Completes (.fcntReserveRetry k) s (fun d => d.keySlot k = some { x with reserving := true, failed := false }
          ∧ (∀ j, j ≠ k.val → d.keySlot j = s.dev.keySlot j) ∧ d = { s.dev with ks := d.ks }))
      ∧ ((x.failed = false ∨ s.dev.tempo < x.retryT) → Completes (.fcntReserveRetry k) s (fun d => d = s.dev)))
    ∧ (∀ (fseq : Nat) (p : List Byte), s.dev.fw.request = some (0x07, fseq, p) → s.dev.awake = true → s.dev.paused = false →
      (s.dev.ks.owner = none → Completes .ownerInit s (fun d => responded s.dev d 0 [] ∧ d.ks = { s.dev.ks with owner := some (p.take 16), oseq := 0 }
          ∧ d.pw = { s.dev.pw with zeroised := false } ∧ d.get F.BIST_TEST_ZEROISED = 0 ∧ d.is (H.rawBit 0x0F 8) = true
          ∧ Dev.OnlyRegs [R.SVC_STAT, R.BIST_TEST, H.irqRaw 0x0F] { s.dev with ks := d.ks, pw := d.pw, fw := d.fw } d))
      ∧ (s.dev.ks.owner ≠ none → Completes .ownerInit s (fun d => responded s.dev d 0x03 [] ∧ Dev.OnlyRegs [R.SVC_STAT] { s.dev with fw := d.fw } d)))

/-! ### The tempo boundary and traffic (01, 14, 15) -/

/-- Nothing waits for this boundary to take effect, no frame is on its way, no guaranteed slice is left, and no dry admission or calibration
request is outstanding. -/
def quietBoundary (d : Dev) : Prop :=
  d.resetting = [] ∧ d.sch.pending = [] ∧ d.rx.pending = none ∧ (∀ x ∈ d.ra.panPending, x = none) ∧ d.ra.profPending = [] ∧ d.ra.setPending = none
  ∧ d.ra.vault.burn = none ∧ d.ra.txs = [] ∧ d.bg.granted = [] ∧ d.ln.dry = none ∧ ∀ g : Fin 4, (d.calg g).req = none

/-- A frame refused at step 2 has ended with this code and cause, and its flow has counted it as dropped (R407). -/
def refusedAt (d d' : Dev) (t : Tx) (f n hseq code cause : Nat) : Prop :=
  d'.tx t.id = none ∧ d.Completed d' n hseq code (txResult cause t.index none 0 0) ∧ d'.fDropped f = min (d.fDropped f + 1) 65535 ∧ d'.fDepth f = d.fDepth f

/-- The boundary, guaranteed slices, and traffic scheduling (R39, R44, R401 to R422, R424, R426): TEMPO_BOUNDARY ends the tempo with its counts
begun again and a late closure recorded; a guaranteed slice is taken once; a frame at step 2 is refused with its cause or queued in its flow; a
port selects the head of the flow whose turn it is; QSCH_FLUSH empties a flow; a backhaul port sends the frame its queues give it; CELL_SCAN
returns a discarded flow's cells. -/
def Obligations.BoundaryAndTrafficAct : Prop :=
  ∀ s : State, s.Inv →
    (∀ (tj : BitVec 8) (vin : BitVec 16) (vbak : BitVec 10) (hwLate : Bool),
      (s.dev.awake = false → Completes (.tempoBoundary tj vin vbak hwLate) s (fun d => d = s.dev))
      ∧ (s.dev.awake = true → quietBoundary s.dev → Completes (.tempoBoundary tj vin vbak hwLate) s (fun d => d.tempo = s.dev.tempo + 1 ∧ d.cycle = 0
          ∧ (s.dev.bh.slew = 0 → d.systime = (s.dev.systime + (100000 - s.dev.cycle) * (5 * 2 ^ 31)) % 2 ^ 96)
          ∧ d.get F.PWR_THERM_TJ = tj.toNat ∧ d.get F.PWR_SUPPLY_VIN = vin.toNat ∧ d.get F.PWR_SUPPLY_VBAK = vbak.toNat
          ∧ d.ra.admitUsed = 0 ∧ d.ra.admitLimit = d.get F.SYS_OPENING_ADMIT ∧ d.pw.rxRestart = false ∧ d.bh.evSent = [] ∧ (∀ u ∈ d.sessions, u.paced = 0)
          ∧ d.ra.dutyEnded = List.replicate 32 0
          ∧ (∀ k : Fin 32, 0 < (s.dev.ra.duty.getD k []).length → (d.ra.duty.getD k []).getD 0 0 = (s.dev.ra.duty.getD k []).getD 0 0 + s.dev.ra.dutyEnded.getD k 0)
          ∧ (hwLate = true → s.dev.paused = false → d.is F.SYS_OVERRUN_HW_LATE = true ∧ d.is (H.rawBit 0x00 0) = true
            ∧ d.get F.SYS_OVERRUN_COUNT = min (s.dev.get F.SYS_OVERRUN_COUNT + 1) F.SYS_OVERRUN_COUNT.top)
          ∧ (hwLate = false → s.dev.ln.marked = true → d.get F.SYS_OVERRUN_COUNT = s.dev.get F.SYS_OVERRUN_COUNT))))
    ∧ (∀ (rank : Fin 6) (errs : List LineError) (fault : Fin 9) (loc : Fin 64), s.dev.awake = true → s.dev.paused = false →
      (s.dev.bg.granted.contains rank.val = false → Completes (.guaranteedSlice rank errs ⟨fault, loc⟩) s (fun d => d = s.dev))
      ∧ (s.dev.bg.granted.contains rank.val = true → Completes (.guaranteedSlice rank errs ⟨fault, loc⟩) s (fun d =>
          d.bg.granted = s.dev.bg.granted.filter (fun r => r != rank.val) ∧ d.tempo = s.dev.tempo ∧ d.bg.due = s.dev.bg.due
          ∧ (rank = 0 → (∀ g : Fin 4, s.dev.calCan g = false) → d = { s.dev with bg := { s.dev.bg with granted := d.bg.granted } })
          ∧ (rank = 0 → s.dev.cal.length = 4 → s.dev.holdsSlice 0 = true → (∀ g : Fin 4, s.dev.calCan g = true → (s.dev.calg g).again = false ∧ (s.dev.calg g).load = 0) →
              (∀ g : Fin 4, s.dev.calCan g = true → d.get (F.CAL_GSTAT_STEPS_LEFT g) + 1 = s.dev.get (F.CAL_GSTAT_STEPS_LEFT g)
                ∨ ((d.calg g).again = true ∧ d.get (F.CAL_GSTAT_STEPS_LEFT g) = s.dev.get (F.CAL_GSTAT_STEPS_LEFT g)))
              ∧ (∀ g : Fin 4, s.dev.calCan g = false → d.calg g = s.dev.calg g ∧ d.rd (R.CAL_GSTAT g) = s.dev.rd (R.CAL_GSTAT g))
              ∧ d.ra = s.dev.ra ∧ d.tab.mem = s.dev.tab.mem ∧ d.ks = s.dev.ks ∧ d.cfg = s.dev.cfg ∧ d.out = s.dev.out)
          ∧ (rank = 2 → ∀ g : Fin 4, s.dev.enabled (0x24 + g) = true → s.dev.is (F.FWD_CFG_SWEEP_EN g) = true →
              d.get (F.FWD_SWEEP_POS_POS g) = (s.dev.get (F.FWD_SWEEP_POS_POS g) + 32) % 262144)
          ∧ (rank = 3 → d.tab.telemQueue = s.dev.tab.telemQueue.drop 64)
          ∧ (rank = 5 → d.pw.runtimeSlice = (if s.dev.pw.runtimeSlice + 1 = 54 then 0 else s.dev.pw.runtimeSlice + 1)
            ∧ d.get F.BIST_RUNTIME_PASSES = (if s.dev.pw.runtimeSlice + 1 = 54 then min (s.dev.get F.BIST_RUNTIME_PASSES + 1) F.BIST_RUNTIME_PASSES.top
                else s.dev.get F.BIST_RUNTIME_PASSES)
            ∧ (fault ≠ 0 → d.is (H.rawBit 0x03 0) = true ∧ d.get F.BIST_RUNTIME_LAST_CODE = fault)))))
    ∧ (s.dev.bg.granted.contains 0 = false → s.dev.reserveCal = s.dev)
    ∧ (s.dev.bg.granted.contains 0 = true → s.dev.cal.length = 4 →
        (∀ g : Fin 4, s.dev.calCan g = true → 4 ≤ s.dev.calItem g → (s.dev.reserveCal.calg g).load = loadMw (hwMax g))
        ∧ (∀ g : Fin 4, s.dev.calCan g = false ∨ s.dev.calItem g < 4 → s.dev.reserveCal.calg g = s.dev.calg g)
        ∧ Dev.OnlyRegs [R.VAULT_RF_LOAD] { s.dev with cal := s.dev.reserveCal.cal, tab := { s.dev.tab with telemRf := s.dev.reserveCal.tab.telemRf } } s.dev.reserveCal)
    ∧ ((∀ t ∈ s.dev.ra.txs, t.stage ≠ .step2) → Completes .downlinkAdmission s (fun d => d = s.dev))
    ∧ (∀ (t u : Tx) (f n hseq : Nat), s.dev.ra.txs.find? (fun t => t.stage == .step2) = some t → t.pkt = 0 → t.dest = none → n < 8 → rawTx s.dev t n hseq →
      u = s.dev.sized t → f = s.dev.flowFor t.flow t.port → f < 16384 →
      (s.dev.enabled 0x28 = false → Completes .downlinkAdmission s (fun d => txEnded s.dev d t n hseq 0x03 (txResult 6 t.index none 0 0)))
      ∧ (s.dev.enabled 0x28 = true → s.dev.flowPort f ≠ t.port → Completes .downlinkAdmission s (fun d => txEnded s.dev d t n hseq 0x01 (txResult 18 t.index none 0 0)))
      ∧ (s.dev.enabled 0x28 = true → s.dev.flowPort f = t.port →
        (s.dev.flowMode f = 1 → s.dev.fP f < 0 → Completes .downlinkAdmission s (fun d => refusedAt s.dev d t f n hseq 0x06 15))
        ∧ (¬(s.dev.flowMode f = 1 ∧ s.dev.fP f < 0) →
          (s.dev.get (F.QFLOW_LIMIT_LIMIT.at f) < s.dev.fDepth f + 1 → Completes .downlinkAdmission s (fun d => refusedAt s.dev d t f n hseq 0x12 16))
          ∧ (s.dev.fDepth f + 1 ≤ s.dev.get (F.QFLOW_LIMIT_LIMIT.at f) →
            (s.dev.cellsFit true u.cells = false → Completes .downlinkAdmission s (fun d => refusedAt s.dev d t f n hseq 0x07 17))
            ∧ (s.dev.cellsFit true u.cells = true → s.dev.fDepth f < 65535 → s.dev.fCells f + u.cells < 2 ^ 18 → Completes .downlinkAdmission s (fun d =>
                d.tx t.id = some { u with stage := .queued, flow := f, cls := s.dev.flowClass f, admitT := s.dev.tempo }
                ∧ d.fDepth f = s.dev.fDepth f + 1 ∧ d.fCells f = s.dev.fCells f + u.cells ∧ d.heldDown = s.dev.heldDown + u.cells
                ∧ (∀ i, i ≠ t.id → d.tx i = s.dev.tx i) ∧ d.inflight = s.dev.inflight ∧ d.out = s.dev.out ∧ d.rings = s.dev.rings))))))
    ∧ (∀ p : Fin 32,
      (s.dev.maySelect p = false → Completes (.frameSelection p) s (fun d => d = s.dev))
      ∧ (s.dev.maySelect p = true → (∀ t ∈ s.dev.ra.txs, t.stage = .queued → t.latest = 0 ∨ s.dev.sysNs ≤ t.latest) →
        (s.dev.pickClass p = none → Completes (.frameSelection p) s (fun d => d = s.dev))
        ∧ (∀ (q f : Nat) (c : Bool) (t : Tx), s.dev.pickClass p = some (q, f, c) → s.dev.headOf f = some t → s.dev.tx t.id = some t → f < 16384 →
            s.dev.sch.selected.length = 32 → Completes (.frameSelection p) s (fun d => d.tx t.id = some { t with stage := .step4 }
            ∧ (∀ i, i ≠ t.id → d.tx i = s.dev.tx i) ∧ d.vtime q = s.dev.fTag f ∧ d.fDepth f = s.dev.fDepth f - 1
            ∧ d.get (F.QPCLS_COUNT_SELECTED.at q) = min (s.dev.get (F.QPCLS_COUNT_SELECTED.at q) + 1) F.QPCLS_COUNT_SELECTED.top
            ∧ d.sch.selected.getD p 0 = s.dev.sch.selected.getD p 0 + 1 ∧ d.fSent f = min (s.dev.fSent f + 1) 65535
            ∧ d.inflight = s.dev.inflight ∧ d.out = s.dev.out ∧ d.heldDown = s.dev.heldDown))))
    ∧ (∀ (n : Fin 8) (hseq : Nat) (e : Entry), s.dev.cmdFor n hseq 0x0600 = some e →
      ((16383 < e.p2 0 ∨ e.zeroFrom 2 = false) → Completes (.qschFlush n hseq) s (fun d => answers s.dev d n hseq 0x01 []))
      ∧ (e.p2 0 ≤ 16383 → e.zeroFrom 2 = true → (∀ t ∈ s.dev.flowFrames (e.p2 0), t.src = .none ∧ t.kind = .packet) →
          Completes (.qschFlush n hseq) s (fun d => s.dev.Completed d n hseq 0 (beBytes 4 (s.dev.flowFrames (e.p2 0)).length)
            ∧ d.flowFrames (e.p2 0) = [] ∧ d.fTag (e.p2 0) = s.dev.fTag (e.p2 0)
            ∧ (∀ f, f ≠ e.p2 0 → f < 16384 → d.fDepth f = s.dev.fDepth f ∧ d.fTag f = s.dev.fTag f) ∧ d.tempo = s.dev.tempo ∧ d.ks = s.dev.ks ∧ d.cfg = s.dev.cfg))
      ∧ (e.p2 0 ≤ 16383 → e.zeroFrom 2 = true → s.dev.flowFrames (e.p2 0) = [] → Completes (.qschFlush n hseq) s (fun d => answers s.dev d n hseq 0 (beBytes 4 0))))
    ∧ (∀ p : Fin 2,
      ((s.dev.portHears p = false ∨ s.dev.paused = true ∨ s.dev.egrPick p = none) → Completes (.egressService p) s (fun d => d = s.dev))
      ∧ (∀ (e : Nat) (x : EgrFrame), s.dev.portHears p = true → s.dev.paused = false → s.dev.egrPick p = some e → (s.dev.egrFrames e).head? = some x →
        (∀ (k : IpPacket) (m : Nat), x.body = .ip k → s.dev.gateway p = some m → Completes (.egressService p) s (fun d =>
          d.out = .backhaulIp p (e % 64) m (s.dev.vlanTag p (e % 64 / 8)) k :: s.dev.out ∧ d.egrFrames e = (s.dev.egrFrames e).tail ∧ (∀ j, j ≠ e → d.egrFrames j = s.dev.egrFrames j)
          ∧ d.heldUp = s.dev.heldUp - x.cells ∧ d.get (F.QEGR_COUNT_SENT.at e) = min (s.dev.get (F.QEGR_COUNT_SENT.at e) + 1) F.QEGR_COUNT_SENT.top
          ∧ d.get (F.BHL_FRAMES_TX p) = min (s.dev.get (F.BHL_FRAMES_TX p) + 1) (F.BHL_FRAMES_TX p).top ∧ d.sessions = s.dev.sessions))
        ∧ (∀ k : IpPacket, x.body = .ip k → s.dev.gateway p = none → Completes (.egressService p) s (fun d =>
          d.out = s.dev.out ∧ d.egrFrames e = (s.dev.egrFrames e).tail ∧ d.get (F.BHL_DROP_BAD p) = min (s.dev.get (F.BHL_DROP_BAD p) + 1) (F.BHL_DROP_BAD p).top))
        ∧ (∀ (uid addr udp : Nat) (b : List Byte), x.body = .datagram uid addr udp b → Completes (.egressService p) s (fun d =>
          d.egrFrames e = (s.dev.egrFrames e).tail
          ∧ d.sessions = s.dev.sessions.map (fun (u : Session) => if u.uid == uid then { u with paced := u.paced + 1, lastTxT := s.dev.tempo } else u)
          ∧ d.get (F.BHL_FRAMES_TX p) = min (s.dev.get (F.BHL_FRAMES_TX p) + udpFrames b.length) (F.BHL_FRAMES_TX p).top
          ∧ (b.length ≤ udpMost → d.out = .datagram p (s.dev.vlanTag p 6) addr udp b :: s.dev.out)
          ∧ (udpMost < b.length → ∃ id, id < 2 ^ 32
              ∧ d.out = ((udpParts b.length).map (fun y => Out.datagramPart p (s.dev.vlanTag p 6) addr udp id y.1 y.2 (udpPart b y.1))).reverse ++ s.dev.out)))))
    ∧ Completes .cellScan s (fun d => d.heldDown = s.dev.heldDown - s.dev.sch.orphanCells ∧ d.sch.orphanCells = 0 ∧ d.heldUp = s.dev.heldUp
        ∧ d.get F.QSCH_BUF_FREE_FREE = 192512 - (s.dev.heldDown - s.dev.sch.orphanCells) - s.dev.heldUp
        ∧ d.ra = s.dev.ra ∧ d.tab.mem = s.dev.tab.mem ∧ d.sch.egress = s.dev.sch.egress ∧ d.inflight = s.dev.inflight ∧ d.out = s.dev.out)

/-! ### Backhaul, 6LoWPAN, PTP and PCI Express (15) -/

/-- A frame that arrives on a port is counted, and one whose tag does not fit is dropped (R437): otherwise P holds. -/
def heard (d d' : Dev) (p : Nat) (tag : Option Nat) (P : Prop) : Prop :=
  d'.get (F.BHL_FRAMES_RX p) = min (d.get (F.BHL_FRAMES_RX p) + 1) (F.BHL_FRAMES_RX p).top
  ∧ (if d.vlanOk p tag then P else d'.get (F.BHL_DROP_BAD p) = min (d.get (F.BHL_DROP_BAD p) + 1) (F.BHL_DROP_BAD p).top
      ∧ d.OnlyRegs [R.BHL_FRAMES p, R.BHL_DROP p] d')

/-- An answer of the port to a message for an own address; a message for any other address is dropped (R436, R438). -/
def ownAnswer (d d' : Dev) (p target : Nat) (o : Out) : Prop :=
  (if d.ownAddr p target then d'.out = o :: d.out ∧ d'.get (F.BHL_FRAMES_TX p) = min (d.get (F.BHL_FRAMES_TX p) + 1) (F.BHL_FRAMES_TX p).top
    else d'.out = d.out ∧ d'.get (F.BHL_DROP_BAD p) = min (d.get (F.BHL_DROP_BAD p) + 1) (F.BHL_DROP_BAD p).top)
  ∧ Dev.OnlyRegs [R.BHL_FRAMES p, R.BHL_DROP p] { d with out := d'.out } d'

/-- A drop of the 6LoWPAN engine with its cause is recorded and raised (R442). -/
def lowDrop (d d' : Dev) (cause : Nat) : Prop :=
  d'.get F.LOWPAN_ERR_COUNT = min (d.get F.LOWPAN_ERR_COUNT + 1) F.LOWPAN_ERR_COUNT.top ∧ d'.get F.LOWPAN_ERR_LAST_CAUSE = cause ∧ d'.is (H.rawBit 0x33 0) = true

/-- Lock to PTP is lost, if there was any (R453). -/
def lockLost (d d' : Dev) : Prop :=
  d'.is F.PTP_SERVO_LOCKED = false ∧ d'.bh.within = 0 ∧ (d.is F.PTP_SERVO_LOCKED = true → d'.is F.CLK_STAT_CMP_PTP = false ∧ d'.is (H.rawBit 0x32 1) = true)

/-- The registers that a change of a port's link or module supply may write. -/
def linkKeys (p : Nat) : List Nat := [R.BHL_LINK p, H.irqRaw (0x30 + p), R.PTP_SERVO, R.CLK_STAT, H.irqRaw 0x32]

/-- Backhaul ports, 6LoWPAN, time and the PCI Express link (R66 to R68, R434 to R442, R451 to R457): a link is up only where its port is enabled
and supplied; a module's supply follows its presence and the over-current shut-off; module memory is read or refused; a solicitation and an echo
request are answered for an own address; a Router Advertisement sets the gateway; a packet is routed into the mesh or dropped with its cause;
exchanges step or slew SYSTIME and gain lock, and time-outs lose it; PPS_IN latches SYSTIME and PPS_OUT rises on the second; PCI Express resets
stop its rings and mask MSI-X, and its link comes up out of reset, with the clock, once the endpoint may train. -/
def Obligations.BackhaulAndTimeAct : Prop :=
  ∀ s : State, s.Inv → s.dev.paused = false →
    (∀ (p : Fin 2) (up fec : Bool),
      (s.dev.awake = false → Completes (.linkChange p up fec) s (fun d => d = s.dev))
      ∧ (s.dev.awake = true → Completes (.linkChange p up fec) s (fun d =>
          d.is (F.BHL_LINK_UP p) = (up && s.dev.enabled (0x30 + p) && s.dev.is (F.BHL_LINK_VSFP p) && (fec || !s.dev.rate25 p))
          ∧ d.is (F.BHL_LINK_FEC_LOCK p) = (fec && s.dev.rate25 p)
          ∧ (d.is (F.BHL_LINK_UP p) ≠ s.dev.is (F.BHL_LINK_UP p) → d.is (H.rawBit (0x30 + p) 0) = true
            ∧ (d.is (F.BHL_LINK_UP p) = false → s.dev.get F.PTP_CFG_PORT = p → lockLost s.dev d))
          ∧ (d.is (F.BHL_LINK_UP p) = s.dev.is (F.BHL_LINK_UP p) → s.dev.OnlyRegs [R.BHL_LINK p] d)
          ∧ (d.is (F.BHL_LINK_UP p) = true → s.dev.is (F.BHL_LINK_UP p) = false → s.dev.bh.mode.length = 2 → d.bh.mode.getD p false = (s.dev.get (F.BHL_CFG_SPEED p) == 1))
          ∧ Dev.OnlyRegs (linkKeys p) { s.dev with bh := { s.dev.bh with within := d.bh.within, mode := d.bh.mode } } d)))
    ∧ (∀ p : Fin 2,
      Completes (.moduleInsert p) s (fun d => d.pins.modPresent.getLsbD p = true ∧ (∀ j : Fin 2, j ≠ p → d.pins.modPresent.getLsbD j = s.dev.pins.modPresent.getLsbD j)
        ∧ d.pins = { s.dev.pins with modPresent := d.pins.modPresent }
        ∧ (s.dev.awake = false → d = { s.dev with pins := d.pins })
        ∧ (s.dev.awake = true → d.is (F.BHL_LINK_MODULE p) = true ∧ d.is (F.BHL_LINK_VSFP p) = (s.dev.enabled (0x30 + p) && !s.dev.bh.overcurrent.getD p false)
          ∧ d.is (H.rawBit (0x30 + p) 1) = true
          ∧ (d.is (F.BHL_LINK_VSFP p) = true → s.dev.is (F.BHL_LINK_VSFP p) = false → s.dev.bh.moduleT.length = 2 → d.bh.moduleT.getD p 0 = s.dev.tempo)
          ∧ Dev.OnlyRegs (linkKeys p) { s.dev with pins := d.pins, bh := { s.dev.bh with within := d.bh.within, mode := d.bh.mode, moduleT := d.bh.moduleT } } d))
      ∧ Completes (.moduleRemove p) s (fun d => d.pins.modPresent.getLsbD p = false ∧ (∀ j : Fin 2, j ≠ p → d.pins.modPresent.getLsbD j = s.dev.pins.modPresent.getLsbD j)
        ∧ d.pins = { s.dev.pins with modPresent := d.pins.modPresent }
        ∧ (s.dev.awake = false → d = { s.dev with pins := d.pins })
        ∧ (s.dev.awake = true → d.is (F.BHL_LINK_MODULE p) = false ∧ d.is (F.BHL_LINK_VSFP p) = false ∧ d.is (H.rawBit (0x30 + p) 1) = true
          ∧ (s.dev.is (F.BHL_LINK_VSFP p) = true → d.is (F.BHL_LINK_UP p) = false ∧ d.is (F.BHL_LINK_FEC_LOCK p) = false)
          ∧ Dev.OnlyRegs (linkKeys p) { s.dev with pins := d.pins, bh := { s.dev.bh with within := d.bh.within, mode := d.bh.mode } } d))
      ∧ (s.dev.is (F.BHL_LINK_VSFP p) = false → Completes (.vsfpOvercurrent p) s (fun d => d = s.dev))
      ∧ (s.dev.is (F.BHL_LINK_VSFP p) = true → s.dev.bh.overcurrent.length = 2 → Completes (.vsfpOvercurrent p) s (fun d =>
          d.is (F.BHL_LINK_VSFP p) = false ∧ d.is (F.BHL_LINK_UP p) = false ∧ d.bh.overcurrent.getD p false = true ∧ d.is (H.rawBit (0x30 + p) 1) = true
          ∧ Dev.OnlyRegs (linkKeys p) { s.dev with bh := { s.dev.bh with within := d.bh.within, mode := d.bh.mode, overcurrent := d.bh.overcurrent } } d)))
    ∧ (∀ (n : Fin 8) (hseq : Nat) (bytes : List Byte) (e : Entry), s.dev.cmdFor n hseq 0x0700 = some e →
      (∀ c ∈ s.dev.inflight, c.e.opcode = 0x0700 → c.ring = n ∧ c.e.hseq = hseq) →
      ((1 < e.p1 0 ∨ (e.p1 1 ≠ 0xA0 ∧ e.p1 1 ≠ 0xA2) ∨ e.p1 3 = 0 ∨ 16 < e.p1 3 ∨ 256 < e.p1 2 + e.p1 3 ∨ e.zeroFrom 4 = false) →
        Completes (.bhlModuleRead n hseq bytes) s (fun d => answers s.dev d n hseq 0x01 []))
      ∧ (e.p1 0 ≤ 1 → (e.p1 1 = 0xA0 ∨ e.p1 1 = 0xA2) → e.p1 3 ≠ 0 → e.p1 3 ≤ 16 → e.p1 2 + e.p1 3 ≤ 256 → e.zeroFrom 4 = true →
        (s.dev.pins.modPresent.getLsbD (e.p1 0) = false → Completes (.bhlModuleRead n hseq bytes) s (fun d => answers s.dev d n hseq 0x03 []))
        ∧ (s.dev.pins.modPresent.getLsbD (e.p1 0) = true →
          ((s.dev.is (F.BHL_LINK_VSFP (e.p1 0)) = false ∨ s.dev.tempo < s.dev.bh.moduleT.getD (e.p1 0) 0 + 1208) →
            Completes (.bhlModuleRead n hseq bytes) s (fun d => answers s.dev d n hseq 0x06 []))
          ∧ (s.dev.is (F.BHL_LINK_VSFP (e.p1 0)) = true → s.dev.bh.moduleT.getD (e.p1 0) 0 + 1208 ≤ s.dev.tempo →
            Completes (.bhlModuleRead n hseq bytes) s (fun d => answers s.dev d n hseq 0 ((List.range (e.p1 3)).map (fun k => bytes.getD k 0)))))))
    ∧ (∀ (p : Fin 2) (tag : Option Nat) (target : Nat) (mac : BitVec 48) (x : IpPacket),
      (s.dev.portHears p = false → Completes (.neighborSolicitation p tag target) s (fun d => d = s.dev) ∧ Completes (.echoRequest p tag target) s (fun d => d = s.dev)
        ∧ Completes (.routerAdvertisement p tag mac) s (fun d => d = s.dev) ∧ Completes (.downlinkPacket p tag x) s (fun d => d = s.dev))
      ∧ (s.dev.portHears p = true →
        Completes (.neighborSolicitation p tag target) s (fun d => heard s.dev d p tag (ownAnswer s.dev d p target (.neighborAdvert p (s.dev.vlanId p) target)))
        ∧ Completes (.echoRequest p tag target) s (fun d => heard s.dev d p tag (ownAnswer s.dev d p target (.echoReply p (s.dev.vlanId p) target)))
        ∧ Completes (.routerAdvertisement p tag mac) s (fun d => heard s.dev d p tag
            (d.bh.raMac = setAt s.dev.bh.raMac p (some mac.toNat)
              ∧ (s.dev.bh.raMac.length = 2 → s.dev.getPair (F.BHL_GW_MAC_LO_MAC p) (F.BHL_GW_MAC_HI_MAC p) = 0 → d.gateway p = some mac.toNat)
              ∧ Dev.OnlyRegs [R.BHL_FRAMES p] { s.dev with bh := { s.dev.bh with raMac := d.bh.raMac } } d))
        ∧ (s.dev.fitsFrame p x.bytes.length = false → Completes (.downlinkPacket p tag x) s (fun d => d = s.dev))
        ∧ (s.dev.fitsFrame p x.bytes.length = true → s.dev.ownAddr p x.dst = true → Completes (.downlinkPacket p tag x) s (fun d => heard s.dev d p tag
            (d.get (F.BHL_DROP_BAD p) = min (s.dev.get (F.BHL_DROP_BAD p) + 1) (F.BHL_DROP_BAD p).top ∧ s.dev.OnlyRegs [R.BHL_FRAMES p, R.BHL_DROP p] d)))
        ∧ (s.dev.fitsFrame p x.bytes.length = true → s.dev.ownAddr p x.dst = false → x.hopLimit ≤ 1 → Completes (.downlinkPacket p tag x) s (fun d => heard s.dev d p tag
            (lowDrop s.dev d 8 ∧ s.dev.OnlyRegs [R.BHL_FRAMES p, R.LOWPAN_ERR, H.irqRaw 0x33] d)))
        ∧ (s.dev.fitsFrame p x.bytes.length = true → s.dev.ownAddr p x.dst = false → 1 < x.hopLimit → s.dev.prefixPan x.dst = none → Completes (.downlinkPacket p tag x) s (fun d => heard s.dev d p tag
            (lowDrop s.dev d 6 ∧ s.dev.OnlyRegs [R.BHL_FRAMES p, R.LOWPAN_ERR, H.irqRaw 0x33] d)))
        ∧ (∀ q h : Nat, s.dev.fitsFrame p x.bytes.length = true → s.dev.ownAddr p x.dst = false → 1 < x.hopLimit → s.dev.prefixPan x.dst = some q → x.dst % 2 ^ 64 / 65536 = 0x000000FFFE00 → h = q * 65536 + x.dst % 65536 →
          (s.dev.validEntry h = none → Completes (.downlinkPacket p tag x) s (fun d => heard s.dev d p tag
            (lowDrop s.dev d 6 ∧ s.dev.OnlyRegs [R.BHL_FRAMES p, R.LOWPAN_ERR, H.irqRaw 0x33] d)))
          ∧ ((s.dev.validEntry h).isSome = true → 1280 < x.bytes.length → Completes (.downlinkPacket p tag x) s (fun d => heard s.dev d p tag
            (lowDrop s.dev d 5
              ∧ d.out = (if ((s.dev.bh.tooBig.filter (fun y => decide (s.dev.tempo < y.2 + 4000))).filter (fun y => y.1 == p.val)).length < 10
                  then (.packetTooBig p (s.dev.vlanId p) (s.dev.globalAddr p) 1280 : Out) :: s.dev.out else s.dev.out)
              ∧ Dev.OnlyRegs [R.BHL_FRAMES p, R.LOWPAN_ERR, H.irqRaw 0x33] { s.dev with out := d.out, bh := { s.dev.bh with tooBig := d.bh.tooBig } } d)))
          ∧ ((s.dev.validEntry h).isSome = true → x.bytes.length ≤ 1280 → Completes (.downlinkPacket p tag x) s (fun d => heard s.dev d p tag
            ((∃ l : List Tx, d.ra.txs = s.dev.ra.txs ++ l ∧ ∀ t ∈ l, t.kind = .packet ∧ t.stage = .step2 ∧ t.dest = some h ∧ t.pan = some (h / 65536)
                ∧ t.pkt = s.dev.bh.nextPkt ∧ t.flow = s.dev.get (F.QMAP_DSCP_FLOW_FLOW (x.dscp % 64)))
              ∧ d.bh = { s.dev.bh with nextPkt := s.dev.bh.nextPkt + 1 } ∧ d.out = s.dev.out ∧ d.tab = s.dev.tab ∧ d.inflight = s.dev.inflight
              ∧ d.get F.LOWPAN_COUNT_DOWN = min (s.dev.get F.LOWPAN_COUNT_DOWN + 1) F.LOWPAN_COUNT_DOWN.top))))))
    ∧ ((∀ r ∈ s.dev.bh.reasm, s.dev.tempo < r.startT + s.dev.get F.LOWPAN_CFG_REASM_S * 4000) → Completes .reasmTimeout s (fun d => d = s.dev))
    ∧ (∀ r, s.dev.bh.reasm.find? (fun r => decide (r.startT + s.dev.get F.LOWPAN_CFG_REASM_S * 4000 ≤ s.dev.tempo)) = some r → Completes .reasmTimeout s (fun d =>
        d.bh = { s.dev.bh with reasm := s.dev.bh.reasm.erase r } ∧ lowDrop s.dev d 3 ∧ d.heldUp = s.dev.heldUp - r.cells ∧ d.heldDown = s.dev.heldDown
        ∧ d.ra = s.dev.ra ∧ d.out = s.dev.out ∧ d.inflight = s.dev.inflight ∧ d.tab.mem = s.dev.tab.mem))
    ∧ (∀ (x : PtpExchange) (p : Nat) (off : Int), p = s.dev.get F.PTP_CFG_PORT → off = x.offset →
      (s.dev.portHears p = false → Completes (.ptpExchange x) s (fun d => d = s.dev))
      ∧ (s.dev.portHears p = true → s.dev.vlanOk p x.tag = false → Completes (.ptpExchange x) s (fun d =>
          d.get (F.BHL_FRAMES_RX p) = min (s.dev.get (F.BHL_FRAMES_RX p) + 1) (F.BHL_FRAMES_RX p).top
          ∧ d.get (F.BHL_DROP_BAD p) = min (s.dev.get (F.BHL_DROP_BAD p) + 1) (F.BHL_DROP_BAD p).top ∧ s.dev.OnlyRegs [R.BHL_FRAMES p, R.BHL_DROP p] d))
      ∧ (s.dev.portHears p = true → s.dev.vlanOk p x.tag = true → (s.dev.ptpUp = false ∨ s.dev.bh.chosen = none) → Completes (.ptpExchange x) s (fun d =>
          d.get (F.BHL_FRAMES_RX p) = min (s.dev.get (F.BHL_FRAMES_RX p) + 1 + b2n x.twoStep) (F.BHL_FRAMES_RX p).top ∧ s.dev.OnlyRegs [R.BHL_FRAMES p] d))
      ∧ (s.dev.portHears p = true → s.dev.vlanOk p x.tag = true → s.dev.ptpUp = true → s.dev.bh.chosen.isSome = true → Completes (.ptpExchange x) s (fun d =>
          d.out = .ptpDelayReq p (s.dev.vlanTag p 6) (s.dev.is F.PTP_CFG_TRANSPORT) :: s.dev.out
          ∧ d.get (F.BHL_FRAMES_RX p) = min (s.dev.get (F.BHL_FRAMES_RX p) + 2 + b2n x.twoStep) (F.BHL_FRAMES_RX p).top
          ∧ d.get (F.BHL_FRAMES_TX p) = min (s.dev.get (F.BHL_FRAMES_TX p) + 1) (F.BHL_FRAMES_TX p).top
          ∧ toSigned 32 (d.get F.PTP_OFFSET_NS) = max (-2147483648) (min 2147483647 off) ∧ d.is F.PTP_SERVO_SYNC_SEEN = true
          ∧ d.get F.PTP_COUNT_SYNC = min (s.dev.get F.PTP_COUNT_SYNC + 1) F.PTP_COUNT_SYNC.top
          ∧ (1000000 < off.natAbs → (d.systime : Int) = ((s.dev.systime : Int) - off * 2 ^ 32) % (2 ^ 96 : Nat) ∧ d.bh.slew = 0 ∧ d.bh.within = 0
            ∧ d.get F.PTP_COUNT_STEPS = min (s.dev.get F.PTP_COUNT_STEPS + 1) F.PTP_COUNT_STEPS.top ∧ d.is (H.rawBit 0x32 2) = true
            ∧ d.is F.PTP_SERVO_LOCKED = s.dev.is F.PTP_SERVO_LOCKED ∧ replanned s.dev d)
          ∧ (off.natAbs ≤ 1000000 → d.systime = s.dev.systime ∧ d.ra = s.dev.ra ∧ d.bh.slew = -off * 2 ^ 32
            ∧ d.bh.within = (if off.natAbs ≤ 1000 then min (s.dev.bh.within + 1) 16 else 0)
            ∧ d.is F.PTP_SERVO_LOCKED = (s.dev.is F.PTP_SERVO_LOCKED || decide (d.bh.within = 16))
            ∧ (s.dev.is F.PTP_SERVO_LOCKED = false → d.bh.within = 16 →
                d.is F.TIM_SYSTIME_STAT_SYNC = true ∧ d.is F.CLK_STAT_CMP_PTP = true ∧ d.is (H.rawBit 0x32 0) = true))
          ∧ Dev.OnlyRegs [R.BHL_FRAMES p, R.PTP_OFFSET, R.PTP_COUNT, R.PTP_SERVO, R.TIM_SYSTIME_STAT, R.CLK_STAT, H.irqRaw 0x32]
              { s.dev with out := d.out, systime := d.systime, bh := { s.dev.bh with slew := d.bh.slew, within := d.bh.within },
                           ra := { s.dev.ra with txs := d.ra.txs } } d)))
    ∧ (∀ (p : Fin 2) (tag : Option Nat) (domain : BitVec 8) (udp : Bool) (m : PtpMaster),
      (s.dev.portHears p = false → Completes (.ptpAnnounce ⟨p, tag, domain, udp, m⟩) s (fun d => d = s.dev))
      ∧ (s.dev.portHears p = true → (s.dev.ptpUp = false ∨ s.dev.ptpMine p domain.toNat udp = false) → Completes (.ptpAnnounce ⟨p, tag, domain, udp, m⟩) s (fun d =>
          heard s.dev d p tag (s.dev.OnlyRegs [R.BHL_FRAMES p] d)))
      ∧ (s.dev.portHears p = true → s.dev.ptpUp = true → s.dev.ptpMine p domain.toNat udp = true → Completes (.ptpAnnounce ⟨p, tag, domain, udp, m⟩) s (fun d =>
          heard s.dev d p tag (d.bh.masters = m :: s.dev.bh.masters.filter (fun x => x.sender != m.sender)
            ∧ (∃ y ∈ d.bh.masters, d.bh.chosen = some y ∧ d.getPair F.PTP_GM_LO_ID F.PTP_GM_HI_ID = y.gmId % 2 ^ 64
              ∧ d.is F.PTP_SERVO_SYNC_SEEN = (s.dev.is F.PTP_SERVO_SYNC_SEEN && s.dev.bh.chosen.map (fun z => z.sender) == some y.sender))
            ∧ (∀ x, s.dev.bh.masters.filter (fun x => x.sender != m.sender) = [x] → d.bh.chosen = some (if ptpBetter x m then x else m))
            ∧ Dev.OnlyRegs [R.BHL_FRAMES p, R.PTP_GM_LO, R.PTP_GM_HI, R.PTP_SERVO]
                { s.dev with bh := { s.dev.bh with masters := d.bh.masters, chosen := d.bh.chosen } } d))))
    ∧ (s.dev.awake = false → Completes .ptpSyncTimeout s (fun d => d = s.dev) ∧ Completes .announceTimeout s (fun d => d = s.dev) ∧ Completes .ppsInEdge s (fun d => d = s.dev))
    ∧ (s.dev.awake = true →
      Completes .ptpSyncTimeout s (fun d => d.is F.PTP_SERVO_SYNC_SEEN = false ∧ lockLost s.dev d
        ∧ Dev.OnlyRegs [R.PTP_SERVO, R.CLK_STAT, H.irqRaw 0x32] { s.dev with bh := { s.dev.bh with within := 0 } } d)
      ∧ Completes .announceTimeout s (fun d => d.bh.masters = s.dev.bh.masters.filter (fun m => m.sender != (s.dev.bh.chosen.map (fun m => m.sender)).getD 0)
        ∧ lockLost s.dev d ∧ (d.bh.masters = [] → d.bh.chosen = none ∧ d.getPair F.PTP_GM_LO_ID F.PTP_GM_HI_ID = 0)
        ∧ Dev.OnlyRegs [R.PTP_SERVO, R.CLK_STAT, H.irqRaw 0x32, R.PTP_GM_LO, R.PTP_GM_HI]
            { s.dev with bh := { s.dev.bh with within := 0, masters := d.bh.masters, chosen := d.bh.chosen } } d)
      ∧ Completes .ppsInEdge s (fun d => d.getPair F.PTP_PPS_IN_LO_SYSTIME F.PTP_PPS_IN_HI_SYSTIME = s.dev.sysNs ∧ d.is (H.rawBit 0x32 3) = true
        ∧ d.pins = { s.dev.pins with ppsIn := true }
        ∧ (∀ (k : Fin 16) (c : Fin 4), s.dev.captures k c 4 true = true → bit (s.dev.rd (R.TIM_FLAGS k)) c = false → d.timCcr k c = s.dev.timCount k)
        ∧ ((∀ (k : Fin 16) (c : Fin 4), s.dev.captures k c 4 true = false) →
            Dev.OnlyRegs [R.PTP_PPS_IN_LO, R.PTP_PPS_IN_HI, H.irqRaw 0x32] { s.dev with pins := d.pins } d)))
    ∧ Completes .ppsOutSecond s (fun d => d = { s.dev with bh := { s.dev.bh with ppsOut := d.bh.ppsOut } }
        ∧ (d.bh.ppsOut = true ↔ s.dev.awake = true ∧ s.dev.is F.PTP_CFG_PPS_OUT_EN = true ∧ (s.dev.is F.TIM_SYSTIME_STAT_SYNC = true ∨ s.dev.is F.PTP_CFG_PPS_FREE = true)
            ∧ s.dev.sysNs % 1000000000 < 100000000))
    ∧ (∀ k : Fin 3, Completes (.pcieReset k) s (fun d => d.pins = { s.dev.pins with perstN := s.dev.pins.perstN && k != 1 }
        ∧ (s.dev.awake = false → Dev.OnlyRegs [R.PCIE_LINK] { s.dev with pins := d.pins } d ∧ (k = 0 → d = { s.dev with pins := d.pins })
            ∧ (k ≠ 0 → d.is F.PCIE_LINK_UP = false))
        ∧ (s.dev.awake = true → d.pba = [] ∧ d.gaps = []
          ∧ (k = 0 → d.get F.PCIE_FLR_COUNT = min (s.dev.get F.PCIE_FLR_COUNT + 1) 65535 ∧ d.is F.PCIE_LINK_UP = s.dev.is F.PCIE_LINK_UP)
          ∧ (k ≠ 0 → d.is F.PCIE_LINK_UP = false ∧ d.get F.PCIE_FLR_COUNT = s.dev.get F.PCIE_FLR_COUNT)
          ∧ (∀ n : Fin 8, s.dev.ringPcie n = true → d.ringEn n = false ∧ (d.ring n).waiting = [] ∧ (d.ring n).dead = true ∧ (d.ring n).held = (s.dev.ring n).held)
          ∧ (∀ n : Fin 8, s.dev.ringPcie n = false → d.ringEn n = s.dev.ringEn n ∧ d.ring n = s.dev.ring n)
          ∧ (∀ n : Fin 4, s.dev.rxPcie n = true → d.is (F.RXP_RXR_CFG_EN n) = false)
          ∧ (∀ v : Fin 64, bit (d.rd (0x6000 + 0x800 + 16 * v + 12)) 0 = true)
          ∧ d.ra = s.dev.ra ∧ d.tab.mem = s.dev.tab.mem ∧ d.ks = s.dev.ks ∧ d.tempo = s.dev.tempo ∧ d.out = s.dev.out)))
    ∧ (∀ (perstN refClk : Bool) (gen : Fin 3) (x2 : Bool), Completes (.pcieLinkUp ⟨perstN, refClk⟩ ⟨gen, x2⟩) s (fun d =>
        d.pins = { s.dev.pins with perstN := perstN, refClk := refClk }
        ∧ ((s.dev.pcieMayTrain && perstN && refClk) = false → (s.dev.is F.PCIE_LINK_UP = false ∨ (perstN && refClk) = true) → d = { s.dev with pins := d.pins })
        ∧ ((perstN && refClk) = false → d.is F.PCIE_LINK_UP = false)
        ∧ ((s.dev.pcieMayTrain && perstN && refClk) = true → d.is F.PCIE_LINK_UP = true ∧ d.get F.PCIE_LINK_WIDTH = (if x2 then 2 else 1) ∧ d.get F.PCIE_LINK_SPEED = 1 + gen
          ∧ Dev.OnlyRegs [R.PCIE_LINK] { s.dev with pins := d.pins } d)))

/-! ### Brioz Link (15) -/

/-- The check of R448 that an arriving datagram fails, by its cause, or 0. -/
def brzVerdict (d : Dev) (p addr udp : Nat) (b : List Byte) : Nat :=
  if dgFormatOk b = false then 1
  else match d.sessionAt p (beField b 4 1) with
  | none => 2
  | some u =>
    if u.peerAddr ≠ addr ∨ u.peerPort ≠ udp then 2
    else if dgMacOk u.key b = false then 3
    else if beField b 8 4 ≤ u.highest ∧ (beField b 8 4 + 63 < u.highest ∨ u.seen.contains (beField b 8 4) = true) then 4
    else 0

/-- The session after an authenticated datagram (R447, R448). -/
def freshened (d : Dev) (u : Session) (seq : Nat) : Session :=
  { u with seen := (seq :: u.seen).filter (fun x => decide (max seq u.highest ≤ x + 63)), lastRxT := d.tempo, heard := true }

/-- A datagram is dropped with its cause (R448). -/
def brzDropped (d d' : Dev) (p cause : Nat) : Prop :=
  d'.get (F.BHL_DROP_BRZ p) = min (d.get (F.BHL_DROP_BRZ p) + 1) (F.BHL_DROP_BRZ p).top ∧ d'.get (F.BHL_BRZ_LAST_CAUSE p) = cause
  ∧ d'.is (H.rawBit (0x30 + p) 3) = true

/-- A datagram of a session that has arrived: with verdict 0 the session is refreshed and P holds, and with any other it is dropped. -/
def brzTaken (d d' : Dev) (p addr udp : Nat) (b : List Byte) (P : Session → Prop) : Prop :=
  if brzVerdict d p addr udp b = 0 then ∃ u, d.sessionAt p (beField b 4 1) = some u ∧ P u
  else brzDropped d d' p (brzVerdict d p addr udp b) ∧ d.OnlyRegs [R.BHL_FRAMES p, R.BHL_DROP p, R.BHL_BRZ_LAST p, H.irqRaw (0x30 + p)] d'

/-- The sessions with this one replaced. -/
def sessionsWith (d : Dev) (u v : Session) : List Session := d.sessions.map (fun x => if x.uid == u.uid then v else x)

/-- What neither sending nor receiving a datagram touches. -/
def coreKept (d d' : Dev) : Prop :=
  d'.ra = d.ra ∧ d'.ks = d.ks ∧ d'.tab.mem = d.tab.mem ∧ d'.cfg = d.cfg ∧ d'.tempo = d.tempo ∧ d'.systime = d.systime ∧ d'.out = d.out ∧ d'.pw = d.pw

/-- A frame of n bytes is admitted to egress queue e, or dropped there (R422). -/
def egressGets (d d' : Dev) (e n : Nat) (body : EgrBody) : Prop :=
  if d.get (F.QEGR_LIMIT_CELLS.at e) < d.egrCells e + cellsFor n ∨ d.cellsFit false (cellsFor n) = false then
    d'.sch.egress = d.sch.egress ∧ d'.get (F.QEGR_COUNT_DROPPED.at e) = min (d.get (F.QEGR_COUNT_DROPPED.at e) + 1) F.QEGR_COUNT_DROPPED.top
  else d'.sch.egress = d.sch.egress ++ [⟨e, n, cellsFor n, body⟩] ∧ d'.heldUp = d.heldUp + cellsFor n

/-- A datagram of session u, with its next number, goes to its port's Brioz Link queue (R421, R447). -/
def dgSent (d d' : Dev) (u : Session) (type : Nat) (payload : List Byte) : Prop :=
  egressGets d d' (64 * u.port + d.get F.QMAP_CTRL_BRZ_QUEUE) (d.udpLen u.port (datagram u.key type u.num u.nextSeq payload).length)
    (.datagram u.uid u.peerAddr u.peerPort (datagram u.key type u.num u.nextSeq payload)) ∧ coreKept d d'

/-- The open session of this number on a port, the only one with its own number. -/
def openSessionIs (d : Dev) (p num : Nat) (u : Session) : Prop := d.sessionAt p num = some u ∧ ∀ x ∈ d.sessions, x.uid = u.uid → x = u

/-- Brioz Link (R370, R443 to R450): a datagram waits during the PROMOTE pause; an OPEN takes the lowest free session; CLOSE, KEEPALIVE, CMD and
HDATA pass the checks in order or are dropped with their cause, and then close or refresh the session, offer entries to their rings, or await their
write; HDATA is written at the boundary and acknowledged; idle sessions close; and what has been gathered leaves in datagrams. The device's nonce is a
free value, and every clause holds whichever it is. -/
def Obligations.BriozLinkActs : Prop :=
  ∀ s : State, s.Inv →
    (∀ (p : Fin 2) (addr udp : Nat) (tag : Option Nat) (b : List Byte),
      (∀ c ∈ [Instr.openSession p addr udp tag b, .closeSession p addr udp tag b, .keepalive p addr udp tag b, .brzCmd p addr udp tag b, .hdata p addr udp tag b],
        (s.dev.portHears p = false → Completes c s (fun d => d = s.dev))
        ∧ (s.dev.portHears p = true → s.dev.vlanOk p tag = false → Completes c s (fun d =>
            d.get (F.BHL_DROP_BAD p) = min (s.dev.get (F.BHL_DROP_BAD p) + udpFrames b.length) (F.BHL_DROP_BAD p).top
            ∧ d.get (F.BHL_FRAMES_RX p) = min (s.dev.get (F.BHL_FRAMES_RX p) + udpFrames b.length) (F.BHL_FRAMES_RX p).top
            ∧ s.dev.OnlyRegs [R.BHL_FRAMES p, R.BHL_DROP p] d))
        ∧ (s.dev.portHears p = true → s.dev.vlanOk p tag = true → s.dev.paused = true → Completes c s (fun d =>
            d.bh.heldDg = s.dev.bh.heldDg ++ [(p.val, addr, udp, b)] ∧ Dev.OnlyRegs [R.BHL_FRAMES p] { s.dev with bh := d.bh } d)))
      ∧ (s.dev.portHears p = true → s.dev.vlanOk p tag = true → s.dev.paused = false →
        ((dgFormatOk b = false ∨ beField b 3 1 = 0x03) → Completes (.closeSession p addr udp tag b) s (fun d => brzTaken s.dev d p addr udp b (fun u =>
            d.sessions = s.dev.sessions.filter (fun x => x.uid != u.uid) ∧ d.bh.events = s.dev.bh.events.filter (fun x => x.1 != u.uid)
            ∧ (∀ n : Fin 8, (d.ring n).waiting = (s.dev.ring n).waiting.filter (fun w => w.sess != some u.uid) ∧ (d.ring n).held = (s.dev.ring n).held)
            ∧ d.is (H.rawBit (0x30 + p) 2) = true ∧ coreKept s.dev d)))
        ∧ ((dgFormatOk b = false ∨ beField b 3 1 = 0x04) → Completes (.keepalive p addr udp tag b) s (fun d => brzTaken s.dev d p addr udp b (fun u =>
            d.sessions = sessionsWith s.dev u (freshened s.dev u (beField b 8 4)) ∧ Dev.OnlyRegs [R.BHL_FRAMES p] { s.dev with sessions := d.sessions } d)))
        ∧ ((dgFormatOk b = false ∨ beField b 3 1 = 0x14) → Completes (.hdata p addr udp tag b) s (fun d => brzTaken s.dev d p addr udp b (fun u =>
            d.sessions = sessionsWith s.dev u (freshened s.dev u (beField b 8 4))
            ∧ d.bh = { s.dev.bh with hdata := s.dev.bh.hdata ++ [(u.uid, beField b 12 4, (b.drop 20).take (beField b 16 2))] }
            ∧ Dev.OnlyRegs [R.BHL_FRAMES p] { s.dev with sessions := d.sessions, bh := d.bh } d)))
        ∧ (∀ (n : Nat) (e : Entry), n = beField b 16 1 → e = Entry.ofBytes ((b.drop 20).take 64) → (dgFormatOk b = false ∨ (beField b 3 1 = 0x10 ∧ beField b 12 1 = 1)) →
          ((7 < n ∨ s.dev.ringPcie n = true ∨ s.dev.ringEn n = false) → Completes (.brzCmd p addr udp tag b) s (fun d => brzTaken s.dev d p addr udp b (fun u =>
            d.sessions = sessionsWith s.dev u (freshened s.dev u (beField b 8 4)) ∧ brzDropped s.dev d p 5 ∧ d.inflight = s.dev.inflight)))
          ∧ (n < 8 → s.dev.ringPcie n = false → s.dev.ringEn n = true → e.hseq = (s.dev.lastHseq n + 1) % 65536 → e.flags / 8 = 0 → e.byte7 = 0 →
              s.dev.inflight.length < 512 → (∀ c ∈ s.dev.inflight, c.ring = n → c.e.tag ≠ e.tag) →
              Completes (.brzCmd p addr udp tag b) s (fun d => brzTaken s.dev d p addr udp b (fun u =>
                d.sessions = sessionsWith s.dev u (freshened s.dev u (beField b 8 4)) ∧ d.lastHseq n = e.hseq
                ∧ d.inflight = s.dev.inflight ++ [{ ring := n, e := e, begun := false, ran := false, issued := false, sess := some u.uid }] ∧ coreKept s.dev d))))
        ∧ (dgFormatOk b = false → Completes (.openSession p addr udp tag b) s (fun d => brzDropped s.dev d p 1 ∧ d.sessions = s.dev.sessions))
        ∧ (dgFormatOk b = true → beField b 3 1 = 0x01 → s.dev.ks.owner = none → Completes (.openSession p addr udp tag b) s (fun d =>
            brzDropped s.dev d p 3 ∧ d.sessions = s.dev.sessions))
        ∧ (∀ k, dgFormatOk b = true → beField b 3 1 = 0x01 → s.dev.ks.owner = some k →
          (∀ j, (List.range 4).find? (fun j => (s.dev.sessionAt p j).isNone) = some j → Completes (.openSession p addr udp tag b) s (fun d =>
            if dgMacOk (linkKey k) b then
              (∃ x : Session, d.sessions = s.dev.sessions ++ [x] ∧ x.uid = s.dev.bh.nextUid ∧ x.port = p ∧ x.num = j ∧ x.peerAddr = addr ∧ x.peerPort = udp
                ∧ x.rxSub = beField b 28 1 % 16 ∧ x.evSub = beField b 29 1 % 4 ∧ x.seen = [0] ∧ x.nextSeq = 1 ∧ x.heard = false ∧ x.lastRxT = s.dev.tempo
                ∧ x.telemSeq = s.dev.get F.TMEM_TELEM_SEQ_SEQ
                ∧ x.key = sessionKey k ((b.drop 12).take 16) ((List.range 16).map (Config.freeByte s.dev.freeCtr)) j)
              ∧ d.bh.nextUid = s.dev.bh.nextUid + 1 ∧ d.is (H.rawBit (0x30 + p) 2) = true ∧ coreKept s.dev d
            else brzDropped s.dev d p 3 ∧ d.sessions = s.dev.sessions))
          ∧ ((List.range 4).find? (fun j => (s.dev.sessionAt p j).isNone) = none → Completes (.openSession p addr udp tag b) s (fun d =>
              d.sessions = s.dev.sessions ∧ (dgMacOk (linkKey k) b = false → brzDropped s.dev d p 3) ∧ coreKept s.dev d)))))
    ∧ (∀ errs : List LineError,
      ((s.dev.awake = false ∨ s.dev.paused = true ∨ s.dev.bh.hdata = []) → Completes (.hdataWrite errs) s (fun d => d = s.dev))
      ∧ (∀ (uid w : Nat) (b : List Byte) (rest : List (Nat × Nat × List Byte)) (u : Session), s.dev.awake = true → s.dev.paused = false → s.dev.bh.hdata = (uid, w, b) :: rest →
          u.uid = uid → openSessionIs s.dev u.port u.num u →
        ((w % 2 = 1 ∨ inHostRegion w (b.length / 9 * 2) = false) → Completes (.hdataWrite errs) s (fun d =>
            d.bh.hdata = rest ∧ dgSent s.dev d u 0x15 (beBytes 4 w ++ beBytes 1 0x01 ++ [0, 0, 0]) ∧ d.sessions = sessionsWith s.dev u { u with nextSeq := u.nextSeq + 1 }))
        ∧ (w % 2 = 0 → inHostRegion w (b.length / 9 * 2) = true → b.length % 9 = 0 → errs = [] → (∀ l, s.dev.lineBad l = false) → Completes (.hdataWrite errs) s (fun d =>
            d.bh.hdata = rest ∧ d.packed w b.length = b ∧ d.sessions = sessionsWith s.dev u { u with nextSeq := u.nextSeq + 1 }
            ∧ (∀ a, (a < w ∨ w + b.length / 9 * 2 ≤ a) → d.mem a = s.dev.mem a)))))
    ∧ (∀ (p : Fin 2) (num : Fin 4),
      (s.dev.sessionAt p num = none → Completes (.sessionIdleTimeout p num) s (fun d => d = s.dev) ∧ Completes (.keepaliveSend p num) s (fun d => d = s.dev)
        ∧ (∀ k : Fin 3, k ≠ 2 → Completes (.datagramSend p num k) s (fun d => d = s.dev)) ∧ ∀ errs, Completes (.telemDatagram p ⟨num, errs⟩) s (fun d => d = s.dev))
      ∧ ((s.dev.awake = false ∨ s.dev.paused = true) → (∀ k : Fin 3, Completes (.datagramSend p num k) s (fun d => d = s.dev))
        ∧ ∀ errs, Completes (.telemDatagram p ⟨num, errs⟩) s (fun d => d = s.dev))
      ∧ (∀ u, openSessionIs s.dev p num u →
        (s.dev.tempo < u.lastRxT + s.dev.get (F.BHL_BRZ_CFG_TIMEOUT_S p) * 4000 → (u.heard = true ∨ s.dev.tempo < u.openT + 8000) →
          Completes (.sessionIdleTimeout p num) s (fun d => d = s.dev))
        ∧ ((u.lastRxT + s.dev.get (F.BHL_BRZ_CFG_TIMEOUT_S p) * 4000 ≤ s.dev.tempo ∨ (u.heard = false ∧ u.openT + 8000 ≤ s.dev.tempo)) → s.dev.paused = false →
          Completes (.sessionIdleTimeout p num) s (fun d => d.sessions = s.dev.sessions.filter (fun x => x.uid != u.uid)
            ∧ d.bh.events = s.dev.bh.events.filter (fun x => x.1 != u.uid) ∧ d.is (H.rawBit (0x30 + p) 2) = true
            ∧ (∀ n : Fin 8, (d.ring n).waiting = (s.dev.ring n).waiting.filter (fun w => w.sess != some u.uid))
            ∧ dgSent s.dev d u 0x03 (beBytes 1 1 ++ [0, 0, 0])))
        ∧ ((s.dev.paused = true ∨ 3 * (s.dev.tempo - u.lastTxT) < s.dev.get (F.BHL_BRZ_CFG_TIMEOUT_S p) * 4000) → Completes (.keepaliveSend p num) s (fun d => d = s.dev))
        ∧ (s.dev.paused = false → s.dev.get (F.BHL_BRZ_CFG_TIMEOUT_S p) * 4000 ≤ 3 * (s.dev.tempo - u.lastTxT) → Completes (.keepaliveSend p num) s (fun d =>
            dgSent s.dev d u 0x04 [] ∧ d.sessions = sessionsWith s.dev u { u with nextSeq := u.nextSeq + 1 } ∧ d.inflight = s.dev.inflight))
        ∧ (s.dev.awake = true → s.dev.paused = false →
          (s.dev.complWaiting u.uid = [] → Completes (.datagramSend p num 0) s (fun d => d = s.dev))
          ∧ (∀ (n : Nat) (w : Waiting), s.dev.complWaiting u.uid = [(n, w)] → Completes (.datagramSend p num 0) s (fun d =>
              dgSent s.dev d u 0x11 (beBytes 1 1 ++ [0, 0, 0] ++ (beBytes 1 n ++ [0, 0, 0] ++ complBytes w.c))
              ∧ d.sessions = sessionsWith s.dev u { u with nextSeq := u.nextSeq + 1 } ∧ (d.ring n).waiting = (s.dev.ring n).waiting.erase w
              ∧ d.inflight = (if w.own then s.dev.inflight.filter (fun c => !(c.ring == n && c.e.hseq == w.c.hseq)) else s.dev.inflight)))
          ∧ (s.dev.bh.events.filter (fun x => x.1 == u.uid) = [] → Completes (.datagramSend p num 1) s (fun d => d = s.dev))
          ∧ (∀ l, s.dev.bh.events.filter (fun x => x.1 == u.uid) = l → l ≠ [] → l.length ≤ 32 → Completes (.datagramSend p num 1) s (fun d =>
              dgSent s.dev d u 0x12 (beBytes 1 l.length ++ [0, 0, 0] ++ l.flatMap (fun (x : Nat × List Byte) => x.2))
              ∧ d.bh.events = s.dev.bh.events.filter (fun x => x.1 != u.uid) ∧ d.sessions = sessionsWith s.dev u { u with nextSeq := u.nextSeq + 1 }))
          ∧ (((s.dev.rxRing num).backlog = [] ∨ s.dev.rxPcie num = true ∨ s.dev.is (F.RXP_RXR_CFG_EN num) = false ∨ ∀ x ∈ s.dev.sessions, bit x.rxSub num = false) →
              Completes (.datagramSend p num 2) s (fun d => d = s.dev))
          ∧ ((bit u.evSub 1 = false ∨ s.dev.get F.TMEM_TELEM_SEQ_SEQ = u.telemSeq) → u.telemSeq < 2 ^ 32 → Completes (.telemDatagram p ⟨num, []⟩) s (fun d => d = s.dev))
          ∧ (∀ k, bit u.evSub 1 = true → u.telemSeq + k = s.dev.get F.TMEM_TELEM_SEQ_SEQ → 0 < k → k ≤ 64 →
              (∀ i, i < k → (List.range 4).any (fun j => s.dev.mem (telemAddr ((s.dev.get F.TMEM_TELEM_WR_LINE + 2 ^ 20 - k + i) % 2 ^ 20) + j) != 0) = true) →
              Completes (.telemDatagram p ⟨num, []⟩) s (fun d =>
              dgSent s.dev d u 0x16 (beBytes 1 k ++ [0, 0, 0] ++ beBytes 4 u.telemSeq
                ++ (List.range k).flatMap (fun i => s.dev.packed (telemAddr ((s.dev.get F.TMEM_TELEM_WR_LINE + 2 ^ 20 - k + i) % 2 ^ 20)) 18))
              ∧ d.sessions = sessionsWith s.dev u { u with nextSeq := u.nextSeq + 1, telemSeq := s.dev.get F.TMEM_TELEM_SEQ_SEQ }))))
      ∧ (∀ (u : Session) (x : RxRec) (rest : List RxRec), s.dev.awake = true → s.dev.paused = false → (s.dev.rxRing num).backlog = x :: rest → s.dev.rxPcie num = false →
          s.dev.is (F.RXP_RXR_CFG_EN num) = true → s.dev.sessions.filter (fun y => bit y.rxSub num) = [u] → openSessionIs s.dev u.port u.num u → s.dev.rx.rings.length = 4 →
          Completes (.datagramSend p num 2) s (fun d => (d.rxRing num).backlog = rest ∧ d.sessions = sessionsWith s.dev u { u with nextSeq := u.nextSeq + 1 }
            ∧ (d.sch.egress = s.dev.sch.egress ∨ ∃ f : EgrFrame, d.sch.egress = s.dev.sch.egress ++ [f] ∧ f.queue = 64 * u.port + s.dev.get F.QMAP_CTRL_BRZ_QUEUE
                ∧ f.body = .datagram u.uid u.peerAddr u.peerPort (datagram u.key 0x13 u.num u.nextSeq (rxrecPayload num x.record x.frame)))
            ∧ coreKept s.dev d)))

/-! ### The service port, staging and motion (17) -/

/-- The request being processed, no repeat, which the device may execute now (R485). -/
def asked (d : Dev) (type fseq : Nat) (p : List Byte) : Prop :=
  d.fw.request = some (type, fseq, p) ∧ d.fw.again = false ∧ d.awake = true ∧ d.paused = false

/-- What the owner lock, motion or the supply refuse (R491); 0 for none. -/
def updBlock (d : Dev) : Nat :=
  if d.ks.lock then 0x0D else if d.is F.UPD_STAT_MOVING then 0x0B else if d.is F.PWR_FLAGS_VIN_LOW || d.is F.PWR_FLAGS_VBAK_LOW then 0x0C else 0

/-- What R491 refuses of a request of a type, as the device stands when the request is accepted; 0 for nothing. -/
def requestBlock (d : Dev) (type : Nat) : Nat :=
  if type = 5 then (if d.fw.session = none then 0x03 else 0)
  else if type < 2 ∨ 6 < type then 0
  else if updBlock d ≠ 0 then updBlock d
  else if type = 2 then (if d.fw.session.isSome || d.fw.promote.isSome then 0x06 else 0)
  else if type = 6 then (if d.promoteBusy || d.fw.promote.isSome then 0x06 else 0)
  else if d.fw.session = none then 0x03 else 0

/-- The codes of R491 that stand for the owner lock, motion and the supply. -/
def refusals : List Nat := [0x0D, 0x0B, 0x0C]

/-- The STATUS of STAGE_BEGIN and STAGE_DATA (R24, R489, R491), by what was refused at acceptance. -/
def stageBeginCode (d : Dev) (total : Nat) : Nat :=
  if d.fw.blocked ≠ 0 ∧ d.fw.blocked ≠ 0x06 then d.fw.blocked else if total < 1280 ∨ 2621696 < total then 0x01 else d.fw.blocked
def stageDataCode (d : Dev) (total off n : Nat) : Nat :=
  if d.fw.blocked ≠ 0 then d.fw.blocked else if total < off + n then 0x01
  else if off < d.get F.UPD_PROGRESS_RECEIVED then 0x10 else if d.get F.UPD_PROGRESS_RECEIVED < off then 0x09 else 0

/-- The request is refused, counted and raised (R491); nothing is staged. -/
def updRefusedAs (d d' : Dev) (status : Nat) : Prop :=
  responded d d' status [] ∧ d'.get F.UPD_COUNT_REFUSED = min (d.get F.UPD_COUNT_REFUSED + 1) F.UPD_COUNT_REFUSED.top ∧ d'.is (H.rawBit 0x0C 1) = true
  ∧ d'.fw.slots = d.fw.slots ∧ d'.fw.session = d.fw.session ∧ Dev.OnlyRegs [R.SVC_STAT, R.UPD_COUNT, H.irqRaw 0x0C] { d with fw := d'.fw } d'

/-- The request is answered, and no register but SVC.STAT changes; nothing is staged. -/
def onlyResponds (d d' : Dev) (status : Nat) (payload : List Byte) : Prop :=
  responded d d' status payload ∧ d'.fw.slots = d.fw.slots ∧ d'.fw.session = d.fw.session ∧ d'.fw.promote = d.fw.promote
  ∧ Dev.OnlyRegs [R.SVC_STAT] { d with fw := d'.fw } d'

/-- The completion that a CMD request's response carries (R484). -/
def svcCompl (d : Dev) (p : List Byte) (code : Nat) (result : List Byte) : List Byte :=
  complBytes { dseq := 0, tag := beField p 2 2, hseq := beField p 0 2, code := code, cflags := 0, time := d.sysNs,
               result := (List.range 16).map (fun k => result.getD k 0) }

/-- A CMD request is answered with the completion of its entry (R484). -/
def svcCompletes (d d' : Dev) (p : List Byte) (code : Nat) (result : List Byte) : Prop :=
  onlyResponds d d' 0 (svcCompl d p code result)

/-- A transaction is discarded (R482). -/
def svcDiscarded (d d' : Dev) (flag : Fld) : Prop :=
  d'.is flag = true ∧ d'.get F.SVC_COUNT_ERRORS = min (d.get F.SVC_COUNT_ERRORS + 1) F.SVC_COUNT_ERRORS.top ∧ d'.is (H.rawBit 0x0D 1) = true
  ∧ Dev.OnlyRegs [R.SVC_STAT, R.SVC_COUNT, H.irqRaw 0x0D] { d with out := .svcByte d.svcStatus :: d.out } d'

/-- The service port and staging (R479 to R491): every transaction returns the status byte; a REQUEST is discarded, repeated, refused or accepted;
READ returns the response and frees it; INFO and SELFTEST report; a staging session opens, takes its bytes in order, and closes by COMMIT, ABORT or time-out;
CMD executes one entry; MOTION sets and clears MOVING. The vendor key is an open constant of the model (log entry 11), and COMMIT's clauses hold
whichever it is. -/
def Obligations.ServicePortActs : Prop :=
  ∀ s : State, s.Inv →
    (s.dev.svcUp = false → Completes .svcPoll s (fun d => d = s.dev) ∧ (∀ b, Completes (.svcRequest b) s (fun d => d = s.dev)) ∧ (∀ n, Completes (.svcRead n) s (fun d => d = s.dev)))
    ∧ (s.dev.svcUp = true → Completes .svcPoll s (fun d => d = { s.dev with out := .svcByte s.dev.svcStatus :: s.dev.out }))
    ∧ (∀ b : List Byte, s.dev.svcUp = true → s.dev.paused = false →
      ((b.headD 0 = 0x00 ∨ b.headD 0 = 0xA3) → Completes (.svcRequest b) s (fun d => d = { s.dev with out := .svcByte s.dev.svcStatus :: s.dev.out }))
      ∧ (b.headD 0 ≠ 0x00 → b.headD 0 ≠ 0xA3 → b.headD 0 ≠ 0xA1 → Completes (.svcRequest b) s (fun d => svcDiscarded s.dev d F.SVC_STAT_FRAME_ERR))
      ∧ (b.headD 0 = 0xA1 → s.dev.fw.request ≠ none → Completes (.svcRequest b) s (fun d => svcDiscarded s.dev d F.SVC_STAT_OVERRUN))
      ∧ (b.headD 0 = 0xA1 → s.dev.fw.request = none → svcFrameOk (b.drop 1) = false → Completes (.svcRequest b) s (fun d => svcDiscarded s.dev d F.SVC_STAT_FRAME_ERR))
      ∧ (∀ (f : List Byte) (n type fseq crc : Nat), b.headD 0 = 0xA1 → f = b.drop 1 → s.dev.fw.request = none → svcFrameOk f = true →
          n = beField f 4 2 → type = beField f 2 1 → fseq = beField f 3 1 → crc = beField f (6 + n) 4 →
        Completes (.svcRequest b) s (fun d => d.fw.latest = some (type, fseq, crc) ∧ d.get F.SVC_STAT_LAST_TYPE = type ∧ d.get F.SVC_STAT_LAST_FSEQ = fseq
          ∧ d.get F.SVC_COUNT_REQUESTS = min (s.dev.get F.SVC_COUNT_REQUESTS + 1) F.SVC_COUNT_REQUESTS.top ∧ d.is (H.rawBit 0x0D 0) = true
          ∧ d.is F.SVC_STAT_FRAME_ERR = false ∧ d.is F.SVC_STAT_OVERRUN = false ∧ d.fw.blocked = requestBlock s.dev type
          ∧ d.fw.sessionT = (if s.dev.fw.session ≠ none ∧ 3 ≤ type ∧ type ≤ 5 then s.dev.tempo else s.dev.fw.sessionT)
          ∧ (s.dev.fw.latest = some (type, fseq, crc) → d.fw.request = none ∧ d.fw.response = some s.dev.fw.stored ∧ d.get F.SVC_STAT_RESP_READY = 1)
          ∧ (s.dev.fw.latest ≠ some (type, fseq, crc) → s.dev.pw.phase = .safe → d.fw.request = none
              ∧ ∃ r : List Byte, r.length = 24 ∧ d.fw.response = some (svcFrame type fseq 0x03 r))
          ∧ (s.dev.fw.latest ≠ some (type, fseq, crc) → s.dev.pw.phase ≠ .safe → svcLenOk type n = false → d.fw.request = none
              ∧ d.fw.response = some (svcFrame type fseq 0x01 []))
          ∧ (s.dev.fw.latest ≠ some (type, fseq, crc) → s.dev.pw.phase ≠ .safe → svcLenOk type n = true →
              d.fw.request = some (type, fseq, (f.drop 6).take n) ∧ d.fw.svcRan = false ∧ d.fw.response = none ∧ d.get F.SVC_STAT_BUSY = 1 ∧ d.get F.SVC_STAT_RESP_READY = 0)
          ∧ d.fw.slots = s.dev.fw.slots ∧ d.fw.session = s.dev.fw.session ∧ d.out = .svcByte s.dev.svcStatus :: s.dev.out)))
    ∧ (∀ n : Nat, s.dev.svcUp = true → Completes (.svcRead n) s (fun d =>
        d.out = .svcFrame ((List.range n).map (fun k => (s.dev.fw.response.getD []).getD k 0)) :: .svcByte s.dev.svcStatus :: s.dev.out
        ∧ (∀ r, s.dev.fw.response = some r → r.length ≤ n → d.fw = { s.dev.fw with response := none } ∧ d.get F.SVC_STAT_RESP_READY = 0)
        ∧ ((s.dev.fw.response = none ∨ ∃ r, s.dev.fw.response = some r ∧ n < r.length) → d = { s.dev with out := d.out })
        ∧ Dev.OnlyRegs [R.SVC_STAT] { s.dev with out := d.out, fw := d.fw } d))
    ∧ (∀ (fseq : Nat) (p : List Byte),
      (asked s.dev 0x01 fseq p → Completes .svcInfo s (fun d => onlyResponds s.dev d 0 (beBytes 4 0x1603256F ++ beBytes 8 Config.brId.toNat ++ beBytes 4 s.dev.updStat
        ++ beBytes 4 (s.dev.slotInfo 0) ++ beBytes 4 (s.dev.fwSlot 0).version ++ beBytes 4 (s.dev.slotInfo 1) ++ beBytes 4 (s.dev.fwSlot 1).version)))
      ∧ (asked s.dev 0x02 fseq p →
        (s.dev.fw.blocked ∈ [0, 0x06] → stageBeginCode s.dev (beField p 0 4) = 0x01 → Completes .stageBegin s (fun d => onlyResponds s.dev d 0x01 []))
        ∧ (s.dev.fw.blocked ∈ 0x06 :: refusals → stageBeginCode s.dev (beField p 0 4) ≠ 0x01 → Completes .stageBegin s (fun d =>
            updRefusedAs s.dev d (stageBeginCode s.dev (beField p 0 4))))
        ∧ (∀ k, k = 1 - s.dev.fw.runSlot % 2 → stageBeginCode s.dev (beField p 0 4) = 0 → s.dev.fw.slots.length = 2 → Completes .stageBegin s (fun d =>
            responded s.dev d 0 (beBytes 1 k ++ [0, 0, 0]) ∧ d.fwSlot k = { s.dev.fwSlot k with state := 1, bytes := [] } ∧ d.fwSlot (1 - k) = s.dev.fwSlot (1 - k)
            ∧ d.fw.session = some (beField p 0 4) ∧ d.fw.sessionT = s.dev.tempo ∧ d.get F.UPD_PROGRESS_RECEIVED = 0
            ∧ Dev.OnlyRegs [R.SVC_STAT, R.UPD_PROGRESS] { s.dev with fw := d.fw } d)))
      ∧ (asked s.dev 0x03 fseq p →
        (s.dev.fw.session = none → s.dev.fw.blocked ∈ 0x03 :: 0 :: refusals → Completes .stageData s (fun d =>
          updRefusedAs s.dev d (if s.dev.fw.blocked ≠ 0 then s.dev.fw.blocked else 0x03)))
        ∧ (∀ total c k : Nat, s.dev.fw.session = some total → c = stageDataCode s.dev total (beField p 0 4) (p.length - 4) → k = 1 - s.dev.fw.runSlot % 2 →
          (c ≠ 0 → s.dev.fw.blocked = 0 → Completes .stageData s (fun d => onlyResponds s.dev d c [] ∧ d.fw.sessionT = s.dev.fw.sessionT))
          ∧ (s.dev.fw.blocked ∈ refusals → Completes .stageData s (fun d => updRefusedAs s.dev d c ∧ d.fw.sessionT = s.dev.fw.sessionT))
          ∧ (c = 0 → total ≤ 2621696 → s.dev.fw.slots.length = 2 → Completes .stageData s (fun d =>
              responded s.dev d 0 (beBytes 4 (s.dev.get F.UPD_PROGRESS_RECEIVED + (p.length - 4)))
              ∧ d.fwSlot k = { s.dev.fwSlot k with bytes := (s.dev.fwSlot k).bytes ++ p.drop 4 } ∧ d.fwSlot (1 - k) = s.dev.fwSlot (1 - k)
              ∧ d.fw.session = some total ∧ d.fw.sessionT = s.dev.fw.sessionT ∧ d.get F.UPD_PROGRESS_RECEIVED = s.dev.get F.UPD_PROGRESS_RECEIVED + (p.length - 4)
              ∧ Dev.OnlyRegs [R.SVC_STAT, R.UPD_PROGRESS] { s.dev with fw := d.fw } d))))
      ∧ (asked s.dev 0x04 fseq p →
        (s.dev.fw.session = none → s.dev.fw.blocked ∈ 0x03 :: 0 :: refusals → Completes .stageCommit s (fun d =>
          updRefusedAs s.dev d (if s.dev.fw.blocked ≠ 0 then s.dev.fw.blocked else 0x03)))
        ∧ (∀ total k : Nat, s.dev.fw.session = some total → k = 1 - s.dev.fw.runSlot % 2 →
          (s.dev.fw.blocked ≠ 0 → Completes .stageCommit s (fun d => updRefusedAs s.dev d s.dev.fw.blocked))
          ∧ (s.dev.fw.blocked = 0 → s.dev.get F.UPD_PROGRESS_RECEIVED ≠ total → Completes .stageCommit s (fun d => onlyResponds s.dev d 0x03 []))
          ∧ (s.dev.fw.blocked = 0 → s.dev.get F.UPD_PROGRESS_RECEIVED = total → s.dev.fw.slots.length = 2 → Completes .stageCommit s (fun d =>
              d.fw.session = none ∧ d.get F.UPD_PROGRESS_RECEIVED = 0 ∧ d.fwSlot (1 - k) = s.dev.fwSlot (1 - k) ∧ (d.fwSlot k).bytes = (s.dev.fwSlot k).bytes
              ∧ (if s.dev.imageCode (s.dev.fwSlot k).bytes ≠ 0 then
                  responded s.dev d (s.dev.imageCode (s.dev.fwSlot k).bytes) [] ∧ (d.fwSlot k).state = 3
                  ∧ d.get F.UPD_COUNT_REFUSED = min (s.dev.get F.UPD_COUNT_REFUSED + 1) F.UPD_COUNT_REFUSED.top ∧ d.is (H.rawBit 0x0C 1) = true
                else (d.fwSlot k).state = 2 ∧ (d.fwSlot k).version = imgVersion (s.dev.fwSlot k).bytes ∧ (d.fwSlot k).epoch = imgEpoch (s.dev.fwSlot k).bytes
                  ∧ (d.fwSlot k).seq = ((if newer32 (s.dev.fwSlot (1 - k)).seq (s.dev.fwSlot k).seq then (s.dev.fwSlot (1 - k)).seq else (s.dev.fwSlot k).seq) + 1) % 2 ^ 32
                  ∧ responded s.dev d 0 (beBytes 1 k ++ [0, 0, 0] ++ beBytes 4 (d.fwSlot k).version ++ beBytes 4 (d.fwSlot k).seq)
                  ∧ d.get F.UPD_LAST_ACTION = 1 ∧ d.get F.UPD_LAST_CODE = 0 ∧ d.get F.UPD_LAST_SLOT = k ∧ d.is (H.rawBit 0x0C 0) = true
                  ∧ d.get F.UPD_COUNT_STAGED = min (s.dev.get F.UPD_COUNT_STAGED + 1) F.UPD_COUNT_STAGED.top)
              ∧ Dev.OnlyRegs [R.SVC_STAT, R.UPD_PROGRESS, R.UPD_COUNT, R.UPD_LAST, H.irqRaw 0x0C] { s.dev with fw := d.fw } d))))
      ∧ (asked s.dev 0x05 fseq p →
        (s.dev.fw.session = none → Completes .stageAbort s (fun d => updRefusedAs s.dev d 0x03))
        ∧ (s.dev.fw.session ≠ none → Completes .stageAbort s (fun d => responded s.dev d 0 [] ∧ d.fw.session = none ∧ d.get F.UPD_PROGRESS_RECEIVED = 0
            ∧ d.fw.slots = s.dev.fw.slots ∧ Dev.OnlyRegs [R.SVC_STAT, R.UPD_PROGRESS] { s.dev with fw := d.fw } d)))
      ∧ (asked s.dev 0x08 fseq p → Completes .selftest s (fun d => ∃ r : List Byte, r.length = 24
          ∧ beField r 0 1 = s.dev.get F.BIST_RESULT_OUTCOME ∧ beField r 1 1 = s.dev.get F.BIST_FAIL_LOC_CODE ∧ beField r 3 1 = s.dev.get F.BIST_RESULT_FAILED
          ∧ beField r 4 2 = s.dev.get F.BIST_FAIL_LOC_LOC ∧ beField r 6 2 = s.dev.get F.BIST_RESULT_SLICES
          ∧ (∀ i : Fin 8, beField r (8 + i) 1 = s.dev.get (F.BIST_ITEM_CODE i)) ∧ beField r 16 4 = 0x1603256F
          ∧ onlyResponds { s.dev with freeCtr := s.dev.freeCtr + 1 } d 0 r))
      ∧ (∀ (e : Entry) (bytes : List Byte), asked s.dev 0x10 fseq p → e = Entry.ofBytes p →
        (s.dev.fw.svcRan = true → s.dev.ra.scans = [] → Completes (.svcCmd bytes) s (fun d => d = s.dev))
        ∧ (s.dev.fw.svcRan = false → s.dev.is F.SVC_CFG_CMD_EN = false → Completes (.svcCmd bytes) s (fun d => onlyResponds s.dev d 0x0D []))
        ∧ (s.dev.fw.svcRan = false → s.dev.is F.SVC_CFG_CMD_EN = true →
          ((8 ≤ e.flags ∨ e.byte7 ≠ 0) → Completes (.svcCmd bytes) s (fun d => svcCompletes s.dev d p (s.dev.svcStarted.svcRefusal e 0x02) []))
          ∧ (e.flags < 8 → e.byte7 = 0 → s.dev.tooLate e = true → transmits e = false → Completes (.svcCmd bytes) s (fun d => svcCompletes s.dev d p (s.dev.svcStarted.svcRefusal e 0x0F) []))
          ∧ (e.flags < 8 → e.byte7 = 0 → s.dev.tooLate e = true → transmits e = true → Completes (.svcCmd bytes) s (fun d =>
              responded s.dev d 0 (svcCompl s.dev p (s.dev.svcStarted.svcRefusal e 0x0F)
                (txResult (lateCause e (s.dev.svcStarted.svcRefusal e 0x0F)) none none 0 0))
              ∧ (((e.opcode = 0x0300 ∧ bit (e.p1 2) 6 = true) ∨ (e.opcode = 0x0320 ∧ bit (e.p1 12) 1 = true)) → s.dev.paused = false → d.is (H.rawBit 0x16 0) = true)
              ∧ Dev.OnlyRegs [R.SVC_STAT, H.irqRaw 0x16] { s.dev with fw := d.fw } d))
          ∧ (e.flags < 8 → e.byte7 = 0 → s.dev.tooLate e = false → e.opcode = 0 → Completes (.svcCmd bytes) s (fun d => svcCompletes s.dev d p 0 []))
          ∧ (e.flags < 8 → e.byte7 = 0 → s.dev.tooLate e = false → e.opcode = 0x0802 → Completes (.svcCmd bytes) s (fun d => svcCompletes s.dev d p 0
              (beBytes 4 s.dev.updStat ++ beBytes 4 (s.dev.fwSlot 0).version ++ beBytes 4 (s.dev.fwSlot 1).version
                ++ beBytes 4 ((s.dev.newestSlot.map (fun n => (s.dev.fwSlot n).seq)).getD 0))))
          ∧ (e.flags < 8 → e.byte7 = 0 → s.dev.tooLate e = false → (e.opcode = 3 ∨ e.opcode ∉ opcodes) → Completes (.svcCmd bytes) s (fun d => svcCompletes s.dev d p 0x01 [])))))
    ∧ ((s.dev.fw.session = none ∨ s.dev.tempo < s.dev.fw.sessionT + s.dev.get F.UPD_SESSION_CFG_IDLE_S * 4000) → Completes .stagingIdleTimeout s (fun d => d = s.dev))
    ∧ (s.dev.fw.session ≠ none → s.dev.fw.sessionT + s.dev.get F.UPD_SESSION_CFG_IDLE_S * 4000 ≤ s.dev.tempo → Completes .stagingIdleTimeout s (fun d =>
        d.fw = { s.dev.fw with session := none } ∧ d.get F.UPD_PROGRESS_RECEIVED = 0 ∧ Dev.OnlyRegs [R.UPD_PROGRESS] { s.dev with fw := d.fw } d))
    ∧ Completes .motionQualify s (fun d => d.pins = { s.dev.pins with motion := true, moved := true }
        ∧ d.is F.UPD_STAT_MOVING = (if s.dev.released then s.dev.fw.vehicle else s.dev.is F.UPD_STAT_MOVING) ∧ Dev.OnlyRegs [R.UPD_STAT] { s.dev with pins := d.pins } d)
    ∧ (s.dev.pins.motion = true → Completes .motionHoldExpiry s (fun d => d = { s.dev with pins := { s.dev.pins with motion := false, motionT := s.dev.tempo } }))
    ∧ (s.dev.pins.motion = false → s.dev.tempo < s.dev.pins.motionT + s.dev.get F.UPD_MOTION_CFG_HOLD_S * 4000 → Completes .motionHoldExpiry s (fun d => d = s.dev))
    ∧ (s.dev.pins.motion = false → s.dev.pins.motionT + s.dev.get F.UPD_MOTION_CFG_HOLD_S * 4000 ≤ s.dev.tempo → Completes .motionHoldExpiry s (fun d =>
        d.pins = { s.dev.pins with moved := false } ∧ d.is F.UPD_STAT_MOVING = (s.dev.is F.UPD_STAT_MOVING && !s.dev.released)
        ∧ Dev.OnlyRegs [R.UPD_STAT] { s.dev with pins := d.pins } d))

/-! ### PROMOTE and the update commands (17) -/

/-- The slot to be promoted asks for another handover than the running image (R493). -/
def handoverMoves (d : Dev) : Bool :=
  match d.promoteSlot with
  | some k => (d.fwSlot k).handover != (d.fwSlot d.fw.runSlot).handover
  | none => false

/-- The code of a PROMOTE, from a ring or from the service port (R24, R491, R493); 0 where it is accepted. -/
def promoteCode (d : Dev) (onRing : Bool) : Nat :=
  if updBlock d ≠ 0 then updBlock d else if (onRing && !d.enabled 0x0C) || handoverMoves d then 0x03
  else if d.promoteBusy || d.fw.promote.isSome then 0x06 else if d.promoteSlot = none then 0x11 else 0

/-- Whether a PROMOTE's code is a refusal of R491, which is counted and raised. -/
def promoteCounted (d : Dev) (code : Nat) : Bool := updBlock d != 0 || code == 0x06

/-- The code of UPD_POLICY (R24, R338, R496). -/
def updPolicyCode (d : Dev) (e : Entry) : Nat :=
  if !ownerSigned d 0x0801 e then 0x08
  else if decide (1 < e.p1 0) || decide (1 < e.p1 1) || !((e.params.drop 2).take 4 ++ (e.params.drop 8).take 24).all (fun b => b == 0) then 0x01
  else if !ownerFresh d e then 0x09 else 0

/-- A refusal is counted and raised (R491). -/
def countedRefusal (d d' : Dev) : Prop :=
  d'.get F.UPD_COUNT_REFUSED = min (d.get F.UPD_COUNT_REFUSED + 1) F.UPD_COUNT_REFUSED.top ∧ d'.is (H.rawBit 0x0C 1) = true

/-- PROMOTE and the update commands (R488, R491 to R496): a PROMOTE from a ring or the service port is refused with its code or begins; Verify
passes the slot's image or fails it; at the boundary after it the entry tests R491 again and begins the pause; the live lanes restart at P + 4 with the new
body at its ENTRY; at the boundary after the new firmware's first mark the holds are released; without one by P + 6 the slot fails and the device resigns; UPD_POLICY stores the owner's policy and UPD_INFO reports. The
vendor key is an open constant of the model (log entry 11), and every clause holds whichever it is. -/
def Obligations.PromoteActs : Prop :=
  ∀ s : State, s.Inv →
    (∀ (n : Fin 8) (hseq : Nat) (e : Entry),
      (s.dev.cmdFor n hseq 0x0800 = some e → s.dev.paused = false →
        (promoteCode s.dev true ≠ 0 → promoteCounted s.dev (promoteCode s.dev true) = false → Completes (.promote n hseq) s (fun d =>
          answers s.dev d n hseq (promoteCode s.dev true) []))
        ∧ (promoteCode s.dev true ≠ 0 → promoteCounted s.dev (promoteCode s.dev true) = true → Completes (.promote n hseq) s (fun d =>
          s.dev.Completed d n hseq (promoteCode s.dev true) [] ∧ countedRefusal s.dev d ∧ s.dev.OnlyCompletes [R.UPD_COUNT, H.irqRaw 0x0C] d n hseq))
        ∧ (∀ k, promoteCode s.dev true = 0 → s.dev.promoteSlot = some k → Completes (.promote n hseq) s (fun d => started s.dev d n hseq
          ∧ d.fw.promote = some { src := .ring n hseq, slot := k, verified := none, pausedAt := none, restarted := false, ready := none, held := none }
          ∧ d = { s.dev with inflight := d.inflight, fw := { s.dev.fw with promote := d.fw.promote } })))
      ∧ (s.dev.cmdFor n hseq 0x0801 = some e → Completes (.updPolicy n hseq) s (fun d =>
          if updPolicyCode s.dev e = 0 then
            d.fw = { s.dev.fw with reqOwner := e.p1 0 == 1, vehicle := e.p1 1 == 1 } ∧ d.ks = { s.dev.ks with oseq := e.p2 6 }
            ∧ d.is F.UPD_STAT_MOVING = (s.dev.pins.moved && e.p1 1 == 1) ∧ s.dev.Completed d n hseq 0 []
            ∧ Dev.OnlyCompletes [R.UPD_STAT] { s.dev with fw := d.fw, ks := d.ks } d n hseq
          else answers s.dev d n hseq (updPolicyCode s.dev e) []))
      ∧ (s.dev.cmdFor n hseq 0x0802 = some e → Completes (.updInfo n hseq) s (fun d => answers s.dev d n hseq 0
          (beBytes 4 s.dev.updStat ++ beBytes 4 (s.dev.fwSlot 0).version ++ beBytes 4 (s.dev.fwSlot 1).version
            ++ beBytes 4 ((s.dev.newestSlot.map (fun k => (s.dev.fwSlot k).seq)).getD 0)))))
    ∧ (∀ (fseq : Nat) (p : List Byte), asked s.dev 0x06 fseq p →
      (s.dev.fw.svcRan = true → Completes .svcPromote s (fun d => d = s.dev))
      ∧ (s.dev.fw.svcRan = false → s.dev.fw.blocked = requestBlock s.dev 6 → promoteCode s.dev false ≠ 0 → Completes .svcPromote s (fun d => responded s.dev d (promoteCode s.dev false) []
          ∧ d.fw.promote = s.dev.fw.promote ∧ (promoteCounted s.dev (promoteCode s.dev false) = true → countedRefusal s.dev d)
          ∧ Dev.OnlyRegs ([R.SVC_STAT] ++ if promoteCounted s.dev (promoteCode s.dev false) then [R.UPD_COUNT, H.irqRaw 0x0C] else []) { s.dev with fw := d.fw } d))
      ∧ (∀ k, s.dev.fw.svcRan = false → s.dev.fw.blocked = requestBlock s.dev 6 → promoteCode s.dev false = 0 → s.dev.promoteSlot = some k → Completes .svcPromote s (fun d =>
          d = { s.dev with fw := { s.dev.fw with svcRan := true, promote := some { src := .svc, slot := k, verified := none, pausedAt := none, restarted := false, ready := none, held := none } } })))
    ∧ (s.dev.fw.promote = none → ∀ c ∈ [Instr.promoteVerifyDone, .promoteEntry, .promoteRestart, .promoteReady, .promoteFail], Completes c s (fun d => d = s.dev))
    ∧ (∀ (p : Promote) (n : Fin 8) (hseq : Nat), s.dev.fw.promote = some p → p.src = .ring n hseq → (s.dev.cmdOf n hseq).isSome = true →
      (p.verified ≠ none → Completes .promoteVerifyDone s (fun d => d = s.dev))
      ∧ (p.verified = none → s.dev.paused = false → p.slot < s.dev.fw.slots.length → p.slot < 2 → Completes .promoteVerifyDone s (fun d =>
          if s.dev.imageCode (s.dev.fwSlot p.slot).bytes = 0 then d = { s.dev with fw := { s.dev.fw with promote := some { p with verified := some s.dev.tempo } } }
          else s.dev.Completed d n hseq (s.dev.imageCode (s.dev.fwSlot p.slot).bytes) [] ∧ d.fw.promote = none ∧ d.fwSlot p.slot = { s.dev.fwSlot p.slot with state := 3 }
            ∧ countedRefusal s.dev d ∧ d.get F.UPD_LAST_ACTION = 2 ∧ d.get F.UPD_LAST_CODE = s.dev.imageCode (s.dev.fwSlot p.slot).bytes ∧ d.get F.UPD_LAST_SLOT = p.slot
            ∧ Dev.OnlyCompletes [R.UPD_COUNT, R.UPD_LAST, H.irqRaw 0x0C] { s.dev with fw := d.fw } d n hseq))
      ∧ ((p.verified = none ∨ (∃ v, p.verified = some v ∧ s.dev.tempo ≤ v) ∨ p.pausedAt ≠ none ∨ s.dev.awake = false ∨ s.dev.cycle ≠ 0) → Completes .promoteEntry s (fun d => d = s.dev))
      ∧ (∀ v, p.verified = some v → v < s.dev.tempo → s.dev.cycle = 0 → p.pausedAt = none → s.dev.awake = true → s.dev.paused = false →
        ((updBlock s.dev ≠ 0 ∨ s.dev.promoteBusy = true) → Completes .promoteEntry s (fun d =>
          s.dev.Completed d n hseq (if updBlock s.dev ≠ 0 then updBlock s.dev else 0x06) [] ∧ d.fw = { s.dev.fw with promote := none } ∧ countedRefusal s.dev d
          ∧ Dev.OnlyCompletes [R.UPD_COUNT, H.irqRaw 0x0C] { s.dev with fw := d.fw } d n hseq))
        ∧ (updBlock s.dev = 0 → s.dev.promoteBusy = false → Completes .promoteEntry s (fun d => d.paused = true
          ∧ d.fw = { s.dev.fw with promote := some { p with pausedAt := some s.dev.tempo, held := some s.dev.bufferNow } } ∧ d.heldView = s.dev.snapshotAll
          ∧ Dev.OnlyRegs [R.UPD_STAT] { s.dev with fw := d.fw, heldView := d.heldView } d)))
      ∧ (p.pausedAt = none → Completes .promoteRestart s (fun d => d = s.dev) ∧ Completes .promoteFail s (fun d => d = s.dev))
      ∧ (∀ t, p.pausedAt = some t →
        ((s.dev.tempo < t + 4 ∨ s.dev.cycle ≠ 0 ∨ p.restarted = true) → Completes .promoteRestart s (fun d => d = s.dev))
        ∧ (t + 4 ≤ s.dev.tempo → s.dev.cycle = 0 → p.restarted = false → Completes .promoteRestart s (fun d =>
            d = { s.dev with fw := { s.dev.fw with promote := some { p with restarted := true } }, ln := { s.dev.ln with marked := false, lateMark := false, mem := d.ln.mem } }
            ∧ (∀ (i : Fin 4) m body, s.dev.ln.mem[i.val]? = some m → body = (s.dev.fwSlot p.slot).bytes.drop 256 → d.ln.mem[i.val]? =
                some (if s.dev.role i = 0 then { m with code := body ++ m.code.drop body.length, start := imgEntry (s.dev.fwSlot p.slot).bytes } else m))))
        ∧ ((s.dev.tempo < t + 6 ∨ p.ready ≠ none) → Completes .promoteFail s (fun d => d = s.dev))
        ∧ (t + 6 ≤ s.dev.tempo → p.ready = none → s.dev.released = true → Completes .promoteFail s (fun d =>
            resigned 0x03 { s.dev with fw := { s.dev.fw with slots := setAt s.dev.fw.slots p.slot { s.dev.fwSlot p.slot with state := 3 } } } d
            ∧ d.fw.failReport = some p.slot)))
      ∧ ((p.ready = none ∨ (∃ v, p.ready = some v ∧ s.dev.tempo ≤ v) ∨ s.dev.cycle ≠ 0) → Completes .promoteReady s (fun d => d = s.dev))
      ∧ (∀ v, p.ready = some v → v < s.dev.tempo → s.dev.cycle = 0 → s.dev.fw.request = none → s.dev.bh.heldDg = [] → p.slot < 2 → Completes .promoteReady s (fun d => d.paused = false
          ∧ d.fw = { s.dev.fw with promote := none, runSlot := p.slot } ∧ d.heldEvents = [] ∧ d.heldView = []
          ∧ s.dev.Completed d n hseq 0 (beBytes 1 p.slot ++ [0, 0, 0] ++ beBytes 4 (s.dev.fwSlot p.slot).version)
          ∧ d.get F.UPD_LAST_ACTION = 2 ∧ d.get F.UPD_LAST_CODE = 0 ∧ d.get F.UPD_LAST_SLOT = p.slot ∧ d.is (H.rawBit 0x0C 2) = true
          ∧ (∀ h ∈ s.dev.heldEvents, h.2 < 32 → d.is (H.rawBit h.1 h.2) = true)
          ∧ d.ra = s.dev.ra ∧ d.ks = s.dev.ks ∧ d.tab.mem = s.dev.tab.mem ∧ d.cfg = s.dev.cfg ∧ d.tempo = s.dev.tempo ∧ d.sessions = s.dev.sessions)))

/-! ### The pawn chain (17) -/

/-- The codes of the pawn commands (R24, R505); 0 where they are accepted. -/
def pawnLoadCode (d : Dev) (e : Entry) : Nat :=
  if e.p4 8 % 2 = 1 then 0x05
  else if decide (3 < e.p1 0) || e.p3 1 != 0 || e.p4 4 % 9 != 0 || e.p4 12 == 0 || decide (1048576 < e.p4 12) || decide (4194240 < e.p4 4 + e.p4 12)
      || !bufOk (e.p4 8) (e.p4 12) || !e.zeroFrom 16 then 0x01
  else if !d.enabled 0x0E || decide (1 < d.imgState (e.p1 0)) then 0x03 else 0
def pawnSealCode (d : Dev) (e : Entry) : Nat :=
  if decide (3 < e.p1 0) || e.p1 1 != 0 || e.p2 2 == 0 || e.p4 4 == 0 || decide (4194240 < e.p4 4) || !e.zeroFrom 12 then 0x01
  else if !d.enabled 0x0E || d.imgState (e.p1 0) != 1 then 0x03
  else if crc32 (d.packed (imgAddr (e.p1 0)) (e.p4 4)) ≠ e.p4 8 then 0x13 else 0
def pawnStartCode (d : Dev) (e : Entry) : Nat :=
  if e.p4 4 ≠ 0xFFFFFFFF ∧ e.p4 4 % 2 = 1 then 0x05
  else if decide (3 < e.p1 0) || decide (127 < e.p1 1) || e.p1 2 == 0 || decide (32 < e.p1 2) || e.p1 3 == 0 || decide (d.get F.PAWN_CFG_WINDOW < e.p1 3)
      || (e.p4 4 != 0xFFFFFFFF && !inHostRegion (e.p4 4) (e.p4 8)) || !e.zeroFrom 12 then 0x01
  else if !d.enabled 0x0E || (d.imgState (e.p1 0) != 2 && d.imgState (e.p1 0) != 4) || !d.panEn (e.p1 1) then 0x03 else 0
def pawnChainCode (d : Dev) (e : Entry) (len : Nat) : Nat :=
  if e.p4 4 % 2 = 1 then 0x05
  else if decide (3 < e.p1 0) || e.p1 1 != 0 || !inHostRegion (e.p4 4) len || !e.zeroFrom 8 then 0x01
  else if !d.enabled 0x0E then 0x03 else 0

/-- Chain k of image i has failed with this cause: it is counted, and CHAIN_FAIL is set (R504, R508). -/
def chainFailed (d d' : Dev) (c : Chain) (cause : Nat) : Prop :=
  d'.chain c.image c.number = some { c with state := 5, cause := cause }
  ∧ d'.get (F.PAWN_IMG_RESULT_FAILED c.image) = min (d.get (F.PAWN_IMG_RESULT_FAILED c.image) + 1) (F.PAWN_IMG_RESULT_FAILED c.image).top ∧ d'.is (H.rawBit 0x0E 2) = true

/-- The registers that the end of a chain of image i may write. -/
def chainKeys (i : Nat) : List Nat := [R.PAWN_COUNT, R.PAWN_ACTIVE, R.PAWN_IMG_RESULT i, R.PAWN_LAST, R.PAWN_IMG_STAT i, H.irqRaw 0x0E]

/-- A chain's retry is due (R504): in RUN, its SETUP or its window has waited RETRY_TEMPOS, and none of its frames is on the way. -/
def retryDue (d : Dev) (c : Chain) : Bool :=
  d.pw.phase == .run && decide (d.get F.PAWN_CFG_RETRY_TEMPOS ≤ c.waited) && !d.pawnBusy c
    && ((c.state == 1 && !c.sendSetup) || (c.state == 2 && decide (d.windowEnd c ≤ c.next)))

/-- A chain sent again (R504). -/
def retried (c : Chain) : Chain := { c with retries := c.retries + 1, waited := 0, sendSetup := c.state == 1, next := if c.state = 2 then c.first else c.next }

/-- A pawn frame of chain c has entered step 4 in group g, with its payload, and its airtime is charged (R500, R503). -/
def pawnSent (d d' : Dev) (g : Nat) (c : Chain) (payload : List Byte) : Prop :=
  (∃ (t : Tx) (f : MacFrame), d'.ra.txs = d.ra.txs ++ [t] ∧ t.id = d.ra.nextTx ∧ t.kind = .pawn ∧ t.stage = .step4 ∧ t.dest = some (c.members.headD 0)
    ∧ t.pawn = some (c.image, c.number) ∧ t.frame = some f ∧ f.payload = payload ∧ d'.pawnLevel g = toSigned 32 (ofSigned 32 (d.pawnLevel g - t.airtime)))
  ∧ d'.pn.turn = setAt d.pn.turn g (c.image, c.number) ∧ d'.ks = d.ks ∧ d'.cfg = d.cfg ∧ d'.tempo = d.tempo ∧ d'.inflight = d.inflight ∧ d'.out = d.out

/-- The pawn chain (R497 to R505, R508): PAWN_LOAD copies into an image, PAWN_SEAL checks and seals it, PAWN_START plans its chains, PAWN_STOP fails
them, PAWN_CHAIN reports one and PAWN_CLEAR empties the image, or each is refused with its code; a waiting chain takes a free record; a group sends the
next frame of the chain whose turn it is while its bucket permits; and a chain whose time passes is tried again or fails. -/
def Obligations.PawnChainActs : Prop :=
  ∀ s : State, s.Inv →
    (∀ (n : Fin 8) (hseq : Nat) (e : Entry) (i : Nat), i = e.p1 0 →
      (s.dev.cmdFor n hseq 0x0810 = some e →
        (pawnLoadCode s.dev e ≠ 0 → Completes (.pawnLoad n hseq) s (fun d => answers s.dev d n hseq (pawnLoadCode s.dev e) []))
        ∧ (pawnLoadCode s.dev e = 0 → Completes (.pawnLoad n hseq) s (fun d => s.dev.Completed d n hseq 0 [] ∧ d.imgState i = 1
            ∧ (∀ k, k < e.p4 12 → d.packedByte (imgAddr i) (e.p4 4 + k) = s.dev.packedByte (e.p4 8) k)
            ∧ (∀ a, (a < imgAddr i ∨ imgAddr (i + 1) ≤ a) → d.mem a = s.dev.mem a) ∧ Dev.OnlyCompletes [R.PAWN_IMG_STAT i] { s.dev with tab := d.tab } d n hseq)))
      ∧ (s.dev.cmdFor n hseq 0x0811 = some e →
        (pawnSealCode s.dev e ≠ 0 → Completes (.pawnSeal n hseq) s (fun d => answers s.dev d n hseq (pawnSealCode s.dev e) []))
        ∧ (pawnSealCode s.dev e = 0 → s.dev.pn.crcs.length = 4 → Completes (.pawnSeal n hseq) s (fun d => s.dev.Completed d n hseq 0 (beBytes 2 ((e.p4 4 + 63) / 64))
            ∧ d.imgState i = 2 ∧ d.get (F.PAWN_IMG_STAT_CAMPAIGN i) = e.p2 2 ∧ d.imgBytes i = e.p4 4 ∧ d.pn.crcs.getD i 0 = e.p4 8
            ∧ Dev.OnlyCompletes [R.PAWN_IMG_STAT i, R.PAWN_IMG_BYTES i] { s.dev with pn := { s.dev.pn with crcs := d.pn.crcs } } d n hseq)))
      ∧ (s.dev.cmdFor n hseq 0x0812 = some e →
        (pawnStartCode s.dev e ≠ 0 → Completes (.pawnStart n hseq) s (fun d => answers s.dev d n hseq (pawnStartCode s.dev e) []))
        ∧ (∀ (t : List Nat) (plan : List (List Nat)), pawnStartCode s.dev e = 0 → t = s.dev.pawnTargets (e.p1 1) (e.p4 4) (e.p4 8) →
            plan = s.dev.planChains (s.dev.panGroup (e.p1 1)) (e.p1 2) (t.filter (fun h => h / 65536 == e.p1 1 && (s.dev.validEntry h).isSome)) →
          (plan = [] → Completes (.pawnStart n hseq) s (fun d => answers s.dev d n hseq 0x11 []))
          ∧ (plan ≠ [] → s.dev.pn.pans.length = 4 → Completes (.pawnStart n hseq) s (fun d =>
              s.dev.Completed d n hseq 0 (beBytes 2 plan.length ++ beBytes 4 (plan.flatMap id).eraseDups.length ++ beBytes 4 (t.length - (plan.flatMap id).eraseDups.length))
              ∧ d.imgState i = 3 ∧ d.get (F.PAWN_IMG_CHAINS_PLANNED i) = plan.length ∧ d.get (F.PAWN_IMG_CHAINS_DONE i) = 0 ∧ d.rd (R.PAWN_IMG_RESULT i) = 0
              ∧ d.pn.pans.getD i 0 = e.p1 1 ∧ (d.pn.chains.filter (fun c => c.image == i)).map (fun c => c.members) = plan
              ∧ (∀ c ∈ d.pn.chains, c.image = i → c.state = 0 ∧ c.retries = 0 ∧ c.ackEvery = e.p1 3 ∧ c.have_ = List.replicate c.members.length 0)
              ∧ (∀ c, c.image ≠ i → (c ∈ d.pn.chains ↔ c ∈ s.dev.pn.chains))
              ∧ Dev.OnlyCompletes [R.PAWN_ACTIVE, R.PAWN_IMG_STAT i, R.PAWN_IMG_CHAINS i, R.PAWN_IMG_RESULT i] { s.dev with pn := d.pn } d n hseq))))
      ∧ (s.dev.cmdFor n hseq 0x0813 = some e →
        ((3 < i ∨ e.zeroFrom 1 = false) → Completes (.pawnStop n hseq) s (fun d => answers s.dev d n hseq 0x01 []))
        ∧ (i ≤ 3 → e.zeroFrom 1 = true → s.dev.enabled 0x0E = false → Completes (.pawnStop n hseq) s (fun d => answers s.dev d n hseq 0x03 []))
        ∧ (∀ k, i ≤ 3 → e.zeroFrom 1 = true → s.dev.enabled 0x0E = true → s.dev.paused = false → (s.dev.pn.chains.map (fun c => (c.image, c.number))).Nodup →
            k = (s.dev.pn.chains.filter (fun c => c.image == i && decide (c.state ≤ 3))).length → Completes (.pawnStop n hseq) s (fun d =>
              s.dev.Completed d n hseq 0 (beBytes 2 k) ∧ d.pn.chains = s.dev.pn.chains.map (fun c => if c.image = i ∧ c.state ≤ 3 then { c with state := 5, cause := 4 } else c)
              ∧ d.get (F.PAWN_IMG_RESULT_FAILED i) = min (s.dev.get (F.PAWN_IMG_RESULT_FAILED i) + k) (F.PAWN_IMG_RESULT_FAILED i).top
              ∧ (0 < k → d.is (H.rawBit 0x0E 2) = true ∧ (s.dev.imgState i = 3 → d.imgState i = 4 ∧ d.is (H.rawBit 0x0E 1) = true))
              ∧ Dev.OnlyCompletes (chainKeys i) { s.dev with pn := d.pn } d n hseq)))
      ∧ (s.dev.cmdFor n hseq 0x0814 = some e →
        (s.dev.chain i (e.p2 2) = none → Completes (.pawnChain n hseq) s (fun d => answers s.dev d n hseq (if e.p4 4 % 2 = 1 then 0x05 else 0x01) []))
        ∧ (∀ c, s.dev.chain i (e.p2 2) = some c →
          (pawnChainCode s.dev e c.members.length ≠ 0 → Completes (.pawnChain n hseq) s (fun d => answers s.dev d n hseq (pawnChainCode s.dev e c.members.length) []))
          ∧ (pawnChainCode s.dev e c.members.length = 0 → c.have_.length = c.members.length → Completes (.pawnChain n hseq) s (fun d =>
              s.dev.Completed d n hseq 0 (beBytes 1 c.state ++ beBytes 1 c.members.length ++ beBytes 1 c.cause ++ beBytes 1 0 ++ beBytes 2 c.retries)
              ∧ (∀ k, k < c.members.length → d.mem (e.p4 4 + k) = (c.members.getD k 0 + c.have_.getD k 0 % 65536 * 2 ^ 20) % 2 ^ 36)
              ∧ (∀ a, (a < e.p4 4 ∨ e.p4 4 + c.members.length ≤ a) → d.mem a = s.dev.mem a) ∧ Dev.OnlyCompletes [] { s.dev with tab := d.tab } d n hseq))))
      ∧ (s.dev.cmdFor n hseq 0x0815 = some e →
        ((3 < i ∨ e.zeroFrom 1 = false) → Completes (.pawnClear n hseq) s (fun d => answers s.dev d n hseq 0x01 []))
        ∧ (i ≤ 3 → e.zeroFrom 1 = true → (s.dev.enabled 0x0E = false ∨ s.dev.imgState i = 3) → Completes (.pawnClear n hseq) s (fun d => answers s.dev d n hseq 0x03 []))
        ∧ (i ≤ 3 → e.zeroFrom 1 = true → s.dev.enabled 0x0E = true → s.dev.imgState i ≠ 3 → Completes (.pawnClear n hseq) s (fun d =>
            s.dev.Completed d n hseq 0 [] ∧ d.imgState i = 0 ∧ s.dev.OnlyCompletes [R.PAWN_IMG_STAT i] d n hseq))))
    ∧ ((s.dev.enabled 0x0E = false ∨ s.dev.pw.phase ≠ .run ∨ 64 ≤ s.dev.get F.PAWN_ACTIVE_CHAINS ∨ s.dev.is F.UPD_STAT_MOVING = true ∨ ∀ c ∈ s.dev.pn.chains, c.state ≠ 0) →
        Completes .pawnSetup s (fun d => d = s.dev))
    ∧ (∀ (c : Chain) (g : Fin 4), s.dev.enabled 0x0E = true → s.dev.pw.phase = .run → s.dev.get F.PAWN_ACTIVE_CHAINS < 64 → s.dev.is F.UPD_STAT_MOVING = false →
        s.dev.pn.chains.find? (fun c => c.state == 0) = some c → g.val = s.dev.chainGroupOf c → Completes .pawnSetup s (fun d =>
          (∃ x, d.chain c.image c.number = some x ∧ x.state = 1 ∧ x.members = c.members ∧ x.retries = 0 ∧ x.waited = 0)
          ∧ ((s.dev.get (F.PAWN_BUDGET_RATE g) = 0 ∨ s.dev.pawnLevel g < 0) → d.chain c.image c.number = some { c with state := 1, retries := 0, sendSetup := true, waited := 0 }
            ∧ Dev.OnlyRegs [R.PAWN_ACTIVE] { s.dev with pn := { s.dev.pn with chains := d.pn.chains } } d)
          ∧ d.ks = s.dev.ks ∧ d.cfg = s.dev.cfg ∧ d.tempo = s.dev.tempo))
    ∧ (∀ g : Fin 4,
      ((s.dev.enabled 0x0E = false ∨ s.dev.noGrants = true ∨ s.dev.get (F.PAWN_BUDGET_RATE g) = 0 ∨ s.dev.pawnLevel g < 0 ∨ s.dev.bg.overrun = some 4
          ∨ s.dev.pawnNext g = none) → Completes (.pawnSend g) s (fun d => d = s.dev))
      ∧ (∀ c, s.dev.enabled 0x0E = true → s.dev.noGrants = false → 0 < s.dev.get (F.PAWN_BUDGET_RATE g) → 0 ≤ s.dev.pawnLevel g → s.dev.bg.overrun ≠ some 4 →
          s.dev.pawnNext g = some c →
          Completes (.pawnSend g) s (fun d => pawnSent s.dev d g c (if c.state = 1 then s.dev.setupBytes c else s.dev.blockBytes c.image c.next)
            ∧ d.chain c.image c.number = some (if c.state = 1 then { c with sendSetup := false, waited := 0 } else { c with next := c.next + 1 }))))
    ∧ (∀ (i : Fin 4) (k : Fin 256), (s.dev.chain i k = none → Completes (.pawnRetryTimeout i k) s (fun d => d = s.dev) ∧ Completes (.pawnStallTimeout i k) s (fun d => d = s.dev))
      ∧ (∀ c, s.dev.chain i k = some c →
        (retryDue s.dev c = false → Completes (.pawnRetryTimeout i k) s (fun d => d = s.dev))
        ∧ (retryDue s.dev c = true → c.retries + 1 < s.dev.get F.PAWN_CFG_MAX_RETRIES → Completes (.pawnRetryTimeout i k) s (fun d => d.chain i k = some (retried c)
            ∧ (∀ j m : Nat, (j, m) ≠ (i.val, k.val) → d.chain j m = s.dev.chain j m)
            ∧ d.get F.PAWN_COUNT_RETRIES = min (s.dev.get F.PAWN_COUNT_RETRIES + 1) F.PAWN_COUNT_RETRIES.top
            ∧ Dev.OnlyRegs [R.PAWN_COUNT, R.PAWN_ACTIVE] { s.dev with pn := { s.dev.pn with chains := d.pn.chains } } d))
        ∧ (retryDue s.dev c = true → s.dev.get F.PAWN_CFG_MAX_RETRIES ≤ c.retries + 1 → s.dev.paused = false → Completes (.pawnRetryTimeout i k) s (fun d =>
            chainFailed s.dev d (retried c) 1 ∧ d.get F.PAWN_COUNT_RETRIES = min (s.dev.get F.PAWN_COUNT_RETRIES + 1) F.PAWN_COUNT_RETRIES.top
            ∧ Dev.OnlyRegs (chainKeys i) { s.dev with pn := { s.dev.pn with chains := d.pn.chains } } d))
        ∧ ((s.dev.pw.phase ≠ .run ∨ c.state ≠ 3 ∨ c.still < s.dev.get F.PAWN_CFG_STALL_S * 4000) → Completes (.pawnStallTimeout i k) s (fun d => d = s.dev))
        ∧ (s.dev.pw.phase = .run → c.state = 3 → s.dev.get F.PAWN_CFG_STALL_S * 4000 ≤ c.still → s.dev.paused = false → Completes (.pawnStallTimeout i k) s (fun d =>
            chainFailed s.dev d c 2 ∧ Dev.OnlyRegs (chainKeys i) { s.dev with pn := { s.dev.pn with chains := d.pn.chains } } d))))
end

