-- ==== Sys2Proof/Laws/SMap.lean ====
section
/-! SUPPORT. Sparse stores: what reads after a write, and that every write keeps the canonical form. -/

namespace Sys2Proof.Machine

variable {α : Type}

theorem SMap.get_erase (dflt : Nat → α) (k k' : Nat) :
    ∀ (m : List (Nat × α)) (lo : Nat), [DecidableEq α] → SMap.wfFrom dflt lo m = true →
      SMap.get dflt (SMap.erase m k) k' = if k' = k then dflt k else SMap.get dflt m k' := by
  intro m
  induction m with
  | nil => intro lo _ _; simp only [erase, get]; split <;> simp_all
  | cons x t ih =>
    intro lo inst h
    obtain ⟨a, v⟩ := x
    simp only [wfFrom, Bool.and_eq_true, decide_eq_true_eq] at h
    simp only [erase]
    split
    · rename_i e
      subst e
      simp only [get]
      split
      · rename_i e; subst e
        have : ∀ (t : List (Nat × α)) (lo : Nat), wfFrom dflt lo t = true → k' < lo → get dflt t k' = dflt k' := by
          intro t
          induction t with
          | nil => intros; rfl
          | cons y s ihs =>
            intro lo hw hlt
            obtain ⟨b, w⟩ := y
            simp only [wfFrom, Bool.and_eq_true, decide_eq_true_eq] at hw
            have hb : k' ≠ b := by omega
            simp only [get, hb, if_false]
            exact ihs _ hw.2 (by omega)
        exact this t _ h.2 (by omega)
      · rfl
    · rename_i e
      simp only [get]
      split
      · rename_i e'; subst e'
        simp [show ¬(k' = k) from fun q => e q.symm]
      · exact ih _ h.2

theorem SMap.get_insert (dflt : Nat → α) (k k' : Nat) (v : α) :
    ∀ m : List (Nat × α), SMap.get dflt (SMap.insert m k v) k' = if k' = k then v else SMap.get dflt m k' := by
  intro m
  induction m with
  | nil => simp only [insert, get]
  | cons x t ih =>
    obtain ⟨a, w⟩ := x
    simp only [insert]
    split
    · simp only [get]
    · split
      · rename_i e; subst e
        simp only [get]
        split <;> rfl
      · rename_i e
        simp only [get, ih]
        split
        · rename_i e'; subst e'
          simp [show ¬(k' = k) from fun q => e q.symm]
        · rfl

/-- What a store reads as after a write: the value at the key written, and what it read before elsewhere. -/
theorem SMap.get_set [DecidableEq α] (dflt : Nat → α) (m : List (Nat × α)) (h : SMap.wf dflt m = true) (k k' : Nat) (v : α) :
    SMap.get dflt (SMap.set dflt m k v) k' = if k' = k then v else SMap.get dflt m k' := by
  unfold SMap.set
  split
  · rename_i e
    rw [SMap.get_erase dflt k k' m 0 h, e]
  · exact SMap.get_insert dflt k k' v m

theorem SMap.wfFrom_mono [DecidableEq α] (dflt : Nat → α) :
    ∀ (m : List (Nat × α)) (lo lo' : Nat), lo' ≤ lo → SMap.wfFrom dflt lo m = true → SMap.wfFrom dflt lo' m = true := by
  intro m
  cases m with
  | nil => intros; rfl
  | cons x t =>
    intro lo lo' hle h
    obtain ⟨a, v⟩ := x
    simp only [wfFrom, Bool.and_eq_true, decide_eq_true_eq] at h ⊢
    exact ⟨⟨by omega, h.1.2⟩, h.2⟩

theorem SMap.wfFrom_erase [DecidableEq α] (dflt : Nat → α) (k : Nat) :
    ∀ (m : List (Nat × α)) (lo : Nat), SMap.wfFrom dflt lo m = true → SMap.wfFrom dflt lo (SMap.erase m k) = true := by
  intro m
  induction m with
  | nil => intro lo h; exact h
  | cons x t ih =>
    intro lo h
    obtain ⟨a, v⟩ := x
    simp only [wfFrom, Bool.and_eq_true, decide_eq_true_eq] at h
    simp only [erase]
    split
    · exact SMap.wfFrom_mono dflt t (a + 1) lo (by omega) h.2
    · simp only [wfFrom, Bool.and_eq_true, decide_eq_true_eq]
      exact ⟨h.1, ih _ h.2⟩

theorem SMap.wfFrom_insert [DecidableEq α] (dflt : Nat → α) (k : Nat) (v : α) (hv : v ≠ dflt k) :
    ∀ (m : List (Nat × α)) (lo : Nat), lo ≤ k → SMap.wfFrom dflt lo m = true → SMap.wfFrom dflt lo (SMap.insert m k v) = true := by
  intro m
  induction m with
  | nil =>
    intro lo hlo _
    simp only [insert, wfFrom, Bool.and_eq_true, decide_eq_true_eq]
    exact ⟨⟨hlo, hv⟩, trivial⟩
  | cons x t ih =>
    intro lo hlo h
    obtain ⟨a, w⟩ := x
    have h' := h
    simp only [wfFrom, Bool.and_eq_true, decide_eq_true_eq] at h
    simp only [insert]
    split
    · rename_i hlt
      simp only [wfFrom, Bool.and_eq_true, decide_eq_true_eq]
      exact ⟨⟨hlo, hv⟩, ⟨⟨by omega, h.1.2⟩, h.2⟩⟩
    · split
      · rename_i e; subst e
        simp only [wfFrom, Bool.and_eq_true, decide_eq_true_eq]
        exact ⟨⟨hlo, hv⟩, h.2⟩
      · simp only [wfFrom, Bool.and_eq_true, decide_eq_true_eq]
        exact ⟨h.1, ih _ (by omega) h.2⟩

/-- Every write of a store keeps the canonical form. -/
@[simp] theorem SMap.wf_set [DecidableEq α] (dflt : Nat → α) (m : List (Nat × α)) (h : SMap.wf dflt m = true) (k : Nat) (v : α) :
    SMap.wf dflt (SMap.set dflt m k v) = true := by
  unfold SMap.set
  split
  · exact SMap.wfFrom_erase dflt k m 0 h
  · rename_i hv
    exact SMap.wfFrom_insert dflt k v hv m 0 (Nat.zero_le k) h

end Sys2Proof.Machine
end

