-- ==== Sys2Proof/Laws/Canon.lean ====
section
/-! SUPPORT. The canonical form of the sparse stores (`Dev.Canon`) under record updates, folds and choices. -/

set_option linter.unusedSimpArgs false
set_option linter.unusedVariables false

namespace Sys2Proof.Machine

@[simp] theorem Dev.canon_mk (a b c d e f g h i j k l m n o p q r s t u v w x y z a1 a2 a3 a4 a5 a6 a7 a8) :
    Dev.Canon (Dev.mk a b c d e f g h i j k l m n o p q r s t u v w x y z a1 a2 a3 a4 a5 a6 a7 a8) ↔
      (SMap.wf resetReg a = true ∧ SMap.wf resetReg f = true ∧ SMap.wf (fun _ => 0#36) p.mem = true
        ∧ SMap.wf (fun _ => 0#32) s.vault.words = true ∧ z.length = 8) :=
  ⟨fun h => ⟨h.regs, h.cfg, h.mem, h.vault, h.rings⟩, fun h => ⟨h.1, h.2.1, h.2.2.1, h.2.2.2.1, h.2.2.2.2⟩⟩

@[simp] theorem Dev.canon_regs {d : Dev} (h : d.Canon) : SMap.wf resetReg d.regs = true := h.regs
@[simp] theorem Dev.canon_cfg {d : Dev} (h : d.Canon) : SMap.wf resetReg d.cfg = true := h.cfg
@[simp] theorem Dev.canon_mem {d : Dev} (h : d.Canon) : SMap.wf (fun _ => 0#36) d.tab.mem = true := h.mem
@[simp] theorem Dev.canon_vault {d : Dev} (h : d.Canon) : SMap.wf (fun _ => 0#32) d.ra.vault.words = true := h.vault

@[simp] theorem Dev.canon_rings {d : Dev} (h : d.Canon) : d.rings.length = 8 := h.rings

@[simp] theorem setAt_length {α : Type} (l : List α) (n : Nat) (v : α) : (setAt l n v).length = l.length := by
  induction l generalizing n with
  | nil => rfl
  | cons a t ih => cases n with
    | zero => rfl
    | succ k => exact congrArg (· + 1) (ih k)

@[simp] theorem SMap.wf_nil {α : Type} [DecidableEq α] (f : Nat → α) : SMap.wf f [] = true := rfl

@[simp] theorem Dev.canon_ite (c : Prop) [Decidable c] (a b : Dev) : Dev.Canon (if c then a else b) ↔ if c then Dev.Canon a else Dev.Canon b := by
  split <;> rfl

@[simp] theorem fst_ite {α β : Type} (c : Prop) [Decidable c] (a b : α × β) : (if c then a else b).1 = if c then a.1 else b.1 := by
  split <;> rfl
@[simp] theorem snd_ite {α β : Type} (c : Prop) [Decidable c] (a b : α × β) : (if c then a else b).2 = if c then a.2 else b.2 := by
  split <;> rfl

theorem Dev.foldl_canon {α : Type} (f : Dev → α → Dev) (l : List α) (d : Dev) (h : d.Canon) (hf : ∀ x a, x.Canon → (f x a).Canon) :
    (l.foldl f d).Canon := by
  induction l generalizing d with
  | nil => exact h
  | cons a t ih => exact ih _ (hf _ _ h)

theorem Dev.foldl_canon_fst {α β : Type} (f : Dev × β → α → Dev × β) (l : List α) (d : Dev × β) (h : d.1.Canon)
    (hf : ∀ x a, x.1.Canon → (f x a).1.Canon) : (l.foldl f d).1.Canon := by
  induction l generalizing d with
  | nil => exact h
  | cons a t ih => exact ih _ (hf _ _ h)

theorem Tables.wf_mk {a0 a1 a2 a3 a4 a5 a6 a7 a8 a9 a10 a11 a12 a13 a14 a15 a16 a17 a18 a19 a20 a21 a22 a23 a24} :
    SMap.wf (fun _ => 0#36) (Tables.mk a0 a1 a2 a3 a4 a5 a6 a7 a8 a9 a10 a11 a12 a13 a14 a15 a16 a17 a18 a19 a20 a21 a22 a23 a24).mem = true
      ↔ SMap.wf (fun _ => 0#36) a2 = true :=
  ⟨fun h => h, fun h => h⟩
theorem Radio.wf_mk {b0 b1 b2 b3 b4 b5 b6 b7 b8 b9 b10 b11 b12 b13 b14 b15 b16 b17 b18 b19 b20 b21 b22 b23 b24 b25 b26 b27 b28 b29} :
    SMap.wf (fun _ => 0#32) (Radio.mk b0 b1 b2 b3 b4 b5 b6 b7 b8 b9 b10 b11 b12 b13 b14 b15 b16 b17 b18 b19 b20 b21 b22 b23 b24 b25 b26 b27 b28 b29).vault.words = true
      ↔ SMap.wf (fun _ => 0#32) b8.words = true :=
  ⟨fun h => h, fun h => h⟩
theorem Vault.wf_mk {c0 c1 c2 c3 c4} : SMap.wf (fun _ => 0#32) (Vault.mk c0 c1 c2 c3 c4).words = true ↔ SMap.wf (fun _ => 0#32) c0 = true :=
  ⟨fun h => h, fun h => h⟩
theorem Vault.writeWords_wf {v : Vault} {n j : Nat} {ws : List Nat} (h : SMap.wf (fun _ => 0#32) v.words = true) :
    SMap.wf (fun _ => 0#32) (v.writeWords n j ws).words = true := by
  have key : ∀ (l : List (Nat × Nat)) (m : List (Nat × Reg)), SMap.wf (fun _ => 0#32) m = true →
      SMap.wf (fun _ => 0#32) (l.foldl (fun m x => SMap.set (fun _ => (0#32 : Reg)) m (n * 1024 + j + x.2) (BitVec.ofNat 32 x.1)) m) = true := by
    intro l
    induction l with
    | nil => exact fun m h => h
    | cons x t ih => exact fun m h => ih _ (SMap.wf_set _ _ h _ _)
  exact key _ _ h
theorem Vault.written_wf {v : Vault} {b : VaultBurn} (h : SMap.wf (fun _ => 0#32) v.words = true) :
    SMap.wf (fun _ => 0#32) (v.written b).words = true := Vault.writeWords_wf h
theorem Vault.loaded_wf {v : Vault} (h : SMap.wf (fun _ => 0#32) v.words = true) :
    SMap.wf (fun _ => 0#32) v.loaded.words = true := h

theorem Vault.cut_wf {v : Vault} (h : SMap.wf (fun _ => 0#32) v.words = true) :
    SMap.wf (fun _ => 0#32) v.cut.words = true := by
  unfold Vault.cut
  split
  · exact h
  · split
    · exact Vault.written_wf h
    · exact Vault.writeWords_wf h

theorem Dev.reset_canon : Dev.reset.Canon := ⟨by decide, by decide, by decide, by decide, by decide⟩
theorem Dev.reset_rings : Dev.reset.rings.length = 8 := by decide
theorem Dev.reset_tab_canon : SMap.wf (fun _ => 0#36) Dev.reset.tab.mem = true := by decide

theorem canon_fst_mk {β : Type} {d : Dev} {b : β} : (d, b).1.Canon ↔ d.Canon := ⟨fun h => h, fun h => h⟩
theorem canon_snd_mk {β : Type} {d : Dev} {b : β} : (b, d).2.Canon ↔ d.Canon := ⟨fun h => h, fun h => h⟩
theorem canon_option {α : Type} {o : Option α} {a : Dev} {f : α → Dev} (ha : a.Canon) (hf : ∀ x, (f x).Canon) :
    Dev.Canon (match o with | none => a | some x => f x) := by cases o with | none => exact ha | some x => exact hf x
theorem canon_option_fst {α β : Type} {o : Option α} {a : Dev × β} {f : α → Dev × β} (ha : a.1.Canon) (hf : ∀ x, (f x).1.Canon) :
    Dev.Canon (match o with | none => a | some x => f x).1 := by cases o with | none => exact ha | some x => exact hf x
theorem canon_option_fst' {α β : Type} {o : Option α} {a : Dev × β} {f : α → Dev × β} (hf : ∀ x, (f x).1.Canon) (ha : a.1.Canon) :
    Dev.Canon (match o with | some x => f x | none => a).1 := by cases o with | none => exact ha | some x => exact hf x
theorem canon_bif {c : Prop} [Decidable c] {a b : Dev} (ha : a.Canon) (hb : b.Canon) : Dev.Canon (if c then a else b) := by
  split <;> assumption
theorem canon_bif_fst {β : Type} {c : Prop} [Decidable c] {a b : Dev × β} (ha : a.1.Canon) (hb : b.1.Canon) :
    Dev.Canon (if c then a else b).1 := by
  split <;> assumption
theorem Dev.canon_of_fst {β : Type} {p : Dev × β} {d : Dev} {b : β} (e : p = (d, b)) (h : p.1.Canon) : d.Canon := by rw [e] at h; exact h
theorem Dev.canon_of_snd {β : Type} {p : β × Dev} {d : Dev} {b : β} (e : p = (b, d)) (h : p.2.Canon) : d.Canon := by rw [e] at h; exact h

end Sys2Proof.Machine
end

