-- ==== Sys2Proof/Laws/Canon1.lean ====
section
/-! SUPPORT. Every operation of Machine/Ops, Rings, Memory, Chains, Directory, Keys, Phy, Jobs, Timers keeps the canonical form: one lemma for each, for callers to cite. -/

set_option linter.unusedSimpArgs false
set_option linter.unusedVariables false

namespace Sys2Proof.Machine

/-! ### Ops -/

@[simp] theorem Dev.wr_canon (d : Dev) (k v : Nat) (h_d : Dev.Canon d) :
    Dev.Canon (Dev.wr d k v) := by
  unfold Dev.wr
  simp [*]

@[simp] theorem Dev.put_canon (d : Dev) (f : Fld) (n : Nat) (h_d : Dev.Canon d) :
    Dev.Canon (Dev.put d f n) := by
  unfold Dev.put
  simp [*]

@[simp] theorem Dev.bump_canon (d : Dev) (f : Fld) (n : Nat) (h_d : Dev.Canon d) :
    Dev.Canon (Dev.bump d f n) := by
  unfold Dev.bump
  simp [*]

@[simp] theorem Dev.peak_canon (d : Dev) (f : Fld) (v : Nat) (h_d : Dev.Canon d) :
    Dev.Canon (Dev.peak d f v) := by
  unfold Dev.peak
  simp [*]

@[simp] theorem Dev.least_canon (d : Dev) (f : Fld) (v : Nat) (h_d : Dev.Canon d) :
    Dev.Canon (Dev.least d f v) := by
  unfold Dev.least
  simp [*]

@[simp] theorem Dev.putPair_canon (d : Dev) (lo hi : Fld) (v : Nat) (h_d : Dev.Canon d) :
    Dev.Canon (Dev.putPair d lo hi v) := by
  unfold Dev.putPair
  simp [*]

@[simp] theorem Dev.evcAdd_canon (d : Dev) (k n : Nat) (h_d : Dev.Canon d) :
    Dev.Canon (Dev.evcAdd d k n).1 := by
  unfold Dev.evcAdd
  simp [*]

@[simp] theorem Dev.evtBase_canon (d : Dev) (id n : Nat) (h_d : Dev.Canon d) :
    Dev.Canon (Dev.evtBase d id n).1 := by
  unfold Dev.evtBase
  split
  · refine Dev.foldl_canon_fst _ _ (d, false) h_d ?_
    intro x k hx
    split
    · exact canon_fst_mk.2 (Dev.evcAdd_canon _ _ _ hx)
    · exact hx
  · exact h_d

@[simp] theorem Dev.evt_canon (d : Dev) (id n : Nat) (h_d : Dev.Canon d) :
    Dev.Canon (Dev.evt d id n) := by
  unfold Dev.evt
  try dsimp -proj only
  with_reducible repeat' first
    | assumption | apply Dev.evtBase_canon | apply Dev.put_canon | split

@[simp] theorem Dev.raise_canon (d : Dev) (p b : Nat) (h_d : Dev.Canon d) :
    Dev.Canon (Dev.raise d p b) := by
  unfold Dev.raise
  try dsimp -proj only
  with_reducible repeat' first
    | assumption | intro _ | refine Dev.foldl_canon _ _ _ ?_ ?_ | refine Dev.foldl_canon_fst _ _ _ ?_ ?_
    | apply Dev.put_canon | apply Dev.evt_canon | (simp -proj only [canon_fst_mk, canon_snd_mk])
    | (simp -proj only [Dev.canon_mk, Tables.wf_mk, Radio.wf_mk, Vault.wf_mk]; refine ⟨?_, ?_, ?_, ?_, ?_⟩)
    | refine Dev.canon_regs ?_ | refine Dev.canon_cfg ?_ | refine Dev.canon_mem ?_ | refine Dev.canon_vault ?_
    | refine Dev.canon_rings ?_ | exact Dev.reset_rings | split

@[simp] theorem Dev.countAsserted_canon (before after : Dev) (h_before : Dev.Canon before) (h_after : Dev.Canon after) :
    Dev.Canon (Dev.countAsserted before after) := by
  unfold Dev.countAsserted
  try dsimp -proj only
  with_reducible repeat' first
    | assumption | intro _ | refine Dev.foldl_canon _ _ _ ?_ ?_ | refine Dev.foldl_canon_fst _ _ _ ?_ ?_
    | apply Dev.evt_canon | split

@[simp] theorem Dev.reject_canon (d : Dev) (p code addr data : Nat) (h_d : Dev.Canon d) :
    Dev.Canon (Dev.reject d p code addr data) := by
  unfold Dev.reject
  try dsimp -proj only
  with_reducible repeat' first
    | assumption | apply Dev.bump_canon | apply Dev.put_canon | apply Dev.raise_canon | split

@[simp] theorem Dev.seqInc_canon (d : Dev) (p : Nat) (h_d : Dev.Canon d) :
    Dev.Canon (Dev.seqInc d p) := by
  unfold Dev.seqInc
  simp [*]

@[simp] theorem Dev.holdWrite_canon (d : Dev) (w : HeldWrite) (h_d : Dev.Canon d) :
    Dev.Canon (Dev.holdWrite d w) := by
  unfold Dev.holdWrite
  simp [*]

@[simp] theorem Dev.saveWord_canon (d : Dev) (k v : Nat) (h_d : Dev.Canon d) :
    Dev.Canon (Dev.saveWord d k v) := by
  unfold Dev.saveWord
  simp [*]

@[simp] theorem Dev.save_canon (d : Dev) (k : Nat) (h_d : Dev.Canon d) :
    Dev.Canon (Dev.save d k) := by
  unfold Dev.save
  simp [*]

@[simp] theorem Dev.reloadPage_canon (d : Dev) (p : Nat) (h_d : Dev.Canon d) :
    Dev.Canon (Dev.reloadPage d p) := by
  unfold Dev.reloadPage
  try dsimp -proj only
  with_reducible repeat' first
    | assumption | intro _ | refine Dev.foldl_canon _ _ _ ?_ ?_ | refine Dev.foldl_canon_fst _ _ _ ?_ ?_
    | apply Dev.wr_canon | split

@[simp] theorem Dev.fillCells_canon (d : Dev) (lo size n : Nat) (h_d : Dev.Canon d) :
    Dev.Canon (Dev.fillCells d lo size n) := by
  unfold Dev.fillCells
  simp [*]

@[simp] theorem Dev.emit_canon (d : Dev) (o : Out) (h_d : Dev.Canon d) :
    Dev.Canon (Dev.emit d o) := by
  unfold Dev.emit
  simp [*]

@[simp] theorem Dev.draw_canon (d : Dev) (h_d : Dev.Canon d) :
    Dev.Canon (Dev.draw d).2 := by
  unfold Dev.draw
  simp [*]

@[simp] theorem Dev.passCycles_canon (d : Dev) (n : Nat) (h_d : Dev.Canon d) :
    Dev.Canon (Dev.passCycles d n) := by
  unfold Dev.passCycles
  simp [*]

/-! ### Rings -/

@[simp] theorem Dev.setRing_canon (d : Dev) (n : Nat) (r : Ring) (h_d : Dev.Canon d) :
    Dev.Canon (Dev.setRing d n r) := by
  unfold Dev.setRing
  simp [*]

@[simp] theorem Dev.retire_canon (d : Dev) (n hseq : Nat) (h_d : Dev.Canon d) :
    Dev.Canon (Dev.retire d n hseq) := by
  unfold Dev.retire
  simp [*]

@[simp] theorem Dev.cqWrite_canon (d : Dev) (n : Nat) (w : Waiting) (h_d : Dev.Canon d) :
    Dev.Canon (Dev.cqWrite d n w) := by
  unfold Dev.cqWrite
  try dsimp -proj only
  with_reducible repeat' first
    | assumption | apply Dev.emit_canon | apply Dev.put_canon | apply Dev.retire_canon | split

@[simp] theorem Dev.deliver_canon (d : Dev) (n : Nat) (w : Waiting) (sessOpen : Bool) (h_d : Dev.Canon d) :
    Dev.Canon (Dev.deliver d n w sessOpen) := by
  unfold Dev.deliver
  simp [*]

@[simp] theorem Dev.issue_canon (d : Dev) (n tag hseq code : Nat) (result : List Byte) (irq own : Bool) (sess : Option Nat) (h_d : Dev.Canon d) :
    Dev.Canon (Dev.issue d n tag hseq code result irq own sess) := by
  unfold Dev.issue
  try dsimp -proj only
  with_reducible repeat' first
    | assumption | apply Dev.fillCells_canon | apply Dev.put_canon | apply Dev.setRing_canon | apply Dev.evt_canon
    | apply Dev.raise_canon | apply Dev.deliver_canon | split

@[simp] theorem Dev.svcRespond_canon (d : Dev) (status : Nat) (payload : List Byte) (h_d : Dev.Canon d) :
    Dev.Canon (Dev.svcRespond d status payload) := by
  unfold Dev.svcRespond
  try dsimp -proj only
  with_reducible repeat' first
    | assumption | intro _ | refine Dev.foldl_canon _ _ _ ?_ ?_ | refine Dev.foldl_canon_fst _ _ _ ?_ ?_
    | apply Dev.put_canon | (simp -proj only [canon_fst_mk, canon_snd_mk])
    | (simp -proj only [Dev.canon_mk, Tables.wf_mk, Radio.wf_mk, Vault.wf_mk]; refine ⟨?_, ?_, ?_, ?_, ?_⟩)
    | refine Dev.canon_regs ?_ | refine Dev.canon_cfg ?_ | refine Dev.canon_mem ?_ | refine Dev.canon_vault ?_
    | refine Dev.canon_rings ?_ | exact Dev.reset_rings | split

@[simp] theorem Dev.svcFinish_canon (d : Dev) (code : Nat) (result : List Byte) (h_d : Dev.Canon d) :
    Dev.Canon (Dev.svcFinish d code result) := by
  unfold Dev.svcFinish
  try dsimp -proj only
  with_reducible repeat' first
    | assumption | apply Dev.svcRespond_canon | split

@[simp] theorem Dev.finish_canon (d : Dev) (src : Src) (code : Nat) (result : List Byte) (h_d : Dev.Canon d) :
    Dev.Canon (Dev.finish d src code result) := by
  unfold Dev.finish
  try dsimp -proj only
  with_reducible repeat' first
    | assumption | intro _ | refine Dev.foldl_canon _ _ _ ?_ ?_ | refine Dev.foldl_canon_fst _ _ _ ?_ ?_
    | apply Dev.svcFinish_canon | apply Dev.issue_canon | (simp -proj only [canon_fst_mk, canon_snd_mk])
    | (simp -proj only [Dev.canon_mk, Tables.wf_mk, Radio.wf_mk, Vault.wf_mk]; refine ⟨?_, ?_, ?_, ?_, ?_⟩)
    | refine Dev.canon_regs ?_ | refine Dev.canon_cfg ?_ | refine Dev.canon_mem ?_ | refine Dev.canon_vault ?_
    | refine Dev.canon_rings ?_ | exact Dev.reset_rings | split

@[simp] theorem Dev.runRow_canon (d : Dev) (n hseq opcode : Nat) (f : Dev → Src → Entry → Dev) (h_d : Dev.Canon d) (h_f : ∀ x0 x1 x2, Dev.Canon x0 → Dev.Canon (f x0 x1 x2)) :
    Dev.Canon (Dev.runRow d n hseq opcode f) := by
  unfold Dev.runRow
  try dsimp -proj only
  with_reducible repeat' first
    | assumption | intro _ | refine Dev.foldl_canon _ _ _ ?_ ?_ | refine Dev.foldl_canon_fst _ _ _ ?_ ?_ | apply h_f
    | (simp -proj only [canon_fst_mk, canon_snd_mk])
    | (simp -proj only [Dev.canon_mk, Tables.wf_mk, Radio.wf_mk, Vault.wf_mk]; refine ⟨?_, ?_, ?_, ?_, ?_⟩)
    | refine Dev.canon_regs ?_ | refine Dev.canon_cfg ?_ | refine Dev.canon_mem ?_ | refine Dev.canon_vault ?_
    | refine Dev.canon_rings ?_ | exact Dev.reset_rings | split

/-! ### Memory -/

@[simp] theorem Dev.setMem_canon (d : Dev) (a v : Nat) (h_d : Dev.Canon d) :
    Dev.Canon (Dev.setMem d a v) := by
  unfold Dev.setMem
  simp [*]

@[simp] theorem Dev.setMemBits_canon (d : Dev) (a hi lo v : Nat) (h_d : Dev.Canon d) :
    Dev.Canon (Dev.setMemBits d a hi lo v) := by
  unfold Dev.setMemBits
  simp [*]

@[simp] theorem Dev.setMems_canon (e0 : Dev) (e1 : Nat) (e2 : List Nat) (h_e0 : Dev.Canon e0) :
    Dev.Canon (Dev.setMems e0 e1 e2) := by
  induction e2 generalizing e0 e1 with
  | nil => exact h_e0
  | cons v vs ih => exact ih _ _ (Dev.setMem_canon _ _ _ h_e0)

@[simp] theorem Dev.setPackedByte_canon (d : Dev) (a n : Nat) (b : Byte) (h_d : Dev.Canon d) :
    Dev.Canon (Dev.setPackedByte d a n b) := by
  unfold Dev.setPackedByte
  simp [*]

@[simp] theorem Dev.setPacked_canon (e0 : Dev) (e1 : Nat) (e2 : Nat) (e3 : List Byte) (h_e0 : Dev.Canon e0) :
    Dev.Canon (Dev.setPacked e0 e1 e2 e3) := by
  induction e3 generalizing e0 e1 e2 with
  | nil => exact h_e0
  | cons v vs ih => exact ih _ _ _ (Dev.setPackedByte_canon _ _ _ _ h_e0)

@[simp] theorem Dev.xorSymbols_canon (d : Dev) (line : Nat) (e : List (Nat × Nat)) (h_d : Dev.Canon d) :
    Dev.Canon (Dev.xorSymbols d line e) := by
  unfold Dev.xorSymbols
  try dsimp -proj only
  with_reducible repeat' first
    | assumption | intro _ | refine Dev.foldl_canon _ _ _ ?_ ?_ | refine Dev.foldl_canon_fst _ _ _ ?_ ?_
    | (simp -proj only [canon_fst_mk, canon_snd_mk])
    | (simp -proj only [Dev.canon_mk, Tables.wf_mk, Radio.wf_mk, Vault.wf_mk]; refine ⟨?_, ?_, ?_, ?_, ?_⟩)
    | refine Dev.canon_regs ?_ | refine Dev.canon_cfg ?_ | refine Dev.canon_mem ?_ | refine Dev.canon_vault ?_
    | refine Dev.canon_rings ?_ | exact Dev.reset_rings | with_reducible_and_instances refine SMap.wf_set _ _ ?_ _ _
    | exact SMap.wf_nil _ | exact Dev.reset_canon | exact Dev.reset_tab_canon | refine Vault.written_wf ?_
    | refine Vault.cut_wf ?_ | refine Dev.canon_of_fst (by assumption) ?_ | refine Dev.canon_of_snd (by assumption) ?_
    | split | dsimp -proj only | (simp -proj only [Dev.canon_ite, fst_ite, snd_ite])

@[simp] theorem Dev.zeroLine_canon (d : Dev) (line : Nat) (h_d : Dev.Canon d) :
    Dev.Canon (Dev.zeroLine d line) := by
  unfold Dev.zeroLine
  simp [*]

@[simp] theorem Dev.lineCe_canon (d : Dev) (line nsyms reader : Nat) (h_d : Dev.Canon d) :
    Dev.Canon (Dev.lineCe d line nsyms reader) := by
  unfold Dev.lineCe
  try dsimp -proj only
  with_reducible repeat' first
    | assumption | intro _ | refine Dev.foldl_canon _ _ _ ?_ ?_ | refine Dev.foldl_canon_fst _ _ _ ?_ ?_
    | apply Dev.bump_canon | apply Dev.put_canon | apply Dev.evt_canon | apply Dev.raise_canon
    | (simp -proj only [canon_fst_mk, canon_snd_mk])
    | (simp -proj only [Dev.canon_mk, Tables.wf_mk, Radio.wf_mk, Vault.wf_mk]; refine ⟨?_, ?_, ?_, ?_, ?_⟩)
    | refine Dev.canon_regs ?_ | refine Dev.canon_cfg ?_ | refine Dev.canon_mem ?_ | refine Dev.canon_vault ?_
    | refine Dev.canon_rings ?_ | exact Dev.reset_rings | split

@[simp] theorem Dev.lineUe_canon (d : Dev) (line reader : Nat) (h_d : Dev.Canon d) :
    Dev.Canon (Dev.lineUe d line reader) := by
  unfold Dev.lineUe
  try dsimp -proj only
  with_reducible repeat' first
    | assumption | intro _ | refine Dev.foldl_canon _ _ _ ?_ ?_ | refine Dev.foldl_canon_fst _ _ _ ?_ ?_
    | apply Dev.put_canon | apply Dev.bump_canon | apply Dev.evt_canon | apply Dev.raise_canon
    | (simp -proj only [canon_fst_mk, canon_snd_mk])
    | (simp -proj only [Dev.canon_mk, Tables.wf_mk, Radio.wf_mk, Vault.wf_mk]; refine ⟨?_, ?_, ?_, ?_, ?_⟩)
    | refine Dev.canon_regs ?_ | refine Dev.canon_cfg ?_ | refine Dev.canon_mem ?_ | refine Dev.canon_vault ?_
    | refine Dev.canon_rings ?_ | exact Dev.reset_rings | split

@[simp] theorem Dev.writeBackDue_canon (d : Dev) (h_d : Dev.Canon d) :
    Dev.Canon (Dev.writeBackDue d) := by
  unfold Dev.writeBackDue
  simp [*]

/-! ### Chains -/

@[simp] theorem Dev.setChains_canon (d : Dev) (l : List Chain) (h_d : Dev.Canon d) :
    Dev.Canon (Dev.setChains d l) := by
  unfold Dev.setChains
  simp [*]

@[simp] theorem Dev.setChain_canon (d : Dev) (c : Chain) (h_d : Dev.Canon d) :
    Dev.Canon (Dev.setChain d c) := by
  unfold Dev.setChain
  simp [*]

@[simp] theorem Dev.pawnEvent_canon (d : Dev) (kind image chain cause : Nat) (h_d : Dev.Canon d) :
    Dev.Canon (Dev.pawnEvent d kind image chain cause) := by
  unfold Dev.pawnEvent
  try dsimp -proj only
  with_reducible repeat' first
    | assumption | apply Dev.put_canon | split

@[simp] theorem Dev.imageCheck_canon (d : Dev) (i : Nat) (h_d : Dev.Canon d) :
    Dev.Canon (Dev.imageCheck d i) := by
  unfold Dev.imageCheck
  try dsimp -proj only
  with_reducible repeat' first
    | assumption | apply Dev.put_canon | apply Dev.pawnEvent_canon | apply Dev.raise_canon | split

@[simp] theorem Dev.chainDone_canon (d : Dev) (c : Chain) (h_d : Dev.Canon d) :
    Dev.Canon (Dev.chainDone d c) := by
  unfold Dev.chainDone
  try dsimp -proj only
  with_reducible repeat' first
    | assumption | apply Dev.setChain_canon | apply Dev.bump_canon | apply Dev.pawnEvent_canon | apply Dev.raise_canon
    | apply Dev.imageCheck_canon | split

@[simp] theorem Dev.chainFail_canon (d : Dev) (c : Chain) (cause : Nat) (h_d : Dev.Canon d) :
    Dev.Canon (Dev.chainFail d c cause) := by
  unfold Dev.chainFail
  try dsimp -proj only
  with_reducible repeat' first
    | assumption | apply Dev.setChain_canon | apply Dev.bump_canon | apply Dev.pawnEvent_canon | apply Dev.raise_canon
    | apply Dev.imageCheck_canon | split

@[simp] theorem Dev.failChains_canon (d : Dev) (p : Chain → Bool) (cause : Nat) (h_d : Dev.Canon d) :
    Dev.Canon (Dev.failChains d p cause) := by
  unfold Dev.failChains
  try dsimp -proj only
  with_reducible repeat' first
    | assumption | intro _ | refine Dev.foldl_canon _ _ _ ?_ ?_ | refine Dev.foldl_canon_fst _ _ _ ?_ ?_
    | apply Dev.chainFail_canon | split

@[simp] theorem Dev.imageDamaged_canon (d : Dev) (i : Nat) (h_d : Dev.Canon d) :
    Dev.Canon (Dev.imageDamaged d i) := by
  unfold Dev.imageDamaged
  try dsimp -proj only
  with_reducible repeat' first
    | assumption | apply Dev.put_canon | apply Dev.failChains_canon | apply Dev.pawnEvent_canon
    | apply Dev.raise_canon | split

/-! ### Directory -/

@[simp] theorem Dev.setPanWord_canon (d : Dev) (p k v : Nat) (h_d : Dev.Canon d) :
    Dev.Canon (Dev.setPanWord d p k v) := by
  unfold Dev.setPanWord
  simp [*]

@[simp] theorem Dev.setLineBits_canon (d : Dev) (e w hi lo v : Nat) (h_d : Dev.Canon d) :
    Dev.Canon (Dev.setLineBits d e w hi lo v) := by
  unfold Dev.setLineBits
  simp [*]

@[simp] theorem Dev.setXslot_canon (d : Dev) (e v : Nat) (h_d : Dev.Canon d) :
    Dev.Canon (Dev.setXslot d e v) := by
  unfold Dev.setXslot
  simp [*]

@[simp] theorem Dev.clearTiming_canon (d : Dev) (e : Nat) (h_d : Dev.Canon d) :
    Dev.Canon (Dev.clearTiming d e) := by
  unfold Dev.clearTiming
  try dsimp -proj only
  with_reducible repeat' first
    | assumption | apply Dev.setMemBits_canon | apply Dev.setLineBits_canon | split

@[simp] theorem Dev.touchTiming_canon (d : Dev) (e : Nat) (h_d : Dev.Canon d) :
    Dev.Canon (Dev.touchTiming d e) := by
  unfold Dev.touchTiming
  simp [*]

@[simp] theorem Dev.notePeak_canon (d : Dev) (probes : Nat) (h_d : Dev.Canon d) :
    Dev.Canon (Dev.notePeak d probes) := by
  unfold Dev.notePeak
  simp [*]

@[simp] theorem Dev.dirFull_canon (d : Dev) (cause handle : Nat) (h_d : Dev.Canon d) :
    Dev.Canon (Dev.dirFull d cause handle) := by
  unfold Dev.dirFull
  try dsimp -proj only
  with_reducible repeat' first
    | assumption | apply Dev.put_canon | apply Dev.raise_canon | split

@[simp] theorem Dev.usePrefix_canon (d : Dev) (i v : Nat) (h_d : Dev.Canon d) :
    Dev.Canon (Dev.usePrefix d i v) := by
  unfold Dev.usePrefix
  simp [*]

@[simp] theorem Dev.dropPrefix_canon (d : Dev) (i : Nat) (h_d : Dev.Canon d) :
    Dev.Canon (Dev.dropPrefix d i) := by
  unfold Dev.dropPrefix
  simp [*]

@[simp] theorem Dev.usePage_canon (d : Dev) (p b q : Nat) (h_d : Dev.Canon d) :
    Dev.Canon (Dev.usePage d p b q) := by
  unfold Dev.usePage
  simp [*]

@[simp] theorem Dev.dropPage_canon (d : Dev) (q : Nat) (h_d : Dev.Canon d) :
    Dev.Canon (Dev.dropPage d q) := by
  unfold Dev.dropPage
  simp [*]

@[simp] theorem Dev.keyRef_canon (d : Dev) (slot : Nat) (up : Bool) (h_d : Dev.Canon d) :
    Dev.Canon (Dev.keyRef d slot up) := by
  unfold Dev.keyRef
  simp [*]

@[simp] theorem Dev.createEntry_canon (d : Dev) (n : NewEntry) (h_d : Dev.Canon d) :
    Dev.Canon (Dev.createEntry d n).1 := by
  unfold Dev.createEntry
  try dsimp -proj only
  with_reducible repeat' first
    | assumption | apply Dev.dirFull_canon | apply Dev.notePeak_canon | apply Dev.usePage_canon
    | apply Dev.usePrefix_canon | apply Dev.setXslot_canon | apply Dev.setMem_canon | apply Dev.setLineBits_canon
    | apply Dev.keyRef_canon | apply Dev.bump_canon | apply Dev.evt_canon | split

@[simp] theorem Dev.setCursor_canon (d : Dev) (p a : Nat) (h_d : Dev.Canon d) :
    Dev.Canon (Dev.setCursor d p a) := by
  unfold Dev.setCursor
  simp [*]

@[simp] theorem Dev.fwdRemove_canon (d : Dev) (g k : Nat) (h_d : Dev.Canon d) :
    Dev.Canon (Dev.fwdRemove d g k) := by
  unfold Dev.fwdRemove
  try dsimp -proj only
  with_reducible repeat' first
    | assumption | apply Dev.setMem_canon | apply Dev.put_canon | split

@[simp] theorem Dev.fwdLookup_canon (d : Dev) (g h : Nat) (h_d : Dev.Canon d) :
    Dev.Canon (Dev.fwdLookup d g h).1 := by
  unfold Dev.fwdLookup
  try dsimp -proj only
  with_reducible repeat' first
    | assumption | apply Dev.fwdRemove_canon | split

@[simp] theorem Dev.listOrigin_canon (d : Dev) (g o t : Nat) (h_d : Dev.Canon d) :
    Dev.Canon (Dev.listOrigin d g o t) := by
  unfold Dev.listOrigin
  simp [*]

@[simp] theorem Dev.fwdWrite_canon (d : Dev) (g k o : Nat) (move : Bool) (p : Path) (strength : Nat) (h_d : Dev.Canon d) :
    Dev.Canon (Dev.fwdWrite d g k o move p strength) := by
  unfold Dev.fwdWrite
  simp [*]

@[simp] theorem Dev.learn_canon (d : Dev) (g o : Nat) (p : Path) (strength t : Nat) (h_d : Dev.Canon d) :
    Dev.Canon (Dev.learn d g o p strength t) := by
  unfold Dev.learn
  try dsimp -proj only
  with_reducible repeat' first
    | assumption | apply Dev.bump_canon | apply Dev.raise_canon | apply Dev.fwdRemove_canon | apply Dev.fwdWrite_canon
    | apply Dev.evt_canon | apply Dev.listOrigin_canon | apply Dev.setMemBits_canon | apply Dev.put_canon | split

@[simp] theorem Dev.sweepVisit_canon (d : Dev) (g k : Nat) (h_d : Dev.Canon d) :
    Dev.Canon (Dev.sweepVisit d g k) := by
  unfold Dev.sweepVisit
  try dsimp -proj only
  with_reducible repeat' first
    | assumption | apply Dev.setMemBits_canon | apply Dev.fwdRemove_canon | apply Dev.bump_canon | apply Dev.evt_canon
    | split

@[simp] theorem Dev.sweep_canon (d : Dev) (g : Nat) (e0 : Nat) (h_d : Dev.Canon d) :
    Dev.Canon (Dev.sweep d g e0) := by
  induction e0 generalizing d g h_d with
  | zero =>
    unfold Dev.sweep
    try dsimp -proj only
    with_reducible repeat' first
      | assumption | apply Dev.sweepVisit_canon | apply Dev.put_canon | split
  | succ n ih =>
    unfold Dev.sweep
    try dsimp -proj only
    with_reducible repeat' first
      | assumption | apply ih | apply Dev.sweepVisit_canon | apply Dev.put_canon | split

@[simp] theorem Dev.removeEntry_canon (d : Dev) (h : Nat) (h_d : Dev.Canon d) :
    Dev.Canon (Dev.removeEntry d h) := by
  unfold Dev.removeEntry
  try dsimp -proj only
  with_reducible repeat' first
    | assumption | apply Dev.setMems_canon | apply Dev.setXslot_canon | apply Dev.dropPrefix_canon
    | apply Dev.dropPage_canon | apply Dev.keyRef_canon | apply Dev.fwdRemove_canon | apply Dev.put_canon
    | apply Dev.evt_canon | apply Dev.failChains_canon | split

/-! ### Keys -/

@[simp] theorem Dev.setKeySlot_canon (d : Dev) (k : KeySlot) (h_d : Dev.Canon d) :
    Dev.Canon (Dev.setKeySlot d k) := by
  unfold Dev.setKeySlot
  simp [*]

@[simp] theorem Dev.setCopies_canon (d : Dev) (s : Nat) (x : SlotCopy × SlotCopy) (h_d : Dev.Canon d) :
    Dev.Canon (Dev.setCopies d s x) := by
  unfold Dev.setCopies
  simp [*]

@[simp] theorem Dev.storeSlot_canon (d : Dev) (s : Nat) (h_d : Dev.Canon d) :
    Dev.Canon (Dev.storeSlot d s) := by
  unfold Dev.storeSlot
  simp [*]

@[simp] theorem Dev.keyStall_canon (d : Dev) (s : Nat) (h_d : Dev.Canon d) :
    Dev.Canon (Dev.keyStall d s) := by
  unfold Dev.keyStall
  try dsimp -proj only
  with_reducible repeat' first
    | assumption | apply Dev.setKeySlot_canon | apply Dev.bump_canon | apply Dev.raise_canon | split

@[simp] theorem Dev.stallTick_canon (d : Dev) (h_d : Dev.Canon d) :
    Dev.Canon (Dev.stallTick d) := by
  unfold Dev.stallTick
  try dsimp -proj only
  with_reducible repeat' first
    | assumption | intro _ | refine Dev.foldl_canon _ _ _ ?_ ?_ | refine Dev.foldl_canon_fst _ _ _ ?_ ?_
    | apply Dev.keyStall_canon | split

@[simp] theorem Dev.reserveStart_canon (d : Dev) (s : Nat) (h_d : Dev.Canon d) :
    Dev.Canon (Dev.reserveStart d s) := by
  unfold Dev.reserveStart
  try dsimp -proj only
  with_reducible repeat' first
    | assumption | apply Dev.setKeySlot_canon | split

@[simp] theorem Dev.takeCounter_canon (d : Dev) (s level : Nat) (h_d : Dev.Canon d) :
    Dev.Canon (Dev.takeCounter d s level).1 := by
  unfold Dev.takeCounter
  try dsimp -proj only
  with_reducible repeat' first
    | assumption | apply Dev.reserveStart_canon | apply Dev.keyStall_canon | apply Dev.setKeySlot_canon
    | apply Dev.evt_canon | apply Dev.raise_canon | split

@[simp] theorem Dev.reserveDone_canon (d : Dev) (s : Nat) (h_d : Dev.Canon d) :
    Dev.Canon (Dev.reserveDone d s) := by
  unfold Dev.reserveDone
  try dsimp -proj only
  with_reducible repeat' first
    | assumption | apply Dev.setKeySlot_canon | apply Dev.storeSlot_canon | apply Dev.bump_canon
    | apply Dev.raise_canon | apply Dev.evt_canon | split

@[simp] theorem Dev.engine_canon (d : Dev) (ack : Bool) (level la lm : Nat) (h_d : Dev.Canon d) :
    Dev.Canon (Dev.engine d ack level la lm) := by
  unfold Dev.engine
  simp [*]

@[simp] theorem Dev.engineRx_canon (d : Dev) (f : MacFrame) (level : Nat) (h_d : Dev.Canon d) :
    Dev.Canon (Dev.engineRx d f level) := by
  unfold Dev.engineRx
  simp [*]

@[simp] theorem Dev.authFail_canon (d : Dev) (cause handle : Nat) (h_d : Dev.Canon d) :
    Dev.Canon (Dev.authFail d cause handle) := by
  unfold Dev.authFail
  try dsimp -proj only
  with_reducible repeat' first
    | assumption | apply Dev.put_canon | apply Dev.bump_canon | apply Dev.evt_canon | apply Dev.raise_canon | split

@[simp] theorem Dev.replayFail_canon (d : Dev) (handle : Nat) (h_d : Dev.Canon d) :
    Dev.Canon (Dev.replayFail d handle) := by
  unfold Dev.replayFail
  try dsimp -proj only
  with_reducible repeat' first
    | assumption | apply Dev.put_canon | apply Dev.bump_canon | apply Dev.evt_canon | apply Dev.raise_canon | split

@[simp] theorem Dev.verify_canon (d : Dev) (h e : Nat) (f : MacFrame) (h_d : Dev.Canon d) :
    Dev.Canon (Dev.verify d h e f).1 := by
  unfold Dev.verify
  try dsimp -proj only
  with_reducible repeat' first
    | assumption | apply Dev.authFail_canon | apply Dev.replayFail_canon | apply Dev.engineRx_canon
    | apply Dev.evt_canon | apply Dev.bump_canon | apply Dev.setLineBits_canon | split

@[simp] theorem Dev.verifyJoin_canon (d : Dev) (p ext : Nat) (f : MacFrame) (h_d : Dev.Canon d) :
    Dev.Canon (Dev.verifyJoin d p ext f).1 := by
  unfold Dev.verifyJoin
  try dsimp -proj only
  with_reducible repeat' first
    | assumption | apply Dev.authFail_canon | apply Dev.engineRx_canon | apply Dev.evt_canon | split

@[simp] theorem Dev.ownerAccept_canon (d : Dev) (e : Entry) (h_d : Dev.Canon d) :
    Dev.Canon (Dev.ownerAccept d e) := by
  unfold Dev.ownerAccept
  simp [*]

@[simp] theorem Dev.cmdKeyLoad_canon (d : Dev) (src : Src) (e : Entry) (h_d : Dev.Canon d) :
    Dev.Canon (Dev.cmdKeyLoad d src e) := by
  unfold Dev.cmdKeyLoad
  try dsimp -proj only
  with_reducible repeat' first
    | assumption | apply Dev.finish_canon | apply Dev.setKeySlot_canon | apply Dev.storeSlot_canon
    | apply Dev.ownerAccept_canon | split

@[simp] theorem Dev.eraseSlot_canon (d : Dev) (s : Nat) (h_d : Dev.Canon d) :
    Dev.Canon (Dev.eraseSlot d s) := by
  unfold Dev.eraseSlot
  simp [*]

@[simp] theorem Dev.cmdKeyErase_canon (d : Dev) (src : Src) (e : Entry) (h_d : Dev.Canon d) :
    Dev.Canon (Dev.cmdKeyErase d src e) := by
  unfold Dev.cmdKeyErase
  try dsimp -proj only
  with_reducible repeat' first
    | assumption | apply Dev.finish_canon | apply Dev.eraseSlot_canon | apply Dev.raise_canon | split

@[simp] theorem Dev.cmdKeyBind_canon (d : Dev) (src : Src) (e : Entry) (h_d : Dev.Canon d) :
    Dev.Canon (Dev.cmdKeyBind d src e) := by
  unfold Dev.cmdKeyBind
  try dsimp -proj only
  with_reducible repeat' first
    | assumption | apply Dev.keyRef_canon | apply Dev.setLineBits_canon | apply Dev.finish_canon | split

@[simp] theorem Dev.cmdKeyInfo_canon (d : Dev) (src : Src) (e : Entry) (h_d : Dev.Canon d) :
    Dev.Canon (Dev.cmdKeyInfo d src e) := by
  unfold Dev.cmdKeyInfo
  try dsimp -proj only
  with_reducible repeat' first
    | assumption | apply Dev.finish_canon | split

@[simp] theorem Dev.cmdOwnerLock_canon (d : Dev) (src : Src) (e : Entry) (h_d : Dev.Canon d) :
    Dev.Canon (Dev.cmdOwnerLock d src e) := by
  unfold Dev.cmdOwnerLock
  try dsimp -proj only
  with_reducible repeat' first
    | assumption | intro _ | refine Dev.foldl_canon _ _ _ ?_ ?_ | refine Dev.foldl_canon_fst _ _ _ ?_ ?_
    | apply Dev.finish_canon | apply Dev.ownerAccept_canon | (simp -proj only [canon_fst_mk, canon_snd_mk])
    | (simp -proj only [Dev.canon_mk, Tables.wf_mk, Radio.wf_mk, Vault.wf_mk]; refine ⟨?_, ?_, ?_, ?_, ?_⟩)
    | refine Dev.canon_regs ?_ | refine Dev.canon_cfg ?_ | refine Dev.canon_mem ?_ | refine Dev.canon_vault ?_
    | refine Dev.canon_rings ?_ | exact Dev.reset_rings | split

/-! ### Phy -/

@[simp] theorem Dev.reloadDraft_canon (d : Dev) (h_d : Dev.Canon d) :
    Dev.Canon (Dev.reloadDraft d) := by
  unfold Dev.reloadDraft
  try dsimp -proj only
  with_reducible repeat' first
    | assumption | intro _ | refine Dev.foldl_canon _ _ _ ?_ ?_ | refine Dev.foldl_canon_fst _ _ _ ?_ ?_
    | apply Dev.wr_canon | split

/-! ### Jobs -/

@[simp] theorem Dev.bgDo_canon (d : Dev) (rank u n : Nat) (h_d : Dev.Canon d) :
    Dev.Canon (Dev.bgDo d rank u n) := by
  unfold Dev.bgDo
  simp [*]

/-! ### Timers -/

@[simp] theorem Dev.setTimCount_canon (d : Dev) (n v : Nat) (h_d : Dev.Canon d) :
    Dev.Canon (Dev.setTimCount d n v) := by
  unfold Dev.setTimCount
  simp [*]

@[simp] theorem Dev.setTimCcr_canon (d : Dev) (n c v : Nat) (h_d : Dev.Canon d) :
    Dev.Canon (Dev.setTimCcr d n c v) := by
  unfold Dev.setTimCcr
  simp [*]

@[simp] theorem Dev.setTimPhase_canon (d : Dev) (n v : Nat) (h_d : Dev.Canon d) :
    Dev.Canon (Dev.setTimPhase d n v) := by
  unfold Dev.setTimPhase
  simp [*]

@[simp] theorem Dev.timEvents_canon (d : Dev) (n b k : Nat) (h_d : Dev.Canon d) :
    Dev.Canon (Dev.timEvents d n b k) := by
  unfold Dev.timEvents
  try dsimp -proj only
  with_reducible repeat' first
    | assumption | apply Dev.put_canon | apply Dev.raise_canon | apply Dev.evt_canon | split

@[simp] theorem Dev.timEvent_canon (d : Dev) (n b : Nat) (h_d : Dev.Canon d) :
    Dev.Canon (Dev.timEvent d n b) := by
  unfold Dev.timEvent
  try dsimp -proj only
  with_reducible repeat' first
    | assumption | apply Dev.timEvents_canon | split

@[simp] theorem Dev.countClock_canon (d : Dev) (n : Nat) (h_d : Dev.Canon d) :
    Dev.Canon (Dev.countClock d n) := by
  unfold Dev.countClock
  try dsimp -proj only
  with_reducible repeat' first
    | assumption | intro _ | refine Dev.foldl_canon _ _ _ ?_ ?_ | refine Dev.foldl_canon_fst _ _ _ ?_ ?_
    | apply Dev.setTimCount_canon | apply Dev.timEvent_canon | split

@[simp] theorem Dev.timCycle_canon (d : Dev) (h_d : Dev.Canon d) :
    Dev.Canon (Dev.timCycle d) := by
  unfold Dev.timCycle
  try dsimp -proj only
  with_reducible repeat' first
    | assumption | intro _ | refine Dev.foldl_canon _ _ _ ?_ ?_ | refine Dev.foldl_canon_fst _ _ _ ?_ ?_
    | apply Dev.setTimPhase_canon | apply Dev.countClock_canon | split

@[simp] theorem Dev.timCycles_canon (d : Dev) (e : Nat) (h_d : Dev.Canon d) :
    Dev.Canon (Dev.timCycles d e) := by
  unfold Dev.timCycles
  try dsimp -proj only
  with_reducible repeat' first
    | assumption | intro _ | refine Dev.foldl_canon _ _ _ ?_ ?_ | refine Dev.foldl_canon_fst _ _ _ ?_ ?_
    | apply Dev.setTimCount_canon | apply Dev.setTimPhase_canon | apply Dev.timEvents_canon | split

@[simp] theorem Dev.capture_canon (d : Dev) (n c v : Nat) (coarse : Bool) (h_d : Dev.Canon d) :
    Dev.Canon (Dev.capture d n c v coarse) := by
  unfold Dev.capture
  try dsimp -proj only
  with_reducible repeat' first
    | assumption | apply Dev.put_canon | apply Dev.setTimCcr_canon | apply Dev.timEvent_canon | split

@[simp] theorem Dev.captureEdge_canon (d : Dev) (src : Nat) (rising : Bool) (h_d : Dev.Canon d) :
    Dev.Canon (Dev.captureEdge d src rising) := by
  unfold Dev.captureEdge
  try dsimp -proj only
  with_reducible repeat' first
    | assumption | intro _ | refine Dev.foldl_canon _ _ _ ?_ ?_ | refine Dev.foldl_canon_fst _ _ _ ?_ ?_
    | apply Dev.capture_canon | split

@[simp] theorem Dev.captureSlow_canon (d : Dev) (src : Nat) (rising : Bool) (tick : Nat) (h_d : Dev.Canon d) :
    Dev.Canon (Dev.captureSlow d src rising tick) := by
  unfold Dev.captureSlow
  try dsimp -proj only
  with_reducible repeat' first
    | assumption | intro _ | refine Dev.foldl_canon _ _ _ ?_ ?_ | refine Dev.foldl_canon_fst _ _ _ ?_ ?_
    | apply Dev.tick_canon | apply Dev.put_canon | (simp -proj only [canon_fst_mk, canon_snd_mk])
    | (simp -proj only [Dev.canon_mk, Tables.wf_mk, Radio.wf_mk, Vault.wf_mk]; refine ⟨?_, ?_, ?_, ?_, ?_⟩)
    | refine Dev.canon_regs ?_ | refine Dev.canon_cfg ?_ | refine Dev.canon_mem ?_ | refine Dev.canon_vault ?_
    | refine Dev.canon_rings ?_ | exact Dev.reset_rings | split

@[simp] theorem Dev.gpioEdge_canon (d : Dev) (j : Nat) (rising : Bool) (h_d : Dev.Canon d) :
    Dev.Canon (Dev.gpioEdge d j rising) := by
  unfold Dev.gpioEdge
  try dsimp -proj only
  with_reducible repeat' first
    | assumption | intro _ | refine Dev.foldl_canon _ _ _ ?_ ?_ | refine Dev.foldl_canon_fst _ _ _ ?_ ?_
    | apply Dev.evt_canon | apply Dev.put_canon | apply Dev.raise_canon
    | (simp -proj only [canon_fst_mk, canon_snd_mk])
    | (simp -proj only [Dev.canon_mk, Tables.wf_mk, Radio.wf_mk, Vault.wf_mk]; refine ⟨?_, ?_, ?_, ?_, ?_⟩)
    | refine Dev.canon_regs ?_ | refine Dev.canon_cfg ?_ | refine Dev.canon_mem ?_ | refine Dev.canon_vault ?_
    | refine Dev.canon_rings ?_ | exact Dev.reset_rings | split

@[simp] theorem Dev.ppsLatch_canon (d : Dev) (h_d : Dev.Canon d) :
    Dev.Canon (Dev.ppsLatch d) := by
  unfold Dev.ppsLatch
  simp [*]

@[simp] theorem Dev.motionEdge_canon (d : Dev) (rising : Bool) (h_d : Dev.Canon d) :
    Dev.Canon (Dev.motionEdge d rising) := by
  unfold Dev.motionEdge
  simp [*]

@[simp] theorem Dev.ppsEdge_canon (d : Dev) (h_d : Dev.Canon d) :
    Dev.Canon (Dev.ppsEdge d) := by
  unfold Dev.ppsEdge
  try dsimp -proj only
  with_reducible repeat' first
    | assumption | intro _ | refine Dev.foldl_canon _ _ _ ?_ ?_ | refine Dev.foldl_canon_fst _ _ _ ?_ ?_
    | apply Dev.ppsLatch_canon | apply Dev.evt_canon | (simp -proj only [canon_fst_mk, canon_snd_mk])
    | (simp -proj only [Dev.canon_mk, Tables.wf_mk, Radio.wf_mk, Vault.wf_mk]; refine ⟨?_, ?_, ?_, ?_, ?_⟩)
    | refine Dev.canon_regs ?_ | refine Dev.canon_cfg ?_ | refine Dev.canon_mem ?_ | refine Dev.canon_vault ?_
    | refine Dev.canon_rings ?_ | exact Dev.reset_rings | split

@[simp] theorem Dev.timMakeup_canon (d : Dev) (n e : Nat) (h_d : Dev.Canon d) :
    Dev.Canon (Dev.timMakeup d n e) := by
  unfold Dev.timMakeup
  try dsimp -proj only
  with_reducible repeat' first
    | assumption | intro _ | refine Dev.foldl_canon _ _ _ ?_ ?_ | refine Dev.foldl_canon_fst _ _ _ ?_ ?_
    | apply Dev.setTimCount_canon | apply Dev.setTimPhase_canon | apply Dev.put_canon | apply Dev.timEvent_canon
    | split

@[simp] theorem Dev.sleepMakeup_canon (d : Dev) (ticks : Nat) (h_d : Dev.Canon d) :
    Dev.Canon (Dev.sleepMakeup d ticks) := by
  unfold Dev.sleepMakeup
  try dsimp -proj only
  with_reducible repeat' first
    | assumption | intro _ | refine Dev.foldl_canon _ _ _ ?_ ?_ | refine Dev.foldl_canon_fst _ _ _ ?_ ?_
    | apply Dev.timMakeup_canon | apply Dev.capture_canon | (simp -proj only [canon_fst_mk, canon_snd_mk])
    | (simp -proj only [Dev.canon_mk, Tables.wf_mk, Radio.wf_mk, Vault.wf_mk]; refine ⟨?_, ?_, ?_, ?_, ?_⟩)
    | refine Dev.canon_regs ?_ | refine Dev.canon_cfg ?_ | refine Dev.canon_mem ?_ | refine Dev.canon_vault ?_
    | refine Dev.canon_rings ?_ | exact Dev.reset_rings | split

end Sys2Proof.Machine
end

