-- ==== Sys2Proof/Laws/Canon2.lean ====
section
/-! SUPPORT. Every operation of Machine/Vault, Calib, Tx keeps the canonical form: one lemma for each, for callers to cite. -/

set_option linter.unusedSimpArgs false
set_option linter.unusedVariables false

namespace Sys2Proof.Machine

/-! ### Vault -/

@[simp] theorem Dev.cmdVaultCommit_canon (d : Dev) (src : Src) (e : Entry) (h_d : Dev.Canon d) :
    Dev.Canon (Dev.cmdVaultCommit d src e) := by
  unfold Dev.cmdVaultCommit
  simp [*]

@[simp] theorem Dev.vaultApply_canon (d : Dev) (h_d : Dev.Canon d) :
    Dev.Canon (Dev.vaultApply d) := by
  unfold Dev.vaultApply
  try dsimp -proj only
  with_reducible repeat' first
    | assumption | intro _ | refine Dev.foldl_canon _ _ _ ?_ ?_ | refine Dev.foldl_canon_fst _ _ _ ?_ ?_
    | apply Dev.reloadDraft_canon | apply Dev.finish_canon | (simp -proj only [canon_fst_mk, canon_snd_mk])
    | (simp -proj only [Dev.canon_mk, Tables.wf_mk, Radio.wf_mk, Vault.wf_mk]; refine ⟨?_, ?_, ?_, ?_, ?_⟩)
    | refine Dev.canon_regs ?_ | refine Dev.canon_cfg ?_ | refine Dev.canon_mem ?_ | refine Dev.canon_vault ?_
    | refine Dev.canon_rings ?_ | exact Dev.reset_rings | with_reducible_and_instances refine SMap.wf_set _ _ ?_ _ _
    | exact SMap.wf_nil _ | exact Dev.reset_canon | exact Dev.reset_tab_canon | refine Vault.written_wf ?_
    | refine Vault.cut_wf ?_ | refine Dev.canon_of_fst (by assumption) ?_ | refine Dev.canon_of_snd (by assumption) ?_
    | split | dsimp -proj only | (simp -proj only [Dev.canon_ite, fst_ite, snd_ite])

@[simp] theorem Dev.cmdOwnerRekey_canon (d : Dev) (src : Src) (e : Entry) (h_d : Dev.Canon d) :
    Dev.Canon (Dev.cmdOwnerRekey d src e).1 := by
  unfold Dev.cmdOwnerRekey
  try dsimp -proj only
  with_reducible repeat' first
    | assumption | intro _ | refine Dev.foldl_canon _ _ _ ?_ ?_ | refine Dev.foldl_canon_fst _ _ _ ?_ ?_
    | apply Dev.finish_canon | apply Dev.ownerAccept_canon | (simp -proj only [canon_fst_mk, canon_snd_mk])
    | (simp -proj only [Dev.canon_mk, Tables.wf_mk, Radio.wf_mk, Vault.wf_mk]; refine ⟨?_, ?_, ?_, ?_, ?_⟩)
    | refine Dev.canon_regs ?_ | refine Dev.canon_cfg ?_ | refine Dev.canon_mem ?_ | refine Dev.canon_vault ?_
    | refine Dev.canon_rings ?_ | exact Dev.reset_rings | split

/-! ### Calib -/

@[simp] theorem Dev.setCalg_canon (d : Dev) (g : Nat) (c : CalGroup) (h_d : Dev.Canon d) :
    Dev.Canon (Dev.setCalg d g c) := by
  unfold Dev.setCalg
  simp [*]

@[simp] theorem Dev.setCalState_canon (d : Dev) (g v : Nat) (h_d : Dev.Canon d) :
    Dev.Canon (Dev.setCalState d g v) := by
  unfold Dev.setCalState
  simp [*]

@[simp] theorem Dev.calNone_canon (d : Dev) (g : Nat) (h_d : Dev.Canon d) :
    Dev.Canon (Dev.calNone d g) := by
  unfold Dev.calNone
  try dsimp -proj only
  with_reducible repeat' first
    | assumption | apply Dev.put_canon | split

@[simp] theorem Dev.calOutcome_canon (d : Dev) (k code item : Nat) (h_d : Dev.Canon d) :
    Dev.Canon (Dev.calOutcome d k code item) := by
  unfold Dev.calOutcome
  simp [*]

/-! ### Tx -/

@[simp] theorem Dev.bufSignal_canon (d : Dev) (h_d : Dev.Canon d) :
    Dev.Canon (Dev.bufSignal d) := by
  unfold Dev.bufSignal
  simp [*]

@[simp] theorem Dev.setHeld_canon (d : Dev) (down up : Nat) (h_d : Dev.Canon d) :
    Dev.Canon (Dev.setHeld d down up) := by
  unfold Dev.setHeld
  try dsimp -proj only
  with_reducible repeat' first
    | assumption | intro _ | refine Dev.foldl_canon _ _ _ ?_ ?_ | refine Dev.foldl_canon_fst _ _ _ ?_ ?_
    | apply Dev.put_canon | apply Dev.least_canon | apply Dev.bufSignal_canon
    | (simp -proj only [canon_fst_mk, canon_snd_mk])
    | (simp -proj only [Dev.canon_mk, Tables.wf_mk, Radio.wf_mk, Vault.wf_mk]; refine ⟨?_, ?_, ?_, ?_, ?_⟩)
    | refine Dev.canon_regs ?_ | refine Dev.canon_cfg ?_ | refine Dev.canon_mem ?_ | refine Dev.canon_vault ?_
    | refine Dev.canon_rings ?_ | exact Dev.reset_rings | split

@[simp] theorem Dev.takeCells_canon (d : Dev) (down : Bool) (n : Nat) (h_d : Dev.Canon d) :
    Dev.Canon (Dev.takeCells d down n) := by
  unfold Dev.takeCells
  simp [*]

@[simp] theorem Dev.freeCells_canon (d : Dev) (down : Bool) (n : Nat) (h_d : Dev.Canon d) :
    Dev.Canon (Dev.freeCells d down n) := by
  unfold Dev.freeCells
  simp [*]

@[simp] theorem Dev.setTxs_canon (d : Dev) (l : List Tx) (h_d : Dev.Canon d) :
    Dev.Canon (Dev.setTxs d l) := by
  unfold Dev.setTxs
  simp [*]

@[simp] theorem Dev.txUpd_canon (d : Dev) (id : Nat) (f : Tx → Tx) (h_d : Dev.Canon d) :
    Dev.Canon (Dev.txUpd d id f) := by
  unfold Dev.txUpd
  simp [*]

@[simp] theorem Dev.txLast_canon (d : Dev) (id : Nat) (f : Tx → Tx) (h_d : Dev.Canon d) :
    Dev.Canon (Dev.txLast d id f) := by
  unfold Dev.txLast
  try dsimp -proj only
  with_reducible repeat' first
    | assumption | apply Dev.setTxs_canon | split

@[simp] theorem Dev.txDrop_canon (d : Dev) (id : Nat) (h_d : Dev.Canon d) :
    Dev.Canon (Dev.txDrop d id) := by
  unfold Dev.txDrop
  simp [*]

@[simp] theorem Dev.txAdd_canon (d : Dev) (t : Tx) (h_d : Dev.Canon d) :
    Dev.Canon (Dev.txAdd d t) := by
  unfold Dev.txAdd
  simp [*]

@[simp] theorem Dev.holdTx_canon (d : Dev) (t : Tx) (stage : TxStage) (h_d : Dev.Canon d) :
    Dev.Canon (Dev.holdTx d t stage) := by
  unfold Dev.holdTx
  simp [*]

@[simp] theorem Dev.holdOcc_canon (d : Dev) (t : Tx) (stage : TxStage) (w : Nat) (h_d : Dev.Canon d) :
    Dev.Canon (Dev.holdOcc d t stage w) := by
  unfold Dev.holdOcc
  simp [*]

@[simp] theorem Dev.setChainState_canon (d : Dev) (g c v : Nat) (h_d : Dev.Canon d) :
    Dev.Canon (Dev.setChainState d g c v) := by
  unfold Dev.setChainState
  simp [*]

@[simp] theorem Dev.setTxLock_canon (d : Dev) (g c : Nat) (b : Bool) (h_d : Dev.Canon d) :
    Dev.Canon (Dev.setTxLock d g c b) := by
  unfold Dev.setTxLock
  simp [*]

@[simp] theorem Dev.setRxLock_canon (d : Dev) (g c : Nat) (b : Bool) (h_d : Dev.Canon d) :
    Dev.Canon (Dev.setRxLock d g c b) := by
  unfold Dev.setRxLock
  simp [*]

@[simp] theorem Dev.tune_canon (d : Dev) (k f : Nat) (h_d : Dev.Canon d) :
    Dev.Canon (Dev.tune d k f) := by
  unfold Dev.tune
  simp [*]

@[simp] theorem Dev.markBlanked_canon (d : Dev) (h_d : Dev.Canon d) :
    Dev.Canon (Dev.markBlanked d) := by
  unfold Dev.markBlanked
  simp [*]

@[simp] theorem Dev.markLost_canon (d : Dev) (p : Nat) (h_d : Dev.Canon d) :
    Dev.Canon (Dev.markLost d p) := by
  unfold Dev.markLost
  simp [*]

@[simp] theorem Dev.blankUpdate_canon (d : Dev) (h_d : Dev.Canon d) :
    Dev.Canon (Dev.blankUpdate d) := by
  unfold Dev.blankUpdate
  try dsimp -proj only
  with_reducible repeat' first
    | assumption | intro _ | refine Dev.foldl_canon _ _ _ ?_ ?_ | refine Dev.foldl_canon_fst _ _ _ ?_ ?_
    | apply Dev.raise_canon | apply Dev.markBlanked_canon | (simp -proj only [canon_fst_mk, canon_snd_mk])
    | (simp -proj only [Dev.canon_mk, Tables.wf_mk, Radio.wf_mk, Vault.wf_mk]; refine ⟨?_, ?_, ?_, ?_, ?_⟩)
    | refine Dev.canon_regs ?_ | refine Dev.canon_cfg ?_ | refine Dev.canon_mem ?_ | refine Dev.canon_vault ?_
    | refine Dev.canon_rings ?_ | exact Dev.reset_rings | split

@[simp] theorem Dev.countLoad_canon (d : Dev) (t : Tx) (h_d : Dev.Canon d) :
    Dev.Canon (Dev.countLoad d t) := by
  unfold Dev.countLoad
  try dsimp -proj only
  with_reducible repeat' first
    | assumption | intro _ | refine Dev.foldl_canon _ _ _ ?_ ?_ | refine Dev.foldl_canon_fst _ _ _ ?_ ?_
    | apply Dev.txUpd_canon | apply Dev.peak_canon | (simp -proj only [canon_fst_mk, canon_snd_mk])
    | (simp -proj only [Dev.canon_mk, Tables.wf_mk, Radio.wf_mk, Vault.wf_mk]; refine ⟨?_, ?_, ?_, ?_, ?_⟩)
    | refine Dev.canon_regs ?_ | refine Dev.canon_cfg ?_ | refine Dev.canon_mem ?_ | refine Dev.canon_vault ?_
    | refine Dev.canon_rings ?_ | exact Dev.reset_rings | split

@[simp] theorem Dev.recheckBudget_canon (d : Dev) (h_d : Dev.Canon d) :
    Dev.Canon (Dev.recheckBudget d) := by
  unfold Dev.recheckBudget
  try dsimp -proj only
  with_reducible repeat' first
    | assumption | intro _ | refine Dev.foldl_canon _ _ _ ?_ ?_ | refine Dev.foldl_canon_fst _ _ _ ?_ ?_
    | apply Dev.load_canon | apply Dev.txUpd_canon | apply Dev.step5_canon | apply Dev.countLoad_canon | split

@[simp] theorem Dev.occCount_canon (d : Dev) (t : Tx) (start air : Nat) (h_d : Dev.Canon d) :
    Dev.Canon (Dev.occCount d t start air) := by
  unfold Dev.occCount
  try dsimp -proj only
  with_reducible repeat' first
    | assumption | intro _ | refine Dev.foldl_canon _ _ _ ?_ ?_ | refine Dev.foldl_canon_fst _ _ _ ?_ ?_
    | (simp -proj only [canon_fst_mk, canon_snd_mk])
    | (simp -proj only [Dev.canon_mk, Tables.wf_mk, Radio.wf_mk, Vault.wf_mk]; refine ⟨?_, ?_, ?_, ?_, ?_⟩)
    | refine Dev.canon_regs ?_ | refine Dev.canon_cfg ?_ | refine Dev.canon_mem ?_ | refine Dev.canon_vault ?_
    | refine Dev.canon_rings ?_ | exact Dev.reset_rings | split

@[simp] theorem Dev.vaultRefuse_canon (d : Dev) (slot : Option Nat) (cause : Nat) (h_d : Dev.Canon d) :
    Dev.Canon (Dev.vaultRefuse d slot cause) := by
  unfold Dev.vaultRefuse
  try dsimp -proj only
  with_reducible repeat' first
    | assumption | apply Dev.bump_canon | apply Dev.put_canon | split

@[simp] theorem Dev.slotTune_canon (d : Dev) (t : Tx) (h_d : Dev.Canon d) :
    Dev.Canon (Dev.slotTune d t) := by
  unfold Dev.slotTune
  try dsimp -proj only
  with_reducible repeat' first
    | assumption | apply Dev.tune_canon | apply Dev.setTxLock_canon | apply Dev.bump_canon | apply Dev.txUpd_canon
    | split

@[simp] theorem Dev.slotPlan_canon (d : Dev) (t : Tx) (h_d : Dev.Canon d) :
    Dev.Canon (Dev.slotPlan d t) := by
  unfold Dev.slotPlan
  simp [*]

@[simp] theorem Dev.dueMoved_canon (d : Dev) (h_d : Dev.Canon d) :
    Dev.Canon (Dev.dueMoved d) := by
  unfold Dev.dueMoved
  simp [*]

@[simp] theorem Dev.ackMissed_canon (d : Dev) (g : Nat) (h_d : Dev.Canon d) :
    Dev.Canon (Dev.ackMissed d g) := by
  unfold Dev.ackMissed
  try dsimp -proj only
  with_reducible repeat' first
    | assumption | apply Dev.bump_canon | apply Dev.evt_canon | apply Dev.raise_canon | split

@[simp] theorem Dev.assocSent_canon (d : Dev) (t : Tx) (h_d : Dev.Canon d) :
    Dev.Canon (Dev.assocSent d t) := by
  unfold Dev.assocSent
  try dsimp -proj only
  with_reducible repeat' first
    | assumption | apply Dev.bump_canon | split

@[simp] theorem Dev.pawnEnded_canon (d : Dev) (t : Tx) (sent : Bool) (h_d : Dev.Canon d) :
    Dev.Canon (Dev.pawnEnded d t sent) := by
  unfold Dev.pawnEnded
  simp [*]

@[simp] theorem Dev.txCounted_canon (d : Dev) (t : Tx) (code : Nat) (emitted : Bool) (h_d : Dev.Canon d) :
    Dev.Canon (Dev.txCounted d t code emitted) := by
  unfold Dev.txCounted
  try dsimp -proj only
  with_reducible repeat' first
    | assumption | apply Dev.bump_canon | apply Dev.evt_canon | apply Dev.raise_canon | apply Dev.ackMissed_canon
    | apply Dev.assocSent_canon | apply Dev.pawnEnded_canon | split

@[simp] theorem Dev.txComplete_canon (d : Dev) (t : Tx) (code cause : Nat) (emitted : Bool) (air : Nat) (h_d : Dev.Canon d) :
    Dev.Canon (Dev.txComplete d t code cause emitted air) := by
  unfold Dev.txComplete
  try dsimp -proj only
  with_reducible repeat' first
    | assumption | intro _ | refine Dev.foldl_canon _ _ _ ?_ ?_ | refine Dev.foldl_canon_fst _ _ _ ?_ ?_
    | apply Dev.txDrop_canon | apply Dev.freeCells_canon | apply Dev.occCount_canon | apply Dev.finish_canon
    | apply Dev.rampStart_canon | apply Dev.raise_canon | apply Dev.release_canon | apply Dev.removeEntry_canon
    | apply Dev.txCounted_canon | (simp -proj only [canon_fst_mk, canon_snd_mk])
    | (simp -proj only [Dev.canon_mk, Tables.wf_mk, Radio.wf_mk, Vault.wf_mk]; refine ⟨?_, ?_, ?_, ?_, ?_⟩)
    | refine Dev.canon_regs ?_ | refine Dev.canon_cfg ?_ | refine Dev.canon_mem ?_ | refine Dev.canon_vault ?_
    | refine Dev.canon_rings ?_ | exact Dev.reset_rings | split

@[simp] theorem Dev.restoreSlot_canon (d : Dev) (p : Nat) (h_d : Dev.Canon d) :
    Dev.Canon (Dev.restoreSlot d p) := by
  unfold Dev.restoreSlot
  try dsimp -proj only
  with_reducible repeat' first
    | assumption | apply Dev.txComplete_canon | apply Dev.slotPlan_canon | split

@[simp] theorem Dev.txFinish_canon (d : Dev) (t : Tx) (code cause : Nat) (emitted : Bool) (air : Nat) (h_d : Dev.Canon d) :
    Dev.Canon (Dev.txFinish d t code cause emitted air) := by
  unfold Dev.txFinish
  try dsimp -proj only
  with_reducible repeat' first
    | assumption | apply Dev.txComplete_canon | apply Dev.restoreSlot_canon | apply Dev.recheckBudget_canon | split

@[simp] theorem Dev.txLate_canon (d : Dev) (t : Tx) (h_d : Dev.Canon d) :
    Dev.Canon (Dev.txLate d t) := by
  unfold Dev.txLate
  try dsimp -proj only
  with_reducible repeat' first
    | assumption | apply Dev.evt_canon | apply Dev.raise_canon | apply Dev.txFinish_canon | split

@[simp] theorem Dev.txLatestPassed_canon (d : Dev) (t : Tx) (h_d : Dev.Canon d) :
    Dev.Canon (Dev.txLatestPassed d t) := by
  unfold Dev.txLatestPassed
  try dsimp -proj only
  with_reducible repeat' first
    | assumption | apply Dev.txFinish_canon | apply Dev.txLate_canon | split

@[simp] theorem Dev.secureTx_canon (d : Dev) (t : Tx) (h_d : Dev.Canon d) :
    Dev.Canon (Dev.secureTx d t).1 := by
  unfold Dev.secureTx
  try dsimp -proj only
  with_reducible repeat' first
    | assumption | intro _ | refine Dev.foldl_canon _ _ _ ?_ ?_ | refine Dev.foldl_canon_fst _ _ _ ?_ ?_
    | apply Dev.takeCounter_canon | apply Dev.txUpd_canon | apply Dev.engine_canon
    | (simp -proj only [canon_fst_mk, canon_snd_mk])
    | (simp -proj only [Dev.canon_mk, Tables.wf_mk, Radio.wf_mk, Vault.wf_mk]; refine ⟨?_, ?_, ?_, ?_, ?_⟩)
    | refine Dev.canon_regs ?_ | refine Dev.canon_cfg ?_ | refine Dev.canon_mem ?_ | refine Dev.canon_vault ?_
    | refine Dev.canon_rings ?_ | exact Dev.reset_rings | refine Vault.cut_wf ?_ | refine Vault.loaded_wf ?_
    | refine Dev.canon_of_fst (by assumption) ?_ | refine Dev.canon_of_snd (by assumption) ?_ | split

@[simp] theorem Dev.secureAhead_canon (d : Dev) (t : Tx) (h_d : Dev.Canon d) :
    Dev.Canon (Dev.secureAhead d t) := by
  unfold Dev.secureAhead
  try dsimp -proj only
  with_reducible repeat' first
    | assumption | intro _ | refine Dev.foldl_canon _ _ _ ?_ ?_ | refine Dev.foldl_canon_fst _ _ _ ?_ ?_
    | apply Dev.step5_canon | apply Dev.secureTx_canon | apply Dev.txUpd_canon | split

@[simp] theorem Dev.budgetStep_canon (d : Dev) (t : Tx) (w : Nat) (clamp fixed : Bool) (h_d : Dev.Canon d) :
    Dev.Canon (Dev.budgetStep d t w clamp fixed) := by
  unfold Dev.budgetStep
  try dsimp -proj only
  with_reducible repeat' first
    | assumption | apply Dev.bump_canon | apply Dev.txFinish_canon | apply Dev.countLoad_canon
    | apply Dev.holdTx_canon | split

@[simp] theorem Dev.dwellStep_canon (d : Dev) (t : Tx) (r : SlotRec) (n s ch i : Nat) (clamp fixed : Bool) (h_d : Dev.Canon d) :
    Dev.Canon (Dev.dwellStep d t r n s ch i clamp fixed) := by
  unfold Dev.dwellStep
  try dsimp -proj only
  with_reducible repeat' first
    | assumption | apply Dev.vaultRefuse_canon | apply Dev.txFinish_canon | apply Dev.txUpd_canon
    | apply Dev.raise_canon | apply Dev.holdOcc_canon | apply Dev.load_canon | apply Dev.budgetStep_canon | split

@[simp] theorem Dev.powerChoice_canon (d : Dev) (t : Tx) (r : SlotRec) (n s ch : Nat) (fixed : Bool) (h_d : Dev.Canon d) :
    Dev.Canon (Dev.powerChoice d t r n s ch fixed) := by
  unfold Dev.powerChoice
  try dsimp -proj only
  with_reducible repeat' first
    | assumption | apply Dev.vaultRefuse_canon | apply Dev.txFinish_canon | apply Dev.dwellStep_canon | split

@[simp] theorem Dev.chanStep_canon (d : Dev) (t : Tx) (r : SlotRec) (n s ch : Nat) (fixed : Bool) (h_d : Dev.Canon d) :
    Dev.Canon (Dev.chanStep d t r n s ch fixed) := by
  unfold Dev.chanStep
  simp [*]

@[simp] theorem Dev.slotStep_canon (d : Dev) (t : Tx) (r : SlotRec) (n s : Nat) (fixed : Bool) (h_d : Dev.Canon d) :
    Dev.Canon (Dev.slotStep d t r n s fixed) := by
  unfold Dev.slotStep
  try dsimp -proj only
  with_reducible repeat' first
    | assumption | apply Dev.vaultRefuse_canon | apply Dev.txFinish_canon | apply Dev.chanStep_canon | split

@[simp] theorem Dev.vaultFind_canon (d : Dev) (t : Tx) (n : Nat) (fixed : Bool) (h_d : Dev.Canon d) :
    Dev.Canon (Dev.vaultFind d t n fixed) := by
  unfold Dev.vaultFind
  try dsimp -proj only
  with_reducible repeat' first
    | assumption | apply Dev.vaultRefuse_canon | apply Dev.txFinish_canon | apply Dev.slotStep_canon | split

@[simp] theorem Dev.vaultStep_canon (d : Dev) (t : Tx) (h_d : Dev.Canon d) :
    Dev.Canon (Dev.vaultStep d t) := by
  unfold Dev.vaultStep
  try dsimp -proj only
  with_reducible repeat' first
    | assumption | apply Dev.vaultRefuse_canon | apply Dev.txFinish_canon | apply Dev.vaultFind_canon | split

@[simp] theorem Dev.step5_canon (d : Dev) (t : Tx) (h_d : Dev.Canon d) :
    Dev.Canon (Dev.step5 d t) := by
  unfold Dev.step5
  try dsimp -proj only
  with_reducible repeat' first
    | assumption | apply Dev.txFinish_canon | apply Dev.secureAhead_canon | apply Dev.secureTx_canon
    | apply Dev.vaultStep_canon | split

@[simp] theorem Dev.wakeFcnt_canon (d : Dev) (s : Nat) (h_d : Dev.Canon d) :
    Dev.Canon (Dev.wakeFcnt d s) := by
  unfold Dev.wakeFcnt
  try dsimp -proj only
  with_reducible repeat' first
    | assumption | intro _ | refine Dev.foldl_canon _ _ _ ?_ ?_ | refine Dev.foldl_canon_fst _ _ _ ?_ ?_
    | apply Dev.step5_canon | split

@[simp] theorem Dev.slotEnter_canon (d : Dev) (t : Tx) (h_d : Dev.Canon d) :
    Dev.Canon (Dev.slotEnter d t) := by
  unfold Dev.slotEnter
  try dsimp -proj only
  with_reducible repeat' first
    | assumption | apply Dev.txFinish_canon | apply Dev.slotPlan_canon | split

@[simp] theorem Dev.modulatorStart_canon (d : Dev) (t : Tx) (h_d : Dev.Canon d) :
    Dev.Canon (Dev.modulatorStart d t) := by
  unfold Dev.modulatorStart
  simp [*]

@[simp] theorem Dev.rampStart_canon (d : Dev) (t : Tx) (lead : Nat) (h_d : Dev.Canon d) :
    Dev.Canon (Dev.rampStart d t lead) := by
  unfold Dev.rampStart
  try dsimp -proj only
  with_reducible repeat' first
    | assumption | apply Dev.modulatorStart_canon | apply Dev.txUpd_canon | apply Dev.setChainState_canon
    | apply Dev.bump_canon | apply Dev.evt_canon | apply Dev.markBlanked_canon | apply Dev.emit_canon | split

@[simp] theorem Dev.lbtRoundFail_canon (d : Dev) (t : Tx) (h_d : Dev.Canon d) :
    Dev.Canon (Dev.lbtRoundFail d t) := by
  unfold Dev.lbtRoundFail
  try dsimp -proj only
  with_reducible repeat' first
    | assumption | apply Dev.bump_canon | apply Dev.raise_canon | apply Dev.txFinish_canon | apply Dev.txUpd_canon
    | apply Dev.restoreSlot_canon | apply Dev.recheckBudget_canon | split

@[simp] theorem Dev.lbtBusy_canon (d : Dev) (t : Tx) (h_d : Dev.Canon d) :
    Dev.Canon (Dev.lbtBusy d t) := by
  unfold Dev.lbtBusy
  try dsimp -proj only
  with_reducible repeat' first
    | assumption | apply Dev.bump_canon | apply Dev.evt_canon | apply Dev.lbtRoundFail_canon | apply Dev.txUpd_canon
    | apply Dev.restoreSlot_canon | split

@[simp] theorem Dev.release_canon (d : Dev) (t : Tx) (a : AirSense) (lead : Nat) (h_d : Dev.Canon d) :
    Dev.Canon (Dev.release d t a lead) := by
  unfold Dev.release
  try dsimp -proj only
  with_reducible repeat' first
    | assumption | apply Dev.txLate_canon | apply Dev.vaultRefuse_canon | apply Dev.txFinish_canon
    | apply Dev.txUpd_canon | apply Dev.lbtBusy_canon | apply Dev.bump_canon | apply Dev.raise_canon
    | apply Dev.rampStart_canon | split

@[simp] theorem Dev.chainBack_canon (d : Dev) (t : Tx) (h_d : Dev.Canon d) :
    Dev.Canon (Dev.chainBack d t) := by
  unfold Dev.chainBack
  try dsimp -proj only
  with_reducible repeat' first
    | assumption | intro _ | refine Dev.foldl_canon _ _ _ ?_ ?_ | refine Dev.foldl_canon_fst _ _ _ ?_ ?_
    | apply Dev.markBlanked_canon | apply Dev.setChainState_canon | (simp -proj only [canon_fst_mk, canon_snd_mk])
    | (simp -proj only [Dev.canon_mk, Tables.wf_mk, Radio.wf_mk, Vault.wf_mk]; refine ⟨?_, ?_, ?_, ?_, ?_⟩)
    | refine Dev.canon_regs ?_ | refine Dev.canon_cfg ?_ | refine Dev.canon_mem ?_ | refine Dev.canon_vault ?_
    | refine Dev.canon_rings ?_ | exact Dev.reset_rings | split

@[simp] theorem Dev.txStopAt_canon (d : Dev) (t : Tx) (cause excess segment air : Nat) (emitted : Bool) (h_d : Dev.Canon d) :
    Dev.Canon (Dev.txStopAt d t cause excess segment air emitted) := by
  unfold Dev.txStopAt
  try dsimp -proj only
  with_reducible repeat' first
    | assumption | apply Dev.put_canon | apply Dev.txComplete_canon | apply Dev.setTxs_canon | split

@[simp] theorem Dev.txStop_canon (d : Dev) (t : Tx) (cause : Nat) (h_d : Dev.Canon d) :
    Dev.Canon (Dev.txStop d t cause) := by
  unfold Dev.txStop
  try dsimp -proj only
  with_reducible repeat' first
    | assumption | apply Dev.rampStart_canon | apply Dev.txStopAt_canon | split

@[simp] theorem Dev.rampEnd_canon (d : Dev) (t : Tx) (h_d : Dev.Canon d) :
    Dev.Canon (Dev.rampEnd d t) := by
  unfold Dev.rampEnd
  try dsimp -proj only
  with_reducible repeat' first
    | assumption | apply Dev.chainBack_canon | apply Dev.txDrop_canon | apply Dev.restoreSlot_canon
    | apply Dev.recheckBudget_canon | split

@[simp] theorem Dev.txEnd_canon (d : Dev) (t : Tx) (h_d : Dev.Canon d) :
    Dev.Canon (Dev.txEnd d t) := by
  unfold Dev.txEnd
  try dsimp -proj only
  with_reducible repeat' first
    | assumption | intro _ | refine Dev.foldl_canon _ _ _ ?_ ?_ | refine Dev.foldl_canon_fst _ _ _ ?_ ?_
    | apply Dev.chainBack_canon | apply Dev.release_canon | apply Dev.occCount_canon | apply Dev.txUpd_canon
    | apply Dev.restoreSlot_canon | apply Dev.recheckBudget_canon | apply Dev.txFinish_canon
    | (simp -proj only [canon_fst_mk, canon_snd_mk])
    | (simp -proj only [Dev.canon_mk, Tables.wf_mk, Radio.wf_mk, Vault.wf_mk]; refine ⟨?_, ?_, ?_, ?_, ?_⟩)
    | refine Dev.canon_regs ?_ | refine Dev.canon_cfg ?_ | refine Dev.canon_mem ?_ | refine Dev.canon_vault ?_
    | refine Dev.canon_rings ?_ | exact Dev.reset_rings | split

@[simp] theorem Dev.returnTune_canon (d : Dev) (g c : Nat) (h_d : Dev.Canon d) :
    Dev.Canon (Dev.returnTune d g c) := by
  unfold Dev.returnTune
  try dsimp -proj only
  with_reducible repeat' first
    | assumption | apply Dev.setChainState_canon | apply Dev.tune_canon | apply Dev.setTxLock_canon
    | apply Dev.setRxLock_canon | split

@[simp] theorem Dev.spareLost_canon (d : Dev) (g : Nat) (h_d : Dev.Canon d) :
    Dev.Canon (Dev.spareLost d g) := by
  unfold Dev.spareLost
  try dsimp -proj only
  with_reducible repeat' first
    | assumption | apply Dev.setCalg_canon | apply Dev.setCalState_canon | apply Dev.put_canon
    | apply Dev.calOutcome_canon | apply Dev.returnTune_canon | split

@[simp] theorem Dev.loseSpare_canon (d : Dev) (g : Nat) (h_d : Dev.Canon d) :
    Dev.Canon (Dev.loseSpare d g) := by
  unfold Dev.loseSpare
  try dsimp -proj only
  with_reducible repeat' first
    | assumption | intro _ | refine Dev.foldl_canon _ _ _ ?_ ?_ | refine Dev.foldl_canon_fst _ _ _ ?_ ?_
    | apply Dev.spareLost_canon | apply Dev.txFinish_canon | split

@[simp] theorem Dev.displace_canon (d : Dev) (p : Nat) (h_d : Dev.Canon d) :
    Dev.Canon (Dev.displace d p) := by
  unfold Dev.displace
  try dsimp -proj only
  with_reducible repeat' first
    | assumption | apply Dev.txUpd_canon | split

@[simp] theorem Dev.fillSlot_canon (d : Dev) (t : Tx) (h_d : Dev.Canon d) :
    Dev.Canon (Dev.fillSlot d t) := by
  unfold Dev.fillSlot
  simp [*]

@[simp] theorem Dev.sampleGrant_canon (d : Dev) (t : Tx) (grant : Bool) (h_d : Dev.Canon d) :
    Dev.Canon (Dev.sampleGrant d t grant) := by
  unfold Dev.sampleGrant
  simp [*]

@[simp] theorem Dev.maskStop_canon (d : Dev) (t : Tx) (m excess segment : Nat) (h_d : Dev.Canon d) :
    Dev.Canon (Dev.maskStop d t m excess segment) := by
  unfold Dev.maskStop
  try dsimp -proj only
  with_reducible repeat' first
    | assumption | apply Dev.bump_canon | apply Dev.put_canon | apply Dev.evt_canon | apply Dev.raise_canon
    | apply Dev.txStopAt_canon | split

end Sys2Proof.Machine
end

