-- ==== Sys2Proof/Laws/Canon3.lean ====
section
/-! SUPPORT. Every operation of Machine/Qsch, MacTx, Mac, Staging keeps the canonical form: one lemma for each, for callers to cite. -/

set_option linter.unusedSimpArgs false
set_option linter.unusedVariables false

namespace Sys2Proof.Machine

/-! ### Qsch -/

@[simp] theorem Dev.setTag_canon (d : Dev) (f v : Nat) (h_d : Dev.Canon d) :
    Dev.Canon (Dev.setTag d f v) := by
  unfold Dev.setTag
  simp [*]

@[simp] theorem Dev.setC_canon (d : Dev) (f : Nat) (v : Int) (h_d : Dev.Canon d) :
    Dev.Canon (Dev.setC d f v) := by
  unfold Dev.setC
  simp [*]

@[simp] theorem Dev.setP_canon (d : Dev) (f : Nat) (v : Int) (h_d : Dev.Canon d) :
    Dev.Canon (Dev.setP d f v) := by
  unfold Dev.setP
  simp [*]

@[simp] theorem Dev.qEvent_canon (d : Dev) (kind index bit : Nat) (h_d : Dev.Canon d) :
    Dev.Canon (Dev.qEvent d kind index bit) := by
  unfold Dev.qEvent
  try dsimp -proj only
  with_reducible repeat' first
    | assumption | apply Dev.put_canon | apply Dev.raise_canon | split

@[simp] theorem Dev.setDepth_canon (d : Dev) (f n cells : Nat) (h_d : Dev.Canon d) :
    Dev.Canon (Dev.setDepth d f n cells) := by
  unfold Dev.setDepth
  try dsimp -proj only
  with_reducible repeat' first
    | assumption | apply Dev.setMem_canon | apply Dev.setMemBits_canon | apply Dev.qEvent_canon | split

@[simp] theorem Dev.setVtime_canon (d : Dev) (q v : Nat) (h_d : Dev.Canon d) :
    Dev.Canon (Dev.setVtime d q v) := by
  unfold Dev.setVtime
  simp [*]

@[simp] theorem Dev.setCredit_canon (d : Dev) (q : Nat) (v : Int) (h_d : Dev.Canon d) :
    Dev.Canon (Dev.setCredit d q v) := by
  unfold Dev.setCredit
  simp [*]

@[simp] theorem Dev.setPcState_canon (d : Dev) (x : PcState) (h_d : Dev.Canon d) :
    Dev.Canon (Dev.setPcState d x) := by
  unfold Dev.setPcState
  simp [*]

@[simp] theorem Dev.refuseTx_canon (d : Dev) (t : Tx) (cause : Nat) (h_d : Dev.Canon d) :
    Dev.Canon (Dev.refuseTx d t cause) := by
  unfold Dev.refuseTx
  try dsimp -proj only
  with_reducible repeat' first
    | assumption | apply Dev.txFinish_canon | apply Dev.raise_canon | split

@[simp] theorem Dev.refuseAll_canon (d : Dev) (ts : List Tx) (f cause : Nat) (h_d : Dev.Canon d) :
    Dev.Canon (Dev.refuseAll d ts f cause) := by
  unfold Dev.refuseAll
  try dsimp -proj only
  with_reducible repeat' first
    | assumption | intro _ | refine Dev.foldl_canon _ _ _ ?_ ?_ | refine Dev.foldl_canon_fst _ _ _ ?_ ?_
    | apply Dev.setMemBits_canon | apply Dev.bump_canon | apply Dev.qEvent_canon | apply Dev.evt_canon
    | apply Dev.refuseTx_canon | split

@[simp] theorem Dev.appendAll_canon (d : Dev) (ts : List Tx) (f : Nat) (chargeC chargeP : Bool) (h_d : Dev.Canon d) :
    Dev.Canon (Dev.appendAll d ts f chargeC chargeP) := by
  unfold Dev.appendAll
  try dsimp -proj only
  with_reducible repeat' first
    | assumption | intro _ | refine Dev.foldl_canon _ _ _ ?_ ?_ | refine Dev.foldl_canon_fst _ _ _ ?_ ?_
    | apply Dev.setC_canon | apply Dev.setP_canon | apply Dev.setPcState_canon | apply Dev.setTag_canon
    | apply Dev.setTxs_canon | apply Dev.setDepth_canon | apply Dev.takeCells_canon | apply Dev.evt_canon | split

@[simp] theorem Dev.admitAll_canon (d : Dev) (ts : List Tx) (h_d : Dev.Canon d) :
    Dev.Canon (Dev.admitAll d ts) := by
  unfold Dev.admitAll
  try dsimp -proj only
  with_reducible repeat' first
    | assumption | apply Dev.refuseAll_canon | apply Dev.bump_canon | apply Dev.evt_canon | apply Dev.appendAll_canon
    | split

@[simp] theorem Dev.leaveFlow_canon (d : Dev) (t : Tx) (h_d : Dev.Canon d) :
    Dev.Canon (Dev.leaveFlow d t) := by
  unfold Dev.leaveFlow
  simp [*]

@[simp] theorem Dev.endQueued_canon (d : Dev) (t : Tx) (cause : Nat) (h_d : Dev.Canon d) :
    Dev.Canon (Dev.endQueued d t cause) := by
  unfold Dev.endQueued
  simp [*]

@[simp] theorem Dev.flushFlow_canon (d : Dev) (f cause : Nat) (h_d : Dev.Canon d) :
    Dev.Canon (Dev.flushFlow d f cause) := by
  unfold Dev.flushFlow
  try dsimp -proj only
  with_reducible repeat' first
    | assumption | intro _ | refine Dev.foldl_canon _ _ _ ?_ ?_ | refine Dev.foldl_canon_fst _ _ _ ?_ ?_
    | apply Dev.endQueued_canon | split

@[simp] theorem Dev.dropLate_canon (d : Dev) (f : Nat) (e0 : Nat) (h_d : Dev.Canon d) :
    Dev.Canon (Dev.dropLate d f e0) := by
  induction e0 generalizing d f h_d with
  | zero =>
    unfold Dev.dropLate
    try dsimp -proj only
    with_reducible repeat' first
      | assumption | apply Dev.leaveFlow_canon | apply Dev.evt_canon | apply Dev.txFinish_canon | split
  | succ n ih =>
    unfold Dev.dropLate
    try dsimp -proj only
    with_reducible repeat' first
      | assumption | apply ih | apply Dev.leaveFlow_canon | apply Dev.evt_canon | apply Dev.txFinish_canon | split

@[simp] theorem Dev.takeHead_canon (d : Dev) (q f : Nat) (committed : Bool) (t : Tx) (h_d : Dev.Canon d) :
    Dev.Canon (Dev.takeHead d q f committed t) := by
  unfold Dev.takeHead
  try dsimp -proj only
  with_reducible repeat' first
    | assumption | intro _ | refine Dev.foldl_canon _ _ _ ?_ ?_ | refine Dev.foldl_canon_fst _ _ _ ?_ ?_
    | apply Dev.setVtime_canon | apply Dev.setP_canon | apply Dev.setC_canon | apply Dev.setCredit_canon
    | apply Dev.leaveFlow_canon | apply Dev.txLast_canon | apply Dev.setTag_canon | apply Dev.setMemBits_canon
    | apply Dev.setPcState_canon | apply Dev.bump_canon | apply Dev.evt_canon
    | (simp -proj only [canon_fst_mk, canon_snd_mk])
    | (simp -proj only [Dev.canon_mk, Tables.wf_mk, Radio.wf_mk, Vault.wf_mk]; refine ⟨?_, ?_, ?_, ?_, ?_⟩)
    | refine Dev.canon_regs ?_ | refine Dev.canon_cfg ?_ | refine Dev.canon_mem ?_ | refine Dev.canon_vault ?_
    | refine Dev.canon_rings ?_ | exact Dev.reset_rings | split

@[simp] theorem Dev.selectFrame_canon (d : Dev) (p : Nat) (h_d : Dev.Canon d) :
    Dev.Canon (Dev.selectFrame d p) := by
  unfold Dev.selectFrame
  try dsimp -proj only
  with_reducible repeat' first
    | assumption | intro _ | refine Dev.foldl_canon _ _ _ ?_ ?_ | refine Dev.foldl_canon_fst _ _ _ ?_ ?_
    | apply Dev.dropLate_canon | apply Dev.takeHead_canon | split

@[simp] theorem Dev.setEgrLevel_canon (d : Dev) (e : Nat) (v : Int) (h_d : Dev.Canon d) :
    Dev.Canon (Dev.setEgrLevel d e v) := by
  unfold Dev.setEgrLevel
  simp [*]

@[simp] theorem Dev.setEgrTag_canon (d : Dev) (e v : Nat) (h_d : Dev.Canon d) :
    Dev.Canon (Dev.setEgrTag d e v) := by
  unfold Dev.setEgrTag
  simp [*]

@[simp] theorem Dev.setEgrV_canon (d : Dev) (n v : Nat) (h_d : Dev.Canon d) :
    Dev.Canon (Dev.setEgrV d n v) := by
  unfold Dev.setEgrV
  simp [*]

@[simp] theorem Dev.egrAdmit_canon (d : Dev) (e len : Nat) (body : EgrBody) (h_d : Dev.Canon d) :
    Dev.Canon (Dev.egrAdmit d e len body) := by
  unfold Dev.egrAdmit
  try dsimp -proj only
  with_reducible repeat' first
    | assumption | intro _ | refine Dev.foldl_canon _ _ _ ?_ ?_ | refine Dev.foldl_canon_fst _ _ _ ?_ ?_
    | apply Dev.bump_canon | apply Dev.raise_canon | apply Dev.qEvent_canon | apply Dev.evt_canon
    | apply Dev.setEgrTag_canon | apply Dev.takeCells_canon | apply Dev.peak_canon
    | (simp -proj only [canon_fst_mk, canon_snd_mk])
    | (simp -proj only [Dev.canon_mk, Tables.wf_mk, Radio.wf_mk, Vault.wf_mk]; refine ⟨?_, ?_, ?_, ?_, ?_⟩)
    | refine Dev.canon_regs ?_ | refine Dev.canon_cfg ?_ | refine Dev.canon_mem ?_ | refine Dev.canon_vault ?_
    | refine Dev.canon_rings ?_ | exact Dev.reset_rings | split

@[simp] theorem Dev.egrTake_canon (d : Dev) (e : Nat) (x : EgrFrame) (h_d : Dev.Canon d) :
    Dev.Canon (Dev.egrTake d e x) := by
  unfold Dev.egrTake
  try dsimp -proj only
  with_reducible repeat' first
    | assumption | intro _ | refine Dev.foldl_canon _ _ _ ?_ ?_ | refine Dev.foldl_canon_fst _ _ _ ?_ ?_
    | apply Dev.setEgrLevel_canon | apply Dev.setEgrV_canon | apply Dev.setEgrTag_canon | apply Dev.freeCells_canon
    | apply Dev.bump_canon | (simp -proj only [canon_fst_mk, canon_snd_mk])
    | (simp -proj only [Dev.canon_mk, Tables.wf_mk, Radio.wf_mk, Vault.wf_mk]; refine ⟨?_, ?_, ?_, ?_, ?_⟩)
    | refine Dev.canon_regs ?_ | refine Dev.canon_cfg ?_ | refine Dev.canon_mem ?_ | refine Dev.canon_vault ?_
    | refine Dev.canon_rings ?_ | exact Dev.reset_rings | split

@[simp] theorem Dev.applyEntry_canon (d : Dev) (pg i : Nat) (h_d : Dev.Canon d) :
    Dev.Canon (Dev.applyEntry d pg i) := by
  unfold Dev.applyEntry
  try dsimp -proj only
  with_reducible repeat' first
    | assumption | intro _ | refine Dev.foldl_canon _ _ _ ?_ ?_ | refine Dev.foldl_canon_fst _ _ _ ?_ ?_
    | apply Dev.wr_canon | apply Dev.save_canon | apply Dev.endQueued_canon | apply Dev.setTag_canon
    | apply Dev.setC_canon | apply Dev.setP_canon | apply Dev.setCredit_canon | apply Dev.setEgrLevel_canon | split

@[simp] theorem Dev.applyPending_canon (d : Dev) (h_d : Dev.Canon d) :
    Dev.Canon (Dev.applyPending d) := by
  unfold Dev.applyPending
  try dsimp -proj only
  with_reducible repeat' first
    | assumption | intro _ | refine Dev.foldl_canon _ _ _ ?_ ?_ | refine Dev.foldl_canon_fst _ _ _ ?_ ?_
    | apply Dev.applyEntry_canon | (simp -proj only [canon_fst_mk, canon_snd_mk])
    | (simp -proj only [Dev.canon_mk, Tables.wf_mk, Radio.wf_mk, Vault.wf_mk]; refine ⟨?_, ?_, ?_, ?_, ?_⟩)
    | refine Dev.canon_regs ?_ | refine Dev.canon_cfg ?_ | refine Dev.canon_mem ?_ | refine Dev.canon_vault ?_
    | refine Dev.canon_rings ?_ | exact Dev.reset_rings | split

@[simp] theorem Dev.flowPass_canon (d : Dev) (f : Nat) (h_d : Dev.Canon d) :
    Dev.Canon (Dev.flowPass d f) := by
  unfold Dev.flowPass
  try dsimp -proj only
  with_reducible repeat' first
    | assumption | apply Dev.setC_canon | apply Dev.setP_canon | apply Dev.setTag_canon | split

@[simp] theorem Dev.pcPass_canon (d : Dev) (q : Nat) (h_d : Dev.Canon d) :
    Dev.Canon (Dev.pcPass d q) := by
  unfold Dev.pcPass
  simp [*]

@[simp] theorem Dev.egrPass_canon (d : Dev) (e : Nat) (h_d : Dev.Canon d) :
    Dev.Canon (Dev.egrPass d e) := by
  unfold Dev.egrPass
  simp [*]

@[simp] theorem Dev.refillAll_canon (d : Dev) (h_d : Dev.Canon d) :
    Dev.Canon (Dev.refillAll d) := by
  unfold Dev.refillAll
  try dsimp -proj only
  with_reducible repeat' first
    | assumption | intro _ | refine Dev.foldl_canon _ _ _ ?_ ?_ | refine Dev.foldl_canon_fst _ _ _ ?_ ?_
    | apply Dev.flowPass_canon | apply Dev.pcPass_canon | apply Dev.egrPass_canon | split

@[simp] theorem Dev.samplePc_canon (d : Dev) (t q : Nat) (h_d : Dev.Canon d) :
    Dev.Canon (Dev.samplePc d t q) := by
  unfold Dev.samplePc
  try dsimp -proj only
  with_reducible repeat' first
    | assumption | apply Dev.qEvent_canon | apply Dev.put_canon | apply Dev.peak_canon | apply Dev.setPcState_canon
    | split

@[simp] theorem Dev.sampleAll_canon (d : Dev) (t : Nat) (h_d : Dev.Canon d) :
    Dev.Canon (Dev.sampleAll d t) := by
  unfold Dev.sampleAll
  try dsimp -proj only
  with_reducible repeat' first
    | assumption | intro _ | refine Dev.foldl_canon _ _ _ ?_ ?_ | refine Dev.foldl_canon_fst _ _ _ ?_ ?_
    | apply Dev.samplePc_canon | apply Dev.put_canon | (simp -proj only [canon_fst_mk, canon_snd_mk])
    | (simp -proj only [Dev.canon_mk, Tables.wf_mk, Radio.wf_mk, Vault.wf_mk]; refine ⟨?_, ?_, ?_, ?_, ?_⟩)
    | refine Dev.canon_regs ?_ | refine Dev.canon_cfg ?_ | refine Dev.canon_mem ?_ | refine Dev.canon_vault ?_
    | refine Dev.canon_rings ?_ | exact Dev.reset_rings | split

@[simp] theorem Dev.freshFlow_canon (d : Dev) (f tag : Nat) (h_d : Dev.Canon d) :
    Dev.Canon (Dev.freshFlow d f tag) := by
  unfold Dev.freshFlow
  try dsimp -proj only
  with_reducible repeat' first
    | assumption | apply Dev.setTag_canon | apply Dev.setC_canon | apply Dev.setP_canon | apply Dev.setMems_canon
    | split

@[simp] theorem Dev.flowRecordError_canon (d : Dev) (f : Nat) (h_d : Dev.Canon d) :
    Dev.Canon (Dev.flowRecordError d f) := by
  unfold Dev.flowRecordError
  try dsimp -proj only
  with_reducible repeat' first
    | assumption | intro _ | refine Dev.foldl_canon _ _ _ ?_ ?_ | refine Dev.foldl_canon_fst _ _ _ ?_ ?_
    | apply Dev.refuseTx_canon | apply Dev.freshFlow_canon | (simp -proj only [canon_fst_mk, canon_snd_mk])
    | (simp -proj only [Dev.canon_mk, Tables.wf_mk, Radio.wf_mk, Vault.wf_mk]; refine ⟨?_, ?_, ?_, ?_, ?_⟩)
    | refine Dev.canon_regs ?_ | refine Dev.canon_cfg ?_ | refine Dev.canon_mem ?_ | refine Dev.canon_vault ?_
    | refine Dev.canon_rings ?_ | exact Dev.reset_rings | split

@[simp] theorem Dev.burstLevels_canon (d : Dev) (h_d : Dev.Canon d) :
    Dev.Canon (Dev.burstLevels d) := by
  unfold Dev.burstLevels
  try dsimp -proj only
  with_reducible repeat' first
    | assumption | intro _ | refine Dev.foldl_canon _ _ _ ?_ ?_ | refine Dev.foldl_canon_fst _ _ _ ?_ ?_
    | apply Dev.freshFlow_canon | apply Dev.setEgrLevel_canon | split

@[simp] theorem Dev.qschReset_canon (d : Dev) (h_d : Dev.Canon d) :
    Dev.Canon (Dev.qschReset d) := by
  unfold Dev.qschReset
  try dsimp -proj only
  with_reducible repeat' first
    | assumption | intro _ | refine Dev.foldl_canon _ _ _ ?_ ?_ | refine Dev.foldl_canon_fst _ _ _ ?_ ?_
    | apply Dev.endQueued_canon | apply Dev.freeCells_canon | apply Dev.setVtime_canon | apply Dev.setCredit_canon
    | apply Dev.wr_canon | apply Dev.setEgrTag_canon | apply Dev.setEgrV_canon | apply Dev.put_canon
    | apply Dev.reloadPage_canon | apply Dev.burstLevels_canon | (simp -proj only [canon_fst_mk, canon_snd_mk])
    | (simp -proj only [Dev.canon_mk, Tables.wf_mk, Radio.wf_mk, Vault.wf_mk]; refine ⟨?_, ?_, ?_, ?_, ?_⟩)
    | refine Dev.canon_regs ?_ | refine Dev.canon_cfg ?_ | refine Dev.canon_mem ?_ | refine Dev.canon_vault ?_
    | refine Dev.canon_rings ?_ | exact Dev.reset_rings | split

@[simp] theorem Dev.cmdQschFlush_canon (d : Dev) (src : Src) (e : Entry) (h_d : Dev.Canon d) :
    Dev.Canon (Dev.cmdQschFlush d src e) := by
  unfold Dev.cmdQschFlush
  simp [*]

/-! ### MacTx -/

@[simp] theorem Dev.nextHop_canon (d : Dev) (h : Nat) (h_d : Dev.Canon d) :
    Dev.Canon (Dev.nextHop d h).1 := by
  unfold Dev.nextHop
  try dsimp -proj only
  with_reducible repeat' first
    | assumption | apply Dev.fwdLookup_canon | split

@[simp] theorem Dev.admission_canon (d : Dev) (ts : List Tx) (h_d : Dev.Canon d) :
    Dev.Canon (Dev.admission d ts) := by
  unfold Dev.admission
  try dsimp -proj only
  with_reducible repeat' first
    | assumption | apply Dev.admitAll_canon | apply Dev.nextHop_canon | apply Dev.refuseAll_canon | split

@[simp] theorem Dev.adriftCheck_canon (d : Dev) (h e : Nat) (h_d : Dev.Canon d) :
    Dev.Canon (Dev.adriftCheck d h e).1 := by
  unfold Dev.adriftCheck
  try dsimp -proj only
  with_reducible repeat' first
    | assumption | apply Dev.touchTiming_canon | apply Dev.setLineBits_canon | apply Dev.bump_canon
    | apply Dev.put_canon | apply Dev.raise_canon | split

@[simp] theorem Dev.stage3_canon (d : Dev) (t : Tx) (lbt : Bool) (h_d : Dev.Canon d) :
    Dev.Canon (Dev.stage3 d t lbt) := by
  unfold Dev.stage3
  simp [*]

@[simp] theorem Dev.stage2_canon (d : Dev) (t : Tx) (h_d : Dev.Canon d) :
    Dev.Canon (Dev.stage2 d t) := by
  unfold Dev.stage2
  try dsimp -proj only
  with_reducible repeat' first
    | assumption | apply Dev.txUpd_canon | apply Dev.bump_canon | apply Dev.raise_canon | apply Dev.holdTx_canon
    | apply Dev.stage3_canon | apply Dev.holdOcc_canon | split

@[simp] theorem Dev.stage1_canon (d : Dev) (t : Tx) (kmin : Nat) (h_d : Dev.Canon d) :
    Dev.Canon (Dev.stage1 d t kmin).1 := by
  unfold Dev.stage1
  try dsimp -proj only
  with_reducible repeat' first
    | assumption | apply Dev.txUpd_canon | apply Dev.nextHop_canon | apply Dev.txFinish_canon
    | apply Dev.adriftCheck_canon | split

@[simp] theorem Dev.channelAccess_canon (d : Dev) (t : Tx) (h_d : Dev.Canon d) :
    Dev.Canon (Dev.channelAccess d t) := by
  unfold Dev.channelAccess
  try dsimp -proj only
  with_reducible repeat' first
    | assumption | apply Dev.stage1_canon | apply Dev.stage2_canon | split

@[simp] theorem Dev.nodeHeard_canon (d : Dev) (h : Nat) (h_d : Dev.Canon d) :
    Dev.Canon (Dev.nodeHeard d h) := by
  unfold Dev.nodeHeard
  try dsimp -proj only
  with_reducible repeat' first
    | assumption | intro _ | refine Dev.foldl_canon _ _ _ ?_ ?_ | refine Dev.foldl_canon_fst _ _ _ ?_ ?_
    | apply Dev.channelAccess_canon | split

@[simp] theorem Dev.recheckDuty_canon (d : Dev) (h_d : Dev.Canon d) :
    Dev.Canon (Dev.recheckDuty d) := by
  unfold Dev.recheckDuty
  try dsimp -proj only
  with_reducible repeat' first
    | assumption | intro _ | refine Dev.foldl_canon _ _ _ ?_ ?_ | refine Dev.foldl_canon_fst _ _ _ ?_ ?_
    | apply Dev.channelAccess_canon | split

@[simp] theorem Dev.recheckOcc_canon (d : Dev) (h_d : Dev.Canon d) :
    Dev.Canon (Dev.recheckOcc d) := by
  unfold Dev.recheckOcc
  try dsimp -proj only
  with_reducible repeat' first
    | assumption | intro _ | refine Dev.foldl_canon _ _ _ ?_ ?_ | refine Dev.foldl_canon_fst _ _ _ ?_ ?_
    | apply Dev.channelAccess_canon | apply Dev.step5_canon | split

@[simp] theorem Dev.dutyClose_canon (d : Dev) (h_d : Dev.Canon d) :
    Dev.Canon (Dev.dutyClose d) := by
  unfold Dev.dutyClose
  simp [*]

@[simp] theorem Dev.dutyAge_canon (d : Dev) (n : Nat) (h_d : Dev.Canon d) :
    Dev.Canon (Dev.dutyAge d n) := by
  unfold Dev.dutyAge
  simp [*]

/-! ### Mac -/

@[simp] theorem Dev.setAnchor_canon (d : Dev) (e s : Nat) (h_d : Dev.Canon d) :
    Dev.Canon (Dev.setAnchor d e s) := by
  unfold Dev.setAnchor
  simp [*]

@[simp] theorem Dev.dropDrift_canon (d : Dev) (e : Nat) (h_d : Dev.Canon d) :
    Dev.Canon (Dev.dropDrift d e) := by
  unfold Dev.dropDrift
  simp [*]

@[simp] theorem Dev.restartTiming_canon (d : Dev) (g e s : Nat) (h_d : Dev.Canon d) :
    Dev.Canon (Dev.restartTiming d g e s) := by
  unfold Dev.restartTiming
  try dsimp -proj only
  with_reducible repeat' first
    | assumption | apply Dev.setAnchor_canon | apply Dev.dropDrift_canon | apply Dev.bump_canon | split

@[simp] theorem Dev.observe_canon (d : Dev) (p e phy s : Nat) (h_d : Dev.Canon d) :
    Dev.Canon (Dev.observe d p e phy s) := by
  unfold Dev.observe
  try dsimp -proj only
  with_reducible repeat' first
    | assumption | apply Dev.setAnchor_canon | apply Dev.dropDrift_canon | apply Dev.restartTiming_canon
    | apply Dev.setLineBits_canon | apply Dev.setMemBits_canon | split

@[simp] theorem Dev.nodeSeen_canon (d : Dev) (h e sector entry chan phy m : Nat) (csl : Option (Nat × Nat)) (h_d : Dev.Canon d) :
    Dev.Canon (Dev.nodeSeen d h e sector entry chan phy m csl) := by
  unfold Dev.nodeSeen
  try dsimp -proj only
  with_reducible repeat' first
    | assumption | apply Dev.touchTiming_canon | apply Dev.setLineBits_canon | apply Dev.setMemBits_canon
    | apply Dev.bump_canon | apply Dev.observe_canon | split

@[simp] theorem Dev.nextMacSeq_canon (d : Dev) (p : Nat) (h_d : Dev.Canon d) :
    Dev.Canon (Dev.nextMacSeq d p).2 := by
  unfold Dev.nextMacSeq
  simp [*]

@[simp] theorem Dev.nextBeaconSeq_canon (d : Dev) (p : Nat) (h_d : Dev.Canon d) :
    Dev.Canon (Dev.nextBeaconSeq d p).2 := by
  unfold Dev.nextBeaconSeq
  simp [*]

@[simp] theorem Dev.assocDeny_canon (d : Dev) (st : Nat) (r : Option Nat) (h_d : Dev.Canon d) :
    Dev.Canon (Dev.assocDeny d st r).1 := by
  unfold Dev.assocDeny
  try dsimp -proj only
  with_reducible repeat' first
    | assumption | apply Dev.evt_canon | split

@[simp] theorem Dev.assocGrant_canon (d : Dev) (g h : Nat) (h_d : Dev.Canon d) :
    Dev.Canon (Dev.assocGrant d g h).1 := by
  unfold Dev.assocGrant
  try dsimp -proj only
  with_reducible repeat' first
    | assumption | apply Dev.bump_canon | apply Dev.put_canon | apply Dev.raise_canon | apply Dev.evt_canon | split

@[simp] theorem Dev.assocCount_canon (d : Dev) (h_d : Dev.Canon d) :
    Dev.Canon (Dev.assocCount d) := by
  unfold Dev.assocCount
  simp [*]

@[simp] theorem Dev.assocCreate_canon (d : Dev) (p x a : Nat) (e : NewEntry) (h_d : Dev.Canon d) :
    Dev.Canon (Dev.assocCreate d p x a e).1 := by
  unfold Dev.assocCreate
  try dsimp -proj only
  with_reducible repeat' first
    | assumption | apply Dev.createEntry_canon | apply Dev.assocDeny_canon | apply Dev.setCursor_canon
    | apply Dev.assocCount_canon | apply Dev.assocGrant_canon | split

@[simp] theorem Dev.assocNew_canon (d : Dev) (p x : Nat) (heard : Nat × Nat × Nat) (key : Option Nat) (hwm : Option Nat) (seq : Nat) (h_d : Dev.Canon d) :
    Dev.Canon (Dev.assocNew d p x heard key hwm seq).1 := by
  unfold Dev.assocNew
  try dsimp -proj only
  with_reducible repeat' first
    | assumption | apply Dev.assocDeny_canon | apply Dev.bump_canon | apply Dev.dirFull_canon
    | apply Dev.assocCreate_canon | split

@[simp] theorem Dev.associate_canon (d : Dev) (p x : Nat) (heard : Nat × Nat × Nat) (key : Option Nat) (hwm : Option Nat) (seq : Nat) (h_d : Dev.Canon d) :
    Dev.Canon (Dev.associate d p x heard key hwm seq).1 := by
  unfold Dev.associate
  try dsimp -proj only
  with_reducible repeat' first
    | assumption | apply Dev.assocGrant_canon | apply Dev.assocNew_canon | split

@[simp] theorem Dev.beaconFrame_canon (d : Dev) (p : Nat) (h_d : Dev.Canon d) :
    Dev.Canon (Dev.beaconFrame d p).1 := by
  unfold Dev.beaconFrame
  simp [*]

@[simp] theorem Dev.sendBeacon_canon (d : Dev) (p port : Nat) (h_d : Dev.Canon d) :
    Dev.Canon (Dev.sendBeacon d p port) := by
  unfold Dev.sendBeacon
  simp [*]

@[simp] theorem Dev.beaconRequest_canon (d : Dev) (port : Nat) (h_d : Dev.Canon d) :
    Dev.Canon (Dev.beaconRequest d port) := by
  unfold Dev.beaconRequest
  try dsimp -proj only
  with_reducible repeat' first
    | assumption | intro _ | refine Dev.foldl_canon _ _ _ ?_ ?_ | refine Dev.foldl_canon_fst _ _ _ ?_ ?_
    | apply Dev.sendBeacon_canon | (simp -proj only [canon_fst_mk, canon_snd_mk])
    | (simp -proj only [Dev.canon_mk, Tables.wf_mk, Radio.wf_mk, Vault.wf_mk]; refine ⟨?_, ?_, ?_, ?_, ?_⟩)
    | refine Dev.canon_regs ?_ | refine Dev.canon_cfg ?_ | refine Dev.canon_mem ?_ | refine Dev.canon_vault ?_
    | refine Dev.canon_rings ?_ | exact Dev.reset_rings | split

@[simp] theorem Dev.setPeer_canon (d : Dev) (x : Peer) (h_d : Dev.Canon d) :
    Dev.Canon (Dev.setPeer d x) := by
  unfold Dev.setPeer
  simp [*]

@[simp] theorem Dev.peerBeacon_canon (d : Dev) (g panId : Nat) (b : BeaconIe) (h_d : Dev.Canon d) :
    Dev.Canon (Dev.peerBeacon d g panId b) := by
  unfold Dev.peerBeacon
  try dsimp -proj only
  with_reducible repeat' first
    | assumption | apply Dev.raise_canon | apply Dev.setPeer_canon | apply Dev.bump_canon | split

@[simp] theorem Dev.adopt_canon (d : Dev) (x : Peer) (p : Nat) (h_d : Dev.Canon d) :
    Dev.Canon (Dev.adopt d x p) := by
  unfold Dev.adopt
  try dsimp -proj only
  with_reducible repeat' first
    | assumption | intro _ | refine Dev.foldl_canon _ _ _ ?_ ?_ | refine Dev.foldl_canon_fst _ _ _ ?_ ?_
    | apply Dev.setPanWord_canon | apply Dev.save_canon | apply Dev.setPeer_canon | split

@[simp] theorem Dev.sheetCheck_canon (d : Dev) (h : FloodHdr) (h_d : Dev.Canon d) :
    Dev.Canon (Dev.sheetCheck d h).1 := by
  unfold Dev.sheetCheck
  try dsimp -proj only
  with_reducible repeat' first
    | assumption | apply Dev.setMemBits_canon | apply Dev.bump_canon | apply Dev.evt_canon | apply Dev.setMem_canon
    | split

@[simp] theorem Dev.floodCopies_canon (d : Dev) (p : Nat) (ies payload : List Byte) (h_d : Dev.Canon d) :
    Dev.Canon (Dev.floodCopies d p ies payload).1 := by
  unfold Dev.floodCopies
  try dsimp -proj only
  with_reducible repeat' first
    | assumption | intro _ | refine Dev.foldl_canon _ _ _ ?_ ?_ | refine Dev.foldl_canon_fst _ _ _ ?_ ?_
    | apply Dev.nextMacSeq_canon | apply Dev.txAdd_canon | apply Dev.admitAll_canon | split

@[simp] theorem Dev.scheduleRelay_canon (d : Dev) (g : Nat) (pan : Option Nat) (h : FloodHdr) (f : MacFrame) (slot : Nat) (h_d : Dev.Canon d) :
    Dev.Canon (Dev.scheduleRelay d g pan h f slot) := by
  unfold Dev.scheduleRelay
  simp [*]

@[simp] theorem Dev.txRefused_canon (d : Dev) (src : Src) (code cause : Nat) (notify : Bool) (h_d : Dev.Canon d) :
    Dev.Canon (Dev.txRefused d src code cause notify) := by
  unfold Dev.txRefused
  simp [*]

@[simp] theorem Dev.cmdMacSend_canon (d : Dev) (src : Src) (e : Entry) (h_d : Dev.Canon d) :
    Dev.Canon (Dev.cmdMacSend d src e) := by
  unfold Dev.cmdMacSend
  simp [*]

@[simp] theorem Dev.cmdNodeRelease_canon (d : Dev) (src : Src) (e : Entry) (h_d : Dev.Canon d) :
    Dev.Canon (Dev.cmdNodeRelease d src e) := by
  unfold Dev.cmdNodeRelease
  simp [*]

@[simp] theorem Dev.cmdNodeTiming_canon (d : Dev) (src : Src) (e : Entry) (h_d : Dev.Canon d) :
    Dev.Canon (Dev.cmdNodeTiming d src e) := by
  unfold Dev.cmdNodeTiming
  try dsimp -proj only
  with_reducible repeat' first
    | assumption | apply Dev.adriftCheck_canon | apply Dev.finish_canon | split

@[simp] theorem Dev.scanStep_canon (d : Dev) (p a left seen new room : Nat) (e0 : Nat) (h_d : Dev.Canon d) :
    Dev.Canon (Dev.scanStep d p a left seen new room e0).1 := by
  induction e0 generalizing d p a left seen new room h_d with
  | zero =>
    unfold Dev.scanStep
    try dsimp -proj only
    with_reducible repeat' first
      | assumption | apply Dev.adriftCheck_canon | split
  | succ n ih =>
    unfold Dev.scanStep
    try dsimp -proj only
    with_reducible repeat' first
      | assumption | apply ih | apply Dev.adriftCheck_canon | split

@[simp] theorem Dev.cmdNodeScan_canon (d : Dev) (src : Src) (e : Entry) (h_d : Dev.Canon d) :
    Dev.Canon (Dev.cmdNodeScan d src e) := by
  unfold Dev.cmdNodeScan
  try dsimp -proj only
  with_reducible repeat' first
    | assumption | intro _ | refine Dev.foldl_canon _ _ _ ?_ ?_ | refine Dev.foldl_canon_fst _ _ _ ?_ ?_
    | apply Dev.finish_canon | apply Dev.scanStep_canon | (simp -proj only [canon_fst_mk, canon_snd_mk])
    | (simp -proj only [Dev.canon_mk, Tables.wf_mk, Radio.wf_mk, Vault.wf_mk]; refine ⟨?_, ?_, ?_, ?_, ?_⟩)
    | refine Dev.canon_regs ?_ | refine Dev.canon_cfg ?_ | refine Dev.canon_mem ?_ | refine Dev.canon_vault ?_
    | refine Dev.canon_rings ?_ | exact Dev.reset_rings | split

@[simp] theorem Dev.cmdFloodSend_canon (d : Dev) (src : Src) (e : Entry) (h_d : Dev.Canon d) :
    Dev.Canon (Dev.cmdFloodSend d src e) := by
  unfold Dev.cmdFloodSend
  try dsimp -proj only
  with_reducible repeat' first
    | assumption | intro _ | refine Dev.foldl_canon _ _ _ ?_ ?_ | refine Dev.foldl_canon_fst _ _ _ ?_ ?_
    | apply Dev.finish_canon | apply Dev.sheetCheck_canon | apply Dev.floodCopies_canon
    | (simp -proj only [canon_fst_mk, canon_snd_mk])
    | (simp -proj only [Dev.canon_mk, Tables.wf_mk, Radio.wf_mk, Vault.wf_mk]; refine ⟨?_, ?_, ?_, ?_, ?_⟩)
    | refine Dev.canon_regs ?_ | refine Dev.canon_cfg ?_ | refine Dev.canon_mem ?_ | refine Dev.canon_vault ?_
    | refine Dev.canon_rings ?_ | exact Dev.reset_rings | split

@[simp] theorem Dev.cmdPeerAdopt_canon (d : Dev) (src : Src) (e : Entry) (h_d : Dev.Canon d) :
    Dev.Canon (Dev.cmdPeerAdopt d src e) := by
  unfold Dev.cmdPeerAdopt
  try dsimp -proj only
  with_reducible repeat' first
    | assumption | apply Dev.adopt_canon | apply Dev.finish_canon | split

@[simp] theorem Dev.cmdTxRaw_canon (d : Dev) (src : Src) (e : Entry) (h_d : Dev.Canon d) :
    Dev.Canon (Dev.cmdTxRaw d src e) := by
  unfold Dev.cmdTxRaw
  simp [*]

@[simp] theorem Dev.autoAdopt_canon (d : Dev) (y : Peer) (h_d : Dev.Canon d) :
    Dev.Canon (Dev.autoAdopt d y) := by
  unfold Dev.autoAdopt
  try dsimp -proj only
  with_reducible repeat' first
    | assumption | apply Dev.adopt_canon | split

/-! ### Staging -/

@[simp] theorem Dev.wrAll_canon (d : Dev) (l : List (Nat × Nat)) (h_d : Dev.Canon d) :
    Dev.Canon (Dev.wrAll d l) := by
  unfold Dev.wrAll
  try dsimp -proj only
  with_reducible repeat' first
    | assumption | intro _ | refine Dev.foldl_canon _ _ _ ?_ ?_ | refine Dev.foldl_canon_fst _ _ _ ?_ ?_
    | apply Dev.wr_canon | split

@[simp] theorem Dev.loadListen_canon (d : Dev) (h_d : Dev.Canon d) :
    Dev.Canon (Dev.loadListen d) := by
  unfold Dev.loadListen
  simp [*]

@[simp] theorem Dev.loadPan_canon (d : Dev) (g : Nat) (h_d : Dev.Canon d) :
    Dev.Canon (Dev.loadPan d g) := by
  unfold Dev.loadPan
  simp [*]

@[simp] theorem Dev.loadSet_canon (d : Dev) (h_d : Dev.Canon d) :
    Dev.Canon (Dev.loadSet d) := by
  unfold Dev.loadSet
  simp [*]

@[simp] theorem Dev.setAdvance_canon (d : Dev) (h_d : Dev.Canon d) :
    Dev.Canon (Dev.setAdvance d) := by
  unfold Dev.setAdvance
  simp [*]

@[simp] theorem Dev.loadStaging_canon (d : Dev) (h_d : Dev.Canon d) :
    Dev.Canon (Dev.loadStaging d) := by
  unfold Dev.loadStaging
  try dsimp -proj only
  with_reducible repeat' first
    | assumption | intro _ | refine Dev.foldl_canon _ _ _ ?_ ?_ | refine Dev.foldl_canon_fst _ _ _ ?_ ?_
    | apply Dev.loadPan_canon | apply Dev.loadListen_canon | apply Dev.loadSet_canon | split

end Sys2Proof.Machine
end

