-- ==== Sys2Proof/Laws/Canon4.lean ====
section
/-! SUPPORT. Every operation of Machine/Rxp, Pawn, Tables, Entries keeps the canonical form: one lemma for each, for callers to cite. -/

set_option linter.unusedSimpArgs false
set_option linter.unusedVariables false

namespace Sys2Proof.Machine

/-! ### Rxp -/

@[simp] theorem Dev.poolCounts_canon (d : Dev) (h_d : Dev.Canon d) :
    Dev.Canon (Dev.poolCounts d) := by
  unfold Dev.poolCounts
  try dsimp -proj only
  with_reducible repeat' first
    | assumption | intro _ | refine Dev.foldl_canon _ _ _ ?_ ?_ | refine Dev.foldl_canon_fst _ _ _ ?_ ?_
    | apply Dev.put_canon | apply Dev.peak_canon | (simp -proj only [canon_fst_mk, canon_snd_mk])
    | (simp -proj only [Dev.canon_mk, Tables.wf_mk, Radio.wf_mk, Vault.wf_mk]; refine ⟨?_, ?_, ?_, ?_, ?_⟩)
    | refine Dev.canon_regs ?_ | refine Dev.canon_cfg ?_ | refine Dev.canon_mem ?_ | refine Dev.canon_vault ?_
    | refine Dev.canon_rings ?_ | exact Dev.reset_rings | split

@[simp] theorem Dev.setCtxs_canon (d : Dev) (l : List Ctx) (h_d : Dev.Canon d) :
    Dev.Canon (Dev.setCtxs d l) := by
  unfold Dev.setCtxs
  simp [*]

@[simp] theorem Dev.ctxUpd_canon (d : Dev) (id : Nat) (f : Ctx → Ctx) (h_d : Dev.Canon d) :
    Dev.Canon (Dev.ctxUpd d id f) := by
  unfold Dev.ctxUpd
  simp [*]

@[simp] theorem Dev.ctxFree_canon (d : Dev) (c : Ctx) (k : Nat) (h_d : Dev.Canon d) :
    Dev.Canon (Dev.ctxFree d c k) := by
  unfold Dev.ctxFree
  simp [*]

@[simp] theorem Dev.setRxRing_canon (d : Dev) (n : Nat) (r : RxRing) (h_d : Dev.Canon d) :
    Dev.Canon (Dev.setRxRing d n r) := by
  unfold Dev.setRxRing
  simp [*]

@[simp] theorem Dev.rxWritten_canon (d : Dev) (n : Nat) (h_d : Dev.Canon d) :
    Dev.Canon (Dev.rxWritten d n) := by
  unfold Dev.rxWritten
  simp [*]

@[simp] theorem Dev.rxWrite_canon (d : Dev) (n : Nat) (x : RxRec) (h_d : Dev.Canon d) :
    Dev.Canon (Dev.rxWrite d n x) := by
  unfold Dev.rxWrite
  try dsimp -proj only
  with_reducible repeat' first
    | assumption | apply Dev.emit_canon | apply Dev.put_canon | apply Dev.freeCells_canon | apply Dev.rxWritten_canon
    | split

@[simp] theorem Dev.rxOut_canon (d : Dev) (f : RxFrame) (kind : Nat) (h_d : Dev.Canon d) :
    Dev.Canon (Dev.rxOut d f kind) := by
  unfold Dev.rxOut
  try dsimp -proj only
  with_reducible repeat' first
    | assumption | apply Dev.bump_canon | apply Dev.qEvent_canon | apply Dev.setRxRing_canon
    | apply Dev.takeCells_canon | apply Dev.rxWrite_canon | apply Dev.raise_canon | split

@[simp] theorem Dev.rxDeliver_canon (d : Dev) (f : RxFrame) (kind : Nat) (h_d : Dev.Canon d) :
    Dev.Canon (Dev.rxDeliver d f kind) := by
  unfold Dev.rxDeliver
  try dsimp -proj only
  with_reducible repeat' first
    | assumption | intro _ | refine Dev.foldl_canon _ _ _ ?_ ?_ | refine Dev.foldl_canon_fst _ _ _ ?_ ?_
    | apply Dev.rxOut_canon | (simp -proj only [canon_fst_mk, canon_snd_mk])
    | (simp -proj only [Dev.canon_mk, Tables.wf_mk, Radio.wf_mk, Vault.wf_mk]; refine ⟨?_, ?_, ?_, ?_, ?_⟩)
    | refine Dev.canon_regs ?_ | refine Dev.canon_cfg ?_ | refine Dev.canon_mem ?_ | refine Dev.canon_vault ?_
    | refine Dev.canon_rings ?_ | exact Dev.reset_rings | split

@[simp] theorem Dev.rxUnpark_canon (d : Dev) (h_d : Dev.Canon d) :
    Dev.Canon (Dev.rxUnpark d) := by
  unfold Dev.rxUnpark
  try dsimp -proj only
  with_reducible repeat' first
    | assumption | intro _ | refine Dev.foldl_canon _ _ _ ?_ ?_ | refine Dev.foldl_canon_fst _ _ _ ?_ ?_
    | apply Dev.rxDeliver_canon | (simp -proj only [canon_fst_mk, canon_snd_mk])
    | (simp -proj only [Dev.canon_mk, Tables.wf_mk, Radio.wf_mk, Vault.wf_mk]; refine ⟨?_, ?_, ?_, ?_, ?_⟩)
    | refine Dev.canon_regs ?_ | refine Dev.canon_cfg ?_ | refine Dev.canon_mem ?_ | refine Dev.canon_vault ?_
    | refine Dev.canon_rings ?_ | exact Dev.reset_rings | split

@[simp] theorem Dev.rxRingOff_canon (d : Dev) (n : Nat) (h_d : Dev.Canon d) :
    Dev.Canon (Dev.rxRingOff d n) := by
  unfold Dev.rxRingOff
  try dsimp -proj only
  with_reducible repeat' first
    | assumption | intro _ | refine Dev.foldl_canon _ _ _ ?_ ?_ | refine Dev.foldl_canon_fst _ _ _ ?_ ?_
    | apply Dev.freeCells_canon | apply Dev.setRxRing_canon | apply Dev.put_canon | split

@[simp] theorem Dev.ackReceived_canon (d : Dev) (f : RxFrame) (h_d : Dev.Canon d) :
    Dev.Canon (Dev.ackReceived d f) := by
  unfold Dev.ackReceived
  try dsimp -proj only
  with_reducible repeat' first
    | assumption | intro _ | refine Dev.foldl_canon _ _ _ ?_ ?_ | refine Dev.foldl_canon_fst _ _ _ ?_ ?_
    | apply Dev.verify_canon | apply Dev.txFinish_canon | apply Dev.nodeSeen_canon | apply Dev.nodeHeard_canon
    | (simp -proj only [canon_fst_mk, canon_snd_mk])
    | (simp -proj only [Dev.canon_mk, Tables.wf_mk, Radio.wf_mk, Vault.wf_mk]; refine ⟨?_, ?_, ?_, ?_, ?_⟩)
    | refine Dev.canon_regs ?_ | refine Dev.canon_cfg ?_ | refine Dev.canon_mem ?_ | refine Dev.canon_vault ?_
    | refine Dev.canon_rings ?_ | exact Dev.reset_rings | refine Vault.cut_wf ?_ | refine Vault.loaded_wf ?_
    | refine Dev.canon_of_fst (by assumption) ?_ | refine Dev.canon_of_snd (by assumption) ?_ | split

@[simp] theorem Dev.toPipeline_canon (d : Dev) (f : RxFrame) (h_d : Dev.Canon d) :
    Dev.Canon (Dev.toPipeline d f) := by
  unfold Dev.toPipeline
  try dsimp -proj only
  with_reducible repeat' first
    | assumption | intro _ | refine Dev.foldl_canon _ _ _ ?_ ?_ | refine Dev.foldl_canon_fst _ _ _ ?_ ?_
    | apply Dev.bump_canon | apply Dev.ackReceived_canon | apply Dev.peerBeacon_canon | apply Dev.evt_canon
    | apply Dev.raise_canon | (simp -proj only [canon_fst_mk, canon_snd_mk])
    | (simp -proj only [Dev.canon_mk, Tables.wf_mk, Radio.wf_mk, Vault.wf_mk]; refine ⟨?_, ?_, ?_, ?_, ?_⟩)
    | refine Dev.canon_regs ?_ | refine Dev.canon_cfg ?_ | refine Dev.canon_mem ?_ | refine Dev.canon_vault ?_
    | refine Dev.canon_rings ?_ | exact Dev.reset_rings | split

@[simp] theorem Dev.leaveCheck_canon (d : Dev) (h_d : Dev.Canon d) :
    Dev.Canon (Dev.leaveCheck d) := by
  unfold Dev.leaveCheck
  simp [*]

@[simp] theorem Dev.releaseCtxs_canon (d : Dev) (gone : Ctx → Bool) (h_d : Dev.Canon d) :
    Dev.Canon (Dev.releaseCtxs d gone) := by
  unfold Dev.releaseCtxs
  try dsimp -proj only
  with_reducible repeat' first
    | assumption | intro _ | refine Dev.foldl_canon _ _ _ ?_ ?_ | refine Dev.foldl_canon_fst _ _ _ ?_ ?_
    | apply Dev.ctxFree_canon | split

@[simp] theorem Dev.checkPassed_canon (d : Dev) (c : Ctx) (phr : Nat) (bytes : List Byte) (h_d : Dev.Canon d) :
    Dev.Canon (Dev.checkPassed d c phr bytes) := by
  unfold Dev.checkPassed
  try dsimp -proj only
  with_reducible repeat' first
    | assumption | intro _ | refine Dev.foldl_canon _ _ _ ?_ ?_ | refine Dev.foldl_canon_fst _ _ _ ?_ ?_
    | apply Dev.ctxFree_canon | apply Dev.evt_canon | apply Dev.leaveCheck_canon | apply Dev.deliver_canon
    | apply Dev.toPipeline_canon | apply Dev.rxDeliver_canon | (simp -proj only [canon_fst_mk, canon_snd_mk])
    | (simp -proj only [Dev.canon_mk, Tables.wf_mk, Radio.wf_mk, Vault.wf_mk]; refine ⟨?_, ?_, ?_, ?_, ?_⟩)
    | refine Dev.canon_regs ?_ | refine Dev.canon_cfg ?_ | refine Dev.canon_mem ?_ | refine Dev.canon_vault ?_
    | refine Dev.canon_rings ?_ | exact Dev.reset_rings | split

@[simp] theorem Dev.checkFailed_canon (d : Dev) (c : Ctx) (phr : Nat) (bytes : List Byte) (h_d : Dev.Canon d) :
    Dev.Canon (Dev.checkFailed d c phr bytes) := by
  unfold Dev.checkFailed
  try dsimp -proj only
  with_reducible repeat' first
    | assumption | apply Dev.ctxFree_canon | apply Dev.evt_canon | apply Dev.deliver_canon
    | apply Dev.leaveCheck_canon | apply Dev.rxDeliver_canon | split

/-! ### Pawn -/

@[simp] theorem Dev.setPawnLevel_canon (d : Dev) (g : Nat) (v : Int) (h_d : Dev.Canon d) :
    Dev.Canon (Dev.setPawnLevel d g v) := by
  unfold Dev.setPawnLevel
  simp [*]

@[simp] theorem Dev.pawnRefill_canon (d : Dev) (h_d : Dev.Canon d) :
    Dev.Canon (Dev.pawnRefill d) := by
  unfold Dev.pawnRefill
  try dsimp -proj only
  with_reducible repeat' first
    | assumption | intro _ | refine Dev.foldl_canon _ _ _ ?_ ?_ | refine Dev.foldl_canon_fst _ _ _ ?_ ?_
    | apply Dev.setPawnLevel_canon | split

@[simp] theorem Dev.pawnFull_canon (d : Dev) (h_d : Dev.Canon d) :
    Dev.Canon (Dev.pawnFull d) := by
  unfold Dev.pawnFull
  try dsimp -proj only
  with_reducible repeat' first
    | assumption | intro _ | refine Dev.foldl_canon _ _ _ ?_ ?_ | refine Dev.foldl_canon_fst _ _ _ ?_ ?_
    | apply Dev.setPawnLevel_canon | split

@[simp] theorem Dev.pawnEnter_canon (d : Dev) (g : Nat) (c : Chain) (payload : List Byte) (h_d : Dev.Canon d) :
    Dev.Canon (Dev.pawnEnter d g c payload) := by
  unfold Dev.pawnEnter
  try dsimp -proj only
  with_reducible repeat' first
    | assumption | apply Dev.nextMacSeq_canon | apply Dev.nextHop_canon | apply Dev.setPawnLevel_canon
    | apply Dev.txAdd_canon | split

@[simp] theorem Dev.pawnServe_canon (d : Dev) (g : Nat) (guaranteed : Bool) (h_d : Dev.Canon d) :
    Dev.Canon (Dev.pawnServe d g guaranteed) := by
  unfold Dev.pawnServe
  try dsimp -proj only
  with_reducible repeat' first
    | assumption | intro _ | refine Dev.foldl_canon _ _ _ ?_ ?_ | refine Dev.foldl_canon_fst _ _ _ ?_ ?_
    | apply Dev.guaranteed_canon | apply Dev.bgDo_canon | apply Dev.setChain_canon | apply Dev.pawnEnter_canon
    | (simp -proj only [canon_fst_mk, canon_snd_mk])
    | (simp -proj only [Dev.canon_mk, Tables.wf_mk, Radio.wf_mk, Vault.wf_mk]; refine ⟨?_, ?_, ?_, ?_, ?_⟩)
    | refine Dev.canon_regs ?_ | refine Dev.canon_cfg ?_ | refine Dev.canon_mem ?_ | refine Dev.canon_vault ?_
    | refine Dev.canon_rings ?_ | exact Dev.reset_rings | split

@[simp] theorem Dev.pawnTick_canon (d : Dev) (h_d : Dev.Canon d) :
    Dev.Canon (Dev.pawnTick d) := by
  unfold Dev.pawnTick
  simp [*]

@[simp] theorem Dev.countDone_canon (d : Dev) (c : Chain) (h_d : Dev.Canon d) :
    Dev.Canon (Dev.countDone d c) := by
  unfold Dev.countDone
  try dsimp -proj only
  with_reducible repeat' first
    | assumption | intro _ | refine Dev.foldl_canon _ _ _ ?_ ?_ | refine Dev.foldl_canon_fst _ _ _ ?_ ?_
    | apply Dev.bump_canon | (simp -proj only [canon_fst_mk, canon_snd_mk])
    | (simp -proj only [Dev.canon_mk, Tables.wf_mk, Radio.wf_mk, Vault.wf_mk]; refine ⟨?_, ?_, ?_, ?_, ?_⟩)
    | refine Dev.canon_regs ?_ | refine Dev.canon_cfg ?_ | refine Dev.canon_mem ?_ | refine Dev.canon_vault ?_
    | refine Dev.canon_rings ?_ | exact Dev.reset_rings | split

@[simp] theorem Dev.chainStep_canon (d : Dev) (c : Chain) (h_d : Dev.Canon d) :
    Dev.Canon (Dev.chainStep d c) := by
  unfold Dev.chainStep
  simp [*]

@[simp] theorem Dev.pawnFrame_canon (d : Dev) (src : Nat) (b : List Byte) (h_d : Dev.Canon d) :
    Dev.Canon (Dev.pawnFrame d src b) := by
  unfold Dev.pawnFrame
  try dsimp -proj only
  with_reducible repeat' first
    | assumption | apply Dev.bump_canon | apply Dev.countDone_canon | apply Dev.chainStep_canon | split

@[simp] theorem Dev.pawnReset_canon (d : Dev) (h_d : Dev.Canon d) :
    Dev.Canon (Dev.pawnReset d) := by
  unfold Dev.pawnReset
  try dsimp -proj only
  with_reducible repeat' first
    | assumption | apply Dev.failChains_canon | apply Dev.put_canon | split

@[simp] theorem Dev.cmdPawnLoad_canon (d : Dev) (src : Src) (e : Entry) (h_d : Dev.Canon d) :
    Dev.Canon (Dev.cmdPawnLoad d src e) := by
  unfold Dev.cmdPawnLoad
  try dsimp -proj only
  with_reducible repeat' first
    | assumption | apply Dev.finish_canon | apply Dev.setPacked_canon | apply Dev.put_canon | split

@[simp] theorem Dev.cmdPawnSeal_canon (d : Dev) (src : Src) (e : Entry) (h_d : Dev.Canon d) :
    Dev.Canon (Dev.cmdPawnSeal d src e) := by
  unfold Dev.cmdPawnSeal
  try dsimp -proj only
  with_reducible repeat' first
    | assumption | intro _ | refine Dev.foldl_canon _ _ _ ?_ ?_ | refine Dev.foldl_canon_fst _ _ _ ?_ ?_
    | apply Dev.finish_canon | apply Dev.put_canon | (simp -proj only [canon_fst_mk, canon_snd_mk])
    | (simp -proj only [Dev.canon_mk, Tables.wf_mk, Radio.wf_mk, Vault.wf_mk]; refine ⟨?_, ?_, ?_, ?_, ?_⟩)
    | refine Dev.canon_regs ?_ | refine Dev.canon_cfg ?_ | refine Dev.canon_mem ?_ | refine Dev.canon_vault ?_
    | refine Dev.canon_rings ?_ | exact Dev.reset_rings | split

@[simp] theorem Dev.cmdPawnStart_canon (d : Dev) (src : Src) (e : Entry) (h_d : Dev.Canon d) :
    Dev.Canon (Dev.cmdPawnStart d src e) := by
  unfold Dev.cmdPawnStart
  try dsimp -proj only
  with_reducible repeat' first
    | assumption | intro _ | refine Dev.foldl_canon _ _ _ ?_ ?_ | refine Dev.foldl_canon_fst _ _ _ ?_ ?_
    | apply Dev.finish_canon | apply Dev.setChains_canon | apply Dev.put_canon | apply Dev.wr_canon
    | (simp -proj only [canon_fst_mk, canon_snd_mk])
    | (simp -proj only [Dev.canon_mk, Tables.wf_mk, Radio.wf_mk, Vault.wf_mk]; refine ⟨?_, ?_, ?_, ?_, ?_⟩)
    | refine Dev.canon_regs ?_ | refine Dev.canon_cfg ?_ | refine Dev.canon_mem ?_ | refine Dev.canon_vault ?_
    | refine Dev.canon_rings ?_ | exact Dev.reset_rings | split

@[simp] theorem Dev.cmdPawnStop_canon (d : Dev) (src : Src) (e : Entry) (h_d : Dev.Canon d) :
    Dev.Canon (Dev.cmdPawnStop d src e) := by
  unfold Dev.cmdPawnStop
  simp [*]

@[simp] theorem Dev.cmdPawnChain_canon (d : Dev) (src : Src) (e : Entry) (h_d : Dev.Canon d) :
    Dev.Canon (Dev.cmdPawnChain d src e) := by
  unfold Dev.cmdPawnChain
  try dsimp -proj only
  with_reducible repeat' first
    | assumption | apply Dev.setMems_canon | apply Dev.finish_canon | split

@[simp] theorem Dev.cmdPawnClear_canon (d : Dev) (src : Src) (e : Entry) (h_d : Dev.Canon d) :
    Dev.Canon (Dev.cmdPawnClear d src e) := by
  unfold Dev.cmdPawnClear
  simp [*]

/-! ### Tables -/

@[simp] theorem Dev.closeUe_canon (d : Dev) (line : Nat) (h_d : Dev.Canon d) :
    Dev.Canon (Dev.closeUe d line) := by
  unfold Dev.closeUe
  simp [*]

@[simp] theorem Dev.dirLineUe_canon (d : Dev) (e : Nat) (h_d : Dev.Canon d) :
    Dev.Canon (Dev.dirLineUe d e) := by
  unfold Dev.dirLineUe
  try dsimp -proj only
  with_reducible repeat' first
    | assumption | apply Dev.removeEntry_canon | apply Dev.bump_canon | apply Dev.put_canon | apply Dev.setMems_canon
    | apply Dev.setXslot_canon | split

@[simp] theorem Dev.timingLineUe_canon (d : Dev) (line : Nat) (h_d : Dev.Canon d) :
    Dev.Canon (Dev.timingLineUe d line) := by
  unfold Dev.timingLineUe
  try dsimp -proj only
  with_reducible repeat' first
    | assumption | intro _ | refine Dev.foldl_canon _ _ _ ?_ ?_ | refine Dev.foldl_canon_fst _ _ _ ?_ ?_
    | apply Dev.setMems_canon | apply Dev.setLineBits_canon | split

@[simp] theorem Dev.fwdLineUe_canon (d : Dev) (line : Nat) (h_d : Dev.Canon d) :
    Dev.Canon (Dev.fwdLineUe d line) := by
  unfold Dev.fwdLineUe
  try dsimp -proj only
  with_reducible repeat' first
    | assumption | apply Dev.fwdRemove_canon | apply Dev.setMems_canon | split

@[simp] theorem Dev.cellUe_canon (d : Dev) (h_d : Dev.Canon d) :
    Dev.Canon (Dev.cellUe d) := by
  unfold Dev.cellUe
  try dsimp -proj only
  with_reducible repeat' first
    | assumption | intro _ | refine Dev.foldl_canon _ _ _ ?_ ?_ | refine Dev.foldl_canon_fst _ _ _ ?_ ?_
    | apply Dev.draw_canon | apply Dev.endQueued_canon | apply Dev.txFinish_canon | apply Dev.freeCells_canon
    | apply Dev.bump_canon | apply Dev.evt_canon | apply Dev.setRxRing_canon
    | (simp -proj only [canon_fst_mk, canon_snd_mk])
    | (simp -proj only [Dev.canon_mk, Tables.wf_mk, Radio.wf_mk, Vault.wf_mk]; refine ⟨?_, ?_, ?_, ?_, ?_⟩)
    | refine Dev.canon_regs ?_ | refine Dev.canon_cfg ?_ | refine Dev.canon_mem ?_ | refine Dev.canon_vault ?_
    | refine Dev.canon_rings ?_ | exact Dev.reset_rings | split

@[simp] theorem Dev.heldCellUe_canon (d : Dev) (c : Nat) (h_d : Dev.Canon d) :
    Dev.Canon (Dev.heldCellUe d c) := by
  unfold Dev.heldCellUe
  simp [*]

@[simp] theorem Dev.hostLineUe_canon (d : Dev) (line : Nat) (h_d : Dev.Canon d) :
    Dev.Canon (Dev.hostLineUe d line) := by
  unfold Dev.hostLineUe
  try dsimp -proj only
  with_reducible repeat' first
    | assumption | intro _ | refine Dev.foldl_canon _ _ _ ?_ ?_ | refine Dev.foldl_canon_fst _ _ _ ?_ ?_
    | apply Dev.draw_canon | apply Dev.setMem_canon | split

@[simp] theorem Dev.ueAction_canon (d : Dev) (line : Nat) (h_d : Dev.Canon d) :
    Dev.Canon (Dev.ueAction d line) := by
  unfold Dev.ueAction
  try dsimp -proj only
  with_reducible repeat' first
    | assumption | apply Dev.dirLineUe_canon | apply Dev.closeUe_canon | apply Dev.fwdLineUe_canon
    | apply Dev.zeroLine_canon | apply Dev.timingLineUe_canon | apply Dev.heldCellUe_canon | apply Dev.cellUe_canon
    | apply Dev.imageDamaged_canon | apply Dev.flowRecordError_canon | apply Dev.hostLineUe_canon | split

@[simp] theorem Dev.ueRewrite_canon (d : Dev) (line : Nat) (h_d : Dev.Canon d) :
    Dev.Canon (Dev.ueRewrite d line) := by
  unfold Dev.ueRewrite
  simp [*]

@[simp] theorem Dev.readLine_canon (d : Dev) (line : Nat) (errs : List LineError) (reader : Nat) (h_d : Dev.Canon d) :
    Dev.Canon (Dev.readLine d line errs reader).1 := by
  unfold Dev.readLine
  try dsimp -proj only
  with_reducible repeat' first
    | assumption | apply Dev.lineUe_canon | apply Dev.xorSymbols_canon | apply Dev.lineCe_canon
    | apply Dev.ueRewrite_canon | split

@[simp] theorem Dev.strikes_canon (d : Dev) (errs : List LineError) (h_d : Dev.Canon d) :
    Dev.Canon (Dev.strikes d errs) := by
  unfold Dev.strikes
  try dsimp -proj only
  with_reducible repeat' first
    | assumption | intro _ | refine Dev.foldl_canon _ _ _ ?_ ?_ | refine Dev.foldl_canon_fst _ _ _ ?_ ?_
    | apply Dev.readLine_canon | split

@[simp] theorem Dev.touchWord_canon (d : Dev) (a : Nat) (h_d : Dev.Canon d) :
    Dev.Canon (Dev.touchWord d a) := by
  unfold Dev.touchWord
  simp [*]

@[simp] theorem Dev.updateEntry_canon (d : Dev) (e : Nat) (r : LoadRecord) (h_d : Dev.Canon d) :
    Dev.Canon (Dev.updateEntry d e r) := by
  unfold Dev.updateEntry
  try dsimp -proj only
  with_reducible repeat' first
    | assumption | apply Dev.keyRef_canon | apply Dev.setLineBits_canon | split

@[simp] theorem Dev.loadOne_canon (d : Dev) (a : Nat) (errs : List LineError) (h_d : Dev.Canon d) :
    Dev.Canon (Dev.loadOne d a errs).1 := by
  unfold Dev.loadOne
  try dsimp -proj only
  with_reducible repeat' first
    | assumption | apply Dev.readLine_canon | apply Dev.updateEntry_canon | apply Dev.notePeak_canon
    | apply Dev.createEntry_canon | split

@[simp] theorem Dev.loadSome_canon (d : Dev) (j : LoadJob) (errs : List LineError) (e0 : Nat) (h_d : Dev.Canon d) :
    Dev.Canon (Dev.loadSome d j errs e0).1 := by
  induction e0 generalizing d j errs h_d with
  | zero =>
    unfold Dev.loadSome
    try dsimp -proj only
    with_reducible repeat' first
      | assumption | apply Dev.loadOne_canon | apply Dev.bump_canon | split
  | succ n ih =>
    unfold Dev.loadSome
    try dsimp -proj only
    with_reducible repeat' first
      | assumption | apply ih | apply Dev.loadOne_canon | apply Dev.bump_canon | split

@[simp] theorem Dev.cmdDirLoad_canon (d : Dev) (src : Src) (e : Entry) (h_d : Dev.Canon d) :
    Dev.Canon (Dev.cmdDirLoad d src e) := by
  unfold Dev.cmdDirLoad
  simp [*]

@[simp] theorem Dev.loadBatch_canon (d : Dev) (errs : List LineError) (h_d : Dev.Canon d) :
    Dev.Canon (Dev.loadBatch d errs) := by
  unfold Dev.loadBatch
  try dsimp -proj only
  with_reducible repeat' first
    | assumption | intro _ | refine Dev.foldl_canon _ _ _ ?_ ?_ | refine Dev.foldl_canon_fst _ _ _ ?_ ?_
    | apply Dev.loadSome_canon | apply Dev.finish_canon | (simp -proj only [canon_fst_mk, canon_snd_mk])
    | (simp -proj only [Dev.canon_mk, Tables.wf_mk, Radio.wf_mk, Vault.wf_mk]; refine ⟨?_, ?_, ?_, ?_, ?_⟩)
    | refine Dev.canon_regs ?_ | refine Dev.canon_cfg ?_ | refine Dev.canon_mem ?_ | refine Dev.canon_vault ?_
    | refine Dev.canon_rings ?_ | exact Dev.reset_rings | split

@[simp] theorem Dev.cmdDirRemove_canon (d : Dev) (src : Src) (e : Entry) (h_d : Dev.Canon d) :
    Dev.Canon (Dev.cmdDirRemove d src e) := by
  unfold Dev.cmdDirRemove
  simp [*]

@[simp] theorem Dev.cmdDirFind_canon (d : Dev) (src : Src) (e : Entry) (h_d : Dev.Canon d) :
    Dev.Canon (Dev.cmdDirFind d src e) := by
  unfold Dev.cmdDirFind
  simp [*]

@[simp] theorem Dev.cmdFwdFlush_canon (d : Dev) (src : Src) (e : Entry) (h_d : Dev.Canon d) :
    Dev.Canon (Dev.cmdFwdFlush d src e) := by
  unfold Dev.cmdFwdFlush
  try dsimp -proj only
  with_reducible repeat' first
    | assumption | intro _ | refine Dev.foldl_canon _ _ _ ?_ ?_ | refine Dev.foldl_canon_fst _ _ _ ?_ ?_
    | apply Dev.finish_canon | apply Dev.fwdRemove_canon | split

@[simp] theorem Dev.cmdClearLine_canon (d : Dev) (src : Src) (e : Entry) (h_d : Dev.Canon d) :
    Dev.Canon (Dev.cmdClearLine d src e) := by
  unfold Dev.cmdClearLine
  simp [*]

@[simp] theorem Dev.housekeep_canon (d0 : Dev) (e : Nat) (h_d0 : Dev.Canon d0) :
    Dev.Canon (Dev.housekeep d0 e) := by
  unfold Dev.housekeep
  try dsimp -proj only
  with_reducible repeat' first
    | assumption | apply Dev.touchTiming_canon | apply Dev.setMemBits_canon | apply Dev.setLineBits_canon
    | apply Dev.setXslot_canon | split

@[simp] theorem Dev.heldWrite_canon (d : Dev) (w : HeldWrite) (h_d : Dev.Canon d) :
    Dev.Canon (Dev.heldWrite d w) := by
  unfold Dev.heldWrite
  try dsimp -proj only
  with_reducible repeat' first
    | assumption | intro _ | refine Dev.foldl_canon _ _ _ ?_ ?_ | refine Dev.foldl_canon_fst _ _ _ ?_ ?_
    | apply Dev.setMem_canon | apply Dev.housekeep_canon | apply Dev.ueAction_canon
    | (simp -proj only [canon_fst_mk, canon_snd_mk])
    | (simp -proj only [Dev.canon_mk, Tables.wf_mk, Radio.wf_mk, Vault.wf_mk]; refine ⟨?_, ?_, ?_, ?_, ?_⟩)
    | refine Dev.canon_regs ?_ | refine Dev.canon_cfg ?_ | refine Dev.canon_mem ?_ | refine Dev.canon_vault ?_
    | refine Dev.canon_rings ?_ | exact Dev.reset_rings | with_reducible_and_instances refine SMap.wf_set _ _ ?_ _ _
    | exact SMap.wf_nil _ | exact Dev.reset_canon | exact Dev.reset_tab_canon | refine Vault.written_wf ?_
    | refine Vault.cut_wf ?_ | refine Vault.loaded_wf ?_ | refine Dev.canon_of_fst (by assumption) ?_
    | refine Dev.canon_of_snd (by assumption) ?_ | split | dsimp -proj only
    | (simp -proj only [Dev.canon_ite, fst_ite, snd_ite])

@[simp] theorem Dev.scrubPassEnd_canon (d : Dev) (h_d : Dev.Canon d) :
    Dev.Canon (Dev.scrubPassEnd d) := by
  unfold Dev.scrubPassEnd
  try dsimp -proj only
  with_reducible repeat' first
    | assumption | intro _ | refine Dev.foldl_canon _ _ _ ?_ ?_ | refine Dev.foldl_canon_fst _ _ _ ?_ ?_
    | apply Dev.bump_canon | apply Dev.put_canon | apply Dev.raise_canon
    | (simp -proj only [canon_fst_mk, canon_snd_mk])
    | (simp -proj only [Dev.canon_mk, Tables.wf_mk, Radio.wf_mk, Vault.wf_mk]; refine ⟨?_, ?_, ?_, ?_, ?_⟩)
    | refine Dev.canon_regs ?_ | refine Dev.canon_cfg ?_ | refine Dev.canon_mem ?_ | refine Dev.canon_vault ?_
    | refine Dev.canon_rings ?_ | exact Dev.reset_rings | split

@[simp] theorem Dev.scrubLine_canon (d : Dev) (errs : List LineError) (h_d : Dev.Canon d) :
    Dev.Canon (Dev.scrubLine d errs) := by
  unfold Dev.scrubLine
  try dsimp -proj only
  with_reducible repeat' first
    | assumption | intro _ | refine Dev.foldl_canon _ _ _ ?_ ?_ | refine Dev.foldl_canon_fst _ _ _ ?_ ?_
    | apply Dev.readLine_canon | apply Dev.holdWrite_canon | apply Dev.housekeep_canon | apply Dev.evt_canon
    | apply Dev.put_canon | apply Dev.scrubPassEnd_canon | (simp -proj only [canon_fst_mk, canon_snd_mk])
    | (simp -proj only [Dev.canon_mk, Tables.wf_mk, Radio.wf_mk, Vault.wf_mk]; refine ⟨?_, ?_, ?_, ?_, ?_⟩)
    | refine Dev.canon_regs ?_ | refine Dev.canon_cfg ?_ | refine Dev.canon_mem ?_ | refine Dev.canon_vault ?_
    | refine Dev.canon_rings ?_ | exact Dev.reset_rings | split

@[simp] theorem Dev.scrubLines_canon (d : Dev) (errs : List LineError) (e0 : Nat) (h_d : Dev.Canon d) :
    Dev.Canon (Dev.scrubLines d errs e0) := by
  induction e0 generalizing d errs h_d with
  | zero =>
    unfold Dev.scrubLines
    try dsimp -proj only
    with_reducible repeat' first
      | assumption | apply Dev.scrubLine_canon | split
  | succ n ih =>
    unfold Dev.scrubLines
    try dsimp -proj only
    with_reducible repeat' first
      | assumption | apply ih | apply Dev.scrubLine_canon | split

@[simp] theorem Dev.scrubBoundary_canon (d : Dev) (h_d : Dev.Canon d) :
    Dev.Canon (Dev.scrubBoundary d) := by
  unfold Dev.scrubBoundary
  simp [*]

@[simp] theorem Dev.scrubEnChanged_canon (d : Dev) (h_d : Dev.Canon d) :
    Dev.Canon (Dev.scrubEnChanged d) := by
  unfold Dev.scrubEnChanged
  simp [*]

@[simp] theorem Dev.telemTake_canon (d : Dev) (h_d : Dev.Canon d) :
    Dev.Canon (Dev.telemTake d) := by
  unfold Dev.telemTake
  simp [*]

@[simp] theorem Dev.telemWrite_canon (d : Dev) (e0 : Nat) (h_d : Dev.Canon d) :
    Dev.Canon (Dev.telemWrite d e0) := by
  induction e0 generalizing d h_d with
  | zero =>
    unfold Dev.telemWrite
    try dsimp -proj only
    with_reducible repeat' first
      | assumption | intro _ | refine Dev.foldl_canon _ _ _ ?_ ?_ | refine Dev.foldl_canon_fst _ _ _ ?_ ?_
      | apply Dev.setMems_canon | apply Dev.closeUe_canon | apply Dev.put_canon
      | (simp -proj only [canon_fst_mk, canon_snd_mk])
      | (simp -proj only [Dev.canon_mk, Tables.wf_mk, Radio.wf_mk, Vault.wf_mk]; refine ⟨?_, ?_, ?_, ?_, ?_⟩)
      | refine Dev.canon_regs ?_ | refine Dev.canon_cfg ?_ | refine Dev.canon_mem ?_ | refine Dev.canon_vault ?_
      | refine Dev.canon_rings ?_ | exact Dev.reset_rings | split
  | succ n ih =>
    unfold Dev.telemWrite
    try dsimp -proj only
    with_reducible repeat' first
      | assumption | intro _ | refine Dev.foldl_canon _ _ _ ?_ ?_ | refine Dev.foldl_canon_fst _ _ _ ?_ ?_ | apply ih
      | apply Dev.setMems_canon | apply Dev.closeUe_canon | apply Dev.put_canon
      | (simp -proj only [canon_fst_mk, canon_snd_mk])
      | (simp -proj only [Dev.canon_mk, Tables.wf_mk, Radio.wf_mk, Vault.wf_mk]; refine ⟨?_, ?_, ?_, ?_, ?_⟩)
      | refine Dev.canon_regs ?_ | refine Dev.canon_cfg ?_ | refine Dev.canon_mem ?_ | refine Dev.canon_vault ?_
      | refine Dev.canon_rings ?_ | exact Dev.reset_rings | split

@[simp] theorem Dev.telemEnChanged_canon (d : Dev) (h_d : Dev.Canon d) :
    Dev.Canon (Dev.telemEnChanged d) := by
  unfold Dev.telemEnChanged
  simp [*]

@[simp] theorem Dev.dirReset_canon (d : Dev) (h_d : Dev.Canon d) :
    Dev.Canon (Dev.dirReset d) := by
  unfold Dev.dirReset
  try dsimp -proj only
  with_reducible repeat' first
    | assumption | apply Dev.put_canon | apply Dev.wr_canon | split

@[simp] theorem Dev.tmemReset_canon (d : Dev) (h_d : Dev.Canon d) :
    Dev.Canon (Dev.tmemReset d) := by
  unfold Dev.tmemReset
  try dsimp -proj only
  with_reducible repeat' first
    | assumption | intro _ | refine Dev.foldl_canon _ _ _ ?_ ?_ | refine Dev.foldl_canon_fst _ _ _ ?_ ?_
    | apply Dev.put_canon | apply Dev.wr_canon | (simp -proj only [canon_fst_mk, canon_snd_mk])
    | (simp -proj only [Dev.canon_mk, Tables.wf_mk, Radio.wf_mk, Vault.wf_mk]; refine ⟨?_, ?_, ?_, ?_, ?_⟩)
    | refine Dev.canon_regs ?_ | refine Dev.canon_cfg ?_ | refine Dev.canon_mem ?_ | refine Dev.canon_vault ?_
    | refine Dev.canon_rings ?_ | exact Dev.reset_rings | split

@[simp] theorem Dev.fwdReset_canon (d : Dev) (g : Nat) (h_d : Dev.Canon d) :
    Dev.Canon (Dev.fwdReset d g) := by
  unfold Dev.fwdReset
  try dsimp -proj only
  with_reducible repeat' first
    | assumption | intro _ | refine Dev.foldl_canon _ _ _ ?_ ?_ | refine Dev.foldl_canon_fst _ _ _ ?_ ?_
    | apply Dev.fwdRemove_canon | apply Dev.wr_canon | (simp -proj only [canon_fst_mk, canon_snd_mk])
    | (simp -proj only [Dev.canon_mk, Tables.wf_mk, Radio.wf_mk, Vault.wf_mk]; refine ⟨?_, ?_, ?_, ?_, ?_⟩)
    | refine Dev.canon_regs ?_ | refine Dev.canon_cfg ?_ | refine Dev.canon_mem ?_ | refine Dev.canon_vault ?_
    | refine Dev.canon_rings ?_ | exact Dev.reset_rings | split

/-! ### Entries -/

@[simp] theorem Dev.offer_canon (d : Dev) (n : Nat) (e : Entry) (sess : Option Nat) (h_d : Dev.Canon d) :
    Dev.Canon (Dev.offer d n e sess) := by
  unfold Dev.offer
  try dsimp -proj only
  with_reducible repeat' first
    | assumption | intro _ | refine Dev.foldl_canon _ _ _ ?_ ?_ | refine Dev.foldl_canon_fst _ _ _ ?_ ?_
    | apply Dev.put_canon | apply Dev.evt_canon | apply Dev.peak_canon | apply Dev.issue_canon
    | apply Dev.setRing_canon | apply Dev.bump_canon | apply Dev.raise_canon
    | (simp -proj only [canon_fst_mk, canon_snd_mk])
    | (simp -proj only [Dev.canon_mk, Tables.wf_mk, Radio.wf_mk, Vault.wf_mk]; refine ⟨?_, ?_, ?_, ?_, ?_⟩)
    | refine Dev.canon_regs ?_ | refine Dev.canon_cfg ?_ | refine Dev.canon_mem ?_ | refine Dev.canon_vault ?_
    | refine Dev.canon_rings ?_ | exact Dev.reset_rings | split

end Sys2Proof.Machine
end

