-- ==== Sys2Proof/Laws/Canon5.lean ====
section
/-! SUPPORT. Every operation of Machine/Brioz, Lowpan, Uplink, Backhaul, Calibration keeps the canonical form: one lemma for each, for callers to cite. -/

set_option linter.unusedSimpArgs false
set_option linter.unusedVariables false

namespace Sys2Proof.Machine

/-! ### Brioz -/

@[simp] theorem Dev.brzQueue_canon (d : Dev) (p uid addr udp : Nat) (b : List Byte) (h_d : Dev.Canon d) :
    Dev.Canon (Dev.brzQueue d p uid addr udp b) := by
  unfold Dev.brzQueue
  simp [*]

@[simp] theorem Dev.brzSend_canon (d : Dev) (uid type : Nat) (payload : List Byte) (h_d : Dev.Canon d) :
    Dev.Canon (Dev.brzSend d uid type payload) := by
  unfold Dev.brzSend
  try dsimp -proj only
  with_reducible repeat' first
    | assumption | intro _ | refine Dev.foldl_canon _ _ _ ?_ ?_ | refine Dev.foldl_canon_fst _ _ _ ?_ ?_
    | apply Dev.brzQueue_canon | (simp -proj only [canon_fst_mk, canon_snd_mk])
    | (simp -proj only [Dev.canon_mk, Tables.wf_mk, Radio.wf_mk, Vault.wf_mk]; refine ⟨?_, ?_, ?_, ?_, ?_⟩)
    | refine Dev.canon_regs ?_ | refine Dev.canon_cfg ?_ | refine Dev.canon_mem ?_ | refine Dev.canon_vault ?_
    | refine Dev.canon_rings ?_ | exact Dev.reset_rings | split

@[simp] theorem Dev.sessionUpd_canon (d : Dev) (uid : Nat) (f : Session → Session) (h_d : Dev.Canon d) :
    Dev.Canon (Dev.sessionUpd d uid f) := by
  unfold Dev.sessionUpd
  simp [*]

@[simp] theorem Dev.dropWaiting_canon (d : Dev) (uid : Nat) (h_d : Dev.Canon d) :
    Dev.Canon (Dev.dropWaiting d uid) := by
  unfold Dev.dropWaiting
  try dsimp -proj only
  with_reducible repeat' first
    | assumption | intro _ | refine Dev.foldl_canon _ _ _ ?_ ?_ | refine Dev.foldl_canon_fst _ _ _ ?_ ?_
    | apply Dev.setRing_canon | apply Dev.retire_canon | split

@[simp] theorem Dev.sessionClose_canon (d : Dev) (s : Session) (h_d : Dev.Canon d) :
    Dev.Canon (Dev.sessionClose d s) := by
  unfold Dev.sessionClose
  try dsimp -proj only
  with_reducible repeat' first
    | assumption | intro _ | refine Dev.foldl_canon _ _ _ ?_ ?_ | refine Dev.foldl_canon_fst _ _ _ ?_ ?_
    | apply Dev.dropWaiting_canon | apply Dev.raise_canon | (simp -proj only [canon_fst_mk, canon_snd_mk])
    | (simp -proj only [Dev.canon_mk, Tables.wf_mk, Radio.wf_mk, Vault.wf_mk]; refine ⟨?_, ?_, ?_, ?_, ?_⟩)
    | refine Dev.canon_regs ?_ | refine Dev.canon_cfg ?_ | refine Dev.canon_mem ?_ | refine Dev.canon_vault ?_
    | refine Dev.canon_rings ?_ | exact Dev.reset_rings | split

@[simp] theorem Dev.closeWith_canon (d : Dev) (s : Session) (reason : Nat) (h_d : Dev.Canon d) :
    Dev.Canon (Dev.closeWith d s reason) := by
  unfold Dev.closeWith
  simp [*]

@[simp] theorem Dev.brzDrop_canon (d : Dev) (p cause : Nat) (h_d : Dev.Canon d) :
    Dev.Canon (Dev.brzDrop d p cause) := by
  unfold Dev.brzDrop
  try dsimp -proj only
  with_reducible repeat' first
    | assumption | apply Dev.bump_canon | apply Dev.put_canon | apply Dev.evt_canon | apply Dev.raise_canon | split

@[simp] theorem Dev.frameIn_canon (d : Dev) (p : Nat) (h_d : Dev.Canon d) :
    Dev.Canon (Dev.frameIn d p) := by
  unfold Dev.frameIn
  simp [*]

@[simp] theorem Dev.hear_canon (d : Dev) (p : Nat) (tag : Option Nat) (f : Dev → Dev) (h_d : Dev.Canon d) (h_f : ∀ x0, Dev.Canon x0 → Dev.Canon (f x0)) :
    Dev.Canon (Dev.hear d p tag f) := by
  unfold Dev.hear
  simp [*]

@[simp] theorem Dev.hearMore_canon (d : Dev) (p : Nat) (tag : Option Nat) (n : Nat) (h_d : Dev.Canon d) :
    Dev.Canon (Dev.hearMore d p tag n) :=
  Dev.foldl_canon _ _ _ h_d (fun x _ hx => Dev.hear_canon x p tag id hx (fun _ h => h))

@[simp] theorem Dev.brzArrive_canon (d : Dev) (p addr udp type : Nat) (b : List Byte) (act : Dev → Session → Dev) (h_d : Dev.Canon d) (h_act : ∀ x0 x1, Dev.Canon x0 → Dev.Canon (act x0 x1)) :
    Dev.Canon (Dev.brzArrive d p addr udp type b act) := by
  unfold Dev.brzArrive
  try dsimp -proj only
  with_reducible repeat' first
    | assumption | apply h_act | apply Dev.brzDrop_canon | apply Dev.sessionUpd_canon | split

@[simp] theorem Dev.brzOpen_canon (d : Dev) (p addr udp : Nat) (b : List Byte) (h_d : Dev.Canon d) :
    Dev.Canon (Dev.brzOpen d p addr udp b) := by
  unfold Dev.brzOpen
  try dsimp -proj only
  with_reducible repeat' first
    | assumption | intro _ | refine Dev.foldl_canon _ _ _ ?_ ?_ | refine Dev.foldl_canon_fst _ _ _ ?_ ?_
    | apply Dev.brzDrop_canon | apply Dev.draw_canon | apply Dev.brzQueue_canon | apply Dev.raise_canon
    | (simp -proj only [canon_fst_mk, canon_snd_mk])
    | (simp -proj only [Dev.canon_mk, Tables.wf_mk, Radio.wf_mk, Vault.wf_mk]; refine ⟨?_, ?_, ?_, ?_, ?_⟩)
    | refine Dev.canon_regs ?_ | refine Dev.canon_cfg ?_ | refine Dev.canon_mem ?_ | refine Dev.canon_vault ?_
    | refine Dev.canon_rings ?_ | exact Dev.reset_rings | split

@[simp] theorem Dev.brzItems_canon (d : Dev) (s : Session) (b : List Byte) (e0 : Nat) (e1 : Nat) (h_d : Dev.Canon d) :
    Dev.Canon (Dev.brzItems d s b e0 e1) := by
  induction e0 generalizing d s b e1 h_d with
  | zero =>
    unfold Dev.brzItems
    try dsimp -proj only
    with_reducible repeat' first
      | assumption | apply Dev.brzDrop_canon | apply Dev.offer_canon | split
  | succ n ih =>
    unfold Dev.brzItems
    try dsimp -proj only
    with_reducible repeat' first
      | assumption | apply ih | apply Dev.brzDrop_canon | apply Dev.offer_canon | split

@[simp] theorem Dev.brzHdata_canon (d : Dev) (s : Session) (b : List Byte) (h_d : Dev.Canon d) :
    Dev.Canon (Dev.brzHdata d s b) := by
  unfold Dev.brzHdata
  simp [*]

@[simp] theorem Dev.brzClose_canon (d : Dev) (p addr udp : Nat) (b : List Byte) (h_d : Dev.Canon d) :
    Dev.Canon (Dev.brzClose d p addr udp b) := by
  unfold Dev.brzClose
  try dsimp -proj only
  with_reducible repeat' first
    | assumption | apply Dev.brzArrive_canon | apply Dev.sessionClose_canon | split

@[simp] theorem Dev.brzKeepalive_canon (d : Dev) (p addr udp : Nat) (b : List Byte) (h_d : Dev.Canon d) :
    Dev.Canon (Dev.brzKeepalive d p addr udp b) := by
  unfold Dev.brzKeepalive
  simp [*]

@[simp] theorem Dev.brzCmd_canon (d : Dev) (p addr udp : Nat) (b : List Byte) (h_d : Dev.Canon d) :
    Dev.Canon (Dev.brzCmd d p addr udp b) := by
  unfold Dev.brzCmd
  try dsimp -proj only
  with_reducible repeat' first
    | assumption | intro _ | refine Dev.foldl_canon _ _ _ ?_ ?_ | refine Dev.foldl_canon_fst _ _ _ ?_ ?_
    | apply Dev.brzArrive_canon | apply Dev.brzItems_canon | split

@[simp] theorem Dev.brzData_canon (d : Dev) (p addr udp : Nat) (b : List Byte) (h_d : Dev.Canon d) :
    Dev.Canon (Dev.brzData d p addr udp b) := by
  unfold Dev.brzData
  try dsimp -proj only
  with_reducible repeat' first
    | assumption | intro _ | refine Dev.foldl_canon _ _ _ ?_ ?_ | refine Dev.foldl_canon_fst _ _ _ ?_ ?_
    | apply Dev.brzArrive_canon | apply Dev.brzHdata_canon | split

@[simp] theorem Dev.brzAny_canon (d : Dev) (x : Nat × Nat × Nat × List Byte) (h_d : Dev.Canon d) :
    Dev.Canon (Dev.brzAny d x) := by
  unfold Dev.brzAny
  try dsimp -proj only
  with_reducible repeat' first
    | assumption | apply Dev.brzClose_canon | apply Dev.brzKeepalive_canon | apply Dev.brzCmd_canon
    | apply Dev.brzData_canon | apply Dev.brzOpen_canon | split

@[simp] theorem Dev.brzHear_canon (d : Dev) (p addr udp : Nat) (tag : Option Nat) (b : List Byte) (take : Dev → Nat → Nat → Nat → List Byte → Dev) (h_d : Dev.Canon d) (h_take : ∀ x0 x1 x2 x3 x4, Dev.Canon x0 → Dev.Canon (take x0 x1 x2 x3 x4)) :
    Dev.Canon (Dev.brzHear d p addr udp tag b take) := by
  unfold Dev.brzHear
  try dsimp -proj only
  with_reducible repeat' first
    | assumption | intro _ | refine Dev.foldl_canon _ _ _ ?_ ?_ | refine Dev.foldl_canon_fst _ _ _ ?_ ?_
    | apply h_take | apply Dev.hearMore_canon | apply Dev.hear_canon | (simp -proj only [canon_fst_mk, canon_snd_mk])
    | (simp -proj only [Dev.canon_mk, Tables.wf_mk, Radio.wf_mk, Vault.wf_mk]; refine ⟨?_, ?_, ?_, ?_, ?_⟩)
    | refine Dev.canon_regs ?_ | refine Dev.canon_cfg ?_ | refine Dev.canon_mem ?_ | refine Dev.canon_vault ?_
    | refine Dev.canon_rings ?_ | exact Dev.reset_rings | split

@[simp] theorem Dev.hdataWrite_canon (d : Dev) (errs : List LineError) (h_d : Dev.Canon d) :
    Dev.Canon (Dev.hdataWrite d errs) := by
  unfold Dev.hdataWrite
  try dsimp -proj only
  with_reducible repeat' first
    | assumption | intro _ | refine Dev.foldl_canon _ _ _ ?_ ?_ | refine Dev.foldl_canon_fst _ _ _ ?_ ?_
    | apply Dev.readLine_canon | apply Dev.setPacked_canon | apply Dev.brzSend_canon
    | (simp -proj only [canon_fst_mk, canon_snd_mk])
    | (simp -proj only [Dev.canon_mk, Tables.wf_mk, Radio.wf_mk, Vault.wf_mk]; refine ⟨?_, ?_, ?_, ?_, ?_⟩)
    | refine Dev.canon_regs ?_ | refine Dev.canon_cfg ?_ | refine Dev.canon_mem ?_ | refine Dev.canon_vault ?_
    | refine Dev.canon_rings ?_ | exact Dev.reset_rings | split

@[simp] theorem Dev.sendCompl_canon (d : Dev) (uid : Nat) (h_d : Dev.Canon d) :
    Dev.Canon (Dev.sendCompl d uid) := by
  unfold Dev.sendCompl
  try dsimp -proj only
  with_reducible repeat' first
    | assumption | intro _ | refine Dev.foldl_canon _ _ _ ?_ ?_ | refine Dev.foldl_canon_fst _ _ _ ?_ ?_
    | apply Dev.brzSend_canon | apply Dev.setRing_canon | apply Dev.retire_canon | split

@[simp] theorem Dev.sendEvents_canon (d : Dev) (uid : Nat) (h_d : Dev.Canon d) :
    Dev.Canon (Dev.sendEvents d uid) := by
  unfold Dev.sendEvents
  simp [*]

@[simp] theorem Dev.sendRecord_canon (d : Dev) (n : Nat) (h_d : Dev.Canon d) :
    Dev.Canon (Dev.sendRecord d n) := by
  unfold Dev.sendRecord
  try dsimp -proj only
  with_reducible repeat' first
    | assumption | intro _ | refine Dev.foldl_canon _ _ _ ?_ ?_ | refine Dev.foldl_canon_fst _ _ _ ?_ ?_
    | apply Dev.setRxRing_canon | apply Dev.freeCells_canon | apply Dev.rxWritten_canon | apply Dev.brzSend_canon
    | split

@[simp] theorem Dev.sendTelem_canon (d : Dev) (s : Session) (h_d : Dev.Canon d) :
    Dev.Canon (Dev.sendTelem d s) := by
  unfold Dev.sendTelem
  simp [*]

@[simp] theorem Dev.flushCompl_canon (d : Dev) (uid : Nat) (e0 : Nat) (h_d : Dev.Canon d) :
    Dev.Canon (Dev.flushCompl d uid e0) := by
  induction e0 generalizing d uid h_d with
  | zero =>
    unfold Dev.flushCompl
    try dsimp -proj only
    with_reducible repeat' first
      | assumption | apply Dev.sendCompl_canon | split
  | succ n ih =>
    unfold Dev.flushCompl
    try dsimp -proj only
    with_reducible repeat' first
      | assumption | apply ih | apply Dev.sendCompl_canon | split

/-! ### Lowpan -/

@[simp] theorem Dev.lowpanErr_canon (d : Dev) (cause : Nat) (h_d : Dev.Canon d) :
    Dev.Canon (Dev.lowpanErr d cause) := by
  unfold Dev.lowpanErr
  try dsimp -proj only
  with_reducible repeat' first
    | assumption | apply Dev.bump_canon | apply Dev.put_canon | apply Dev.raise_canon | split

@[simp] theorem Dev.frameOut_canon (d : Dev) (n : Nat) (o : Out) (h_d : Dev.Canon d) :
    Dev.Canon (Dev.frameOut d n o) := by
  unfold Dev.frameOut
  try dsimp -proj only
  with_reducible repeat' first
    | assumption | apply Dev.bump_canon | apply Dev.evt_canon | apply Dev.emit_canon | split

@[simp] theorem Dev.packetNode_canon (d : Dev) (p dst : Nat) (h_d : Dev.Canon d) :
    Dev.Canon (Dev.packetNode d p dst).1 := by
  unfold Dev.packetNode
  simp [*]

@[simp] theorem Dev.packetFrames_canon (d : Dev) (h : Nat) (flow : Nat) (ack : Bool) (pkt : Nat) (e0 : List (List Byte)) (h_d : Dev.Canon d) :
    Dev.Canon (Dev.packetFrames d h flow ack pkt e0) := by
  induction e0 generalizing d h flow ack pkt h_d with
  | nil =>
    unfold Dev.packetFrames
    try dsimp -proj only
    with_reducible repeat' first
      | assumption | apply Dev.nextMacSeq_canon | apply Dev.txAdd_canon | split
  | cons v vs ih =>
    unfold Dev.packetFrames
    try dsimp -proj only
    with_reducible repeat' first
      | assumption | apply ih | apply Dev.nextMacSeq_canon | apply Dev.txAdd_canon | split

@[simp] theorem Dev.packetDown_canon (d : Dev) (h : Nat) (x : IpPacket) (h_d : Dev.Canon d) :
    Dev.Canon (Dev.packetDown d h x) := by
  unfold Dev.packetDown
  try dsimp -proj only
  with_reducible repeat' first
    | assumption | intro _ | refine Dev.foldl_canon _ _ _ ?_ ?_ | refine Dev.foldl_canon_fst _ _ _ ?_ ?_
    | apply Dev.draw_canon | apply Dev.bump_canon | apply Dev.packetFrames_canon
    | (simp -proj only [canon_fst_mk, canon_snd_mk])
    | (simp -proj only [Dev.canon_mk, Tables.wf_mk, Radio.wf_mk, Vault.wf_mk]; refine ⟨?_, ?_, ?_, ?_, ?_⟩)
    | refine Dev.canon_regs ?_ | refine Dev.canon_cfg ?_ | refine Dev.canon_mem ?_ | refine Dev.canon_vault ?_
    | refine Dev.canon_rings ?_ | exact Dev.reset_rings | split

@[simp] theorem Dev.packetTooBig_canon (d : Dev) (port : Option Nat) (h_d : Dev.Canon d) :
    Dev.Canon (Dev.packetTooBig d port) := by
  unfold Dev.packetTooBig
  try dsimp -proj only
  with_reducible repeat' first
    | assumption | intro _ | refine Dev.foldl_canon _ _ _ ?_ ?_ | refine Dev.foldl_canon_fst _ _ _ ?_ ?_
    | apply Dev.lowpanErr_canon | apply Dev.frameOut_canon | (simp -proj only [canon_fst_mk, canon_snd_mk])
    | (simp -proj only [Dev.canon_mk, Tables.wf_mk, Radio.wf_mk, Vault.wf_mk]; refine ⟨?_, ?_, ?_, ?_, ?_⟩)
    | refine Dev.canon_regs ?_ | refine Dev.canon_cfg ?_ | refine Dev.canon_mem ?_ | refine Dev.canon_vault ?_
    | refine Dev.canon_rings ?_ | exact Dev.reset_rings | split

@[simp] theorem Dev.toMesh_canon (d : Dev) (port : Option Nat) (x : IpPacket) (h_d : Dev.Canon d) :
    Dev.Canon (Dev.toMesh d port x) := by
  unfold Dev.toMesh
  try dsimp -proj only
  with_reducible repeat' first
    | assumption | apply Dev.lowpanErr_canon | apply Dev.packetNode_canon | apply Dev.packetTooBig_canon
    | apply Dev.packetDown_canon | split

@[simp] theorem Dev.toHost_canon (d : Dev) (f : RxFrame) (h_d : Dev.Canon d) :
    Dev.Canon (Dev.toHost d f) := by
  unfold Dev.toHost
  try dsimp -proj only
  with_reducible repeat' first
    | assumption | apply Dev.rxDeliver_canon | apply Dev.bump_canon | apply Dev.qEvent_canon | split

@[simp] theorem Dev.discard_canon (d : Dev) (h_d : Dev.Canon d) :
    Dev.Canon (Dev.discard d) := by
  unfold Dev.discard
  simp [*]

@[simp] theorem Dev.toEgress_canon (d : Dev) (n queue : Nat) (x : IpPacket) (h_d : Dev.Canon d) :
    Dev.Canon (Dev.toEgress d n queue x) := by
  unfold Dev.toEgress
  simp [*]

@[simp] theorem Dev.packetUp_canon (d : Dev) (f : RxFrame) (x : IpPacket) (h_d : Dev.Canon d) :
    Dev.Canon (Dev.packetUp d f x) := by
  unfold Dev.packetUp
  try dsimp -proj only
  with_reducible repeat' first
    | assumption | apply Dev.bump_canon | apply Dev.toMesh_canon | apply Dev.toEgress_canon | apply Dev.toHost_canon
    | apply Dev.discard_canon | split

@[simp] theorem Dev.nonIp_canon (d : Dev) (f : RxFrame) (h_d : Dev.Canon d) :
    Dev.Canon (Dev.nonIp d f) := by
  unfold Dev.nonIp
  try dsimp -proj only
  with_reducible repeat' first
    | assumption | intro _ | refine Dev.foldl_canon _ _ _ ?_ ?_ | refine Dev.foldl_canon_fst _ _ _ ?_ ?_
    | apply Dev.toHost_canon | apply Dev.discard_canon | apply Dev.brzSend_canon | split

@[simp] theorem Dev.setReasm_canon (d : Dev) (l : List Reasm) (h_d : Dev.Canon d) :
    Dev.Canon (Dev.setReasm d l) := by
  unfold Dev.setReasm
  try dsimp -proj only
  with_reducible repeat' first
    | assumption | intro _ | refine Dev.foldl_canon _ _ _ ?_ ?_ | refine Dev.foldl_canon_fst _ _ _ ?_ ?_
    | apply Dev.put_canon | apply Dev.peak_canon | (simp -proj only [canon_fst_mk, canon_snd_mk])
    | (simp -proj only [Dev.canon_mk, Tables.wf_mk, Radio.wf_mk, Vault.wf_mk]; refine ⟨?_, ?_, ?_, ?_, ?_⟩)
    | refine Dev.canon_regs ?_ | refine Dev.canon_cfg ?_ | refine Dev.canon_mem ?_ | refine Dev.canon_vault ?_
    | refine Dev.canon_rings ?_ | exact Dev.reset_rings | split

@[simp] theorem Dev.dropReasm_canon (d : Dev) (r : Reasm) (h_d : Dev.Canon d) :
    Dev.Canon (Dev.dropReasm d r) := by
  unfold Dev.dropReasm
  simp [*]

@[simp] theorem Dev.fragment_canon (d : Dev) (p : Nat) (src : Addr) (tag size off : Nat) (b : List Byte) (elided : Bool) (h_d : Dev.Canon d) :
    Dev.Canon (Dev.fragment d p src tag size off b elided).1 := by
  unfold Dev.fragment
  try dsimp -proj only
  with_reducible repeat' first
    | assumption | apply Dev.dropReasm_canon | apply Dev.lowpanErr_canon | apply Dev.setReasm_canon
    | apply Dev.bump_canon | apply Dev.qEvent_canon | apply Dev.takeCells_canon | split

@[simp] theorem Dev.step8_canon (d : Dev) (f : RxFrame) (p h : Nat) (h_d : Dev.Canon d) :
    Dev.Canon (Dev.step8 d f p h) := by
  unfold Dev.step8
  try dsimp -proj only
  with_reducible repeat' first
    | assumption | apply Dev.pawnFrame_canon | apply Dev.discard_canon | apply Dev.nonIp_canon
    | apply Dev.lowpanErr_canon | apply Dev.packetUp_canon | apply Dev.fragment_canon | split

@[simp] theorem Dev.lowpanReset_canon (d : Dev) (h_d : Dev.Canon d) :
    Dev.Canon (Dev.lowpanReset d) := by
  unfold Dev.lowpanReset
  try dsimp -proj only
  with_reducible repeat' first
    | assumption | intro _ | refine Dev.foldl_canon _ _ _ ?_ ?_ | refine Dev.foldl_canon_fst _ _ _ ?_ ?_
    | apply Dev.dropReasm_canon | apply Dev.wr_canon | split

/-! ### Uplink -/

@[simp] theorem Dev.sourceOf_canon (d : Dev) (p : Nat) (a : Addr) (h_d : Dev.Canon d) :
    Dev.Canon (Dev.sourceOf d p a).1 := by
  unfold Dev.sourceOf
  try dsimp -proj only
  with_reducible repeat' first
    | assumption | apply Dev.notePeak_canon | split

@[simp] theorem Dev.sendAck_canon (d : Dev) (p : Nat) (f : RxFrame) (slot : Option Nat) (corr : Option Int) (h_d : Dev.Canon d) :
    Dev.Canon (Dev.sendAck d p f slot corr) := by
  unfold Dev.sendAck
  simp [*]

@[simp] theorem Dev.sendResponse_canon (d : Dev) (p x : Nat) (f : RxFrame) (addr status : Nat) (retry : Option Nat) (h_d : Dev.Canon d) :
    Dev.Canon (Dev.sendResponse d p x f addr status retry) := by
  unfold Dev.sendResponse
  simp [*]

@[simp] theorem Dev.answerAssoc_canon (d : Dev) (p x : Nat) (f : RxFrame) (h_d : Dev.Canon d) :
    Dev.Canon (Dev.answerAssoc d p x f) := by
  unfold Dev.answerAssoc
  simp [*]

@[simp] theorem Dev.steps6and7_canon (d : Dev) (p h e : Nat) (f : RxFrame) (h_d : Dev.Canon d) :
    Dev.Canon (Dev.steps6and7 d p h e f) := by
  unfold Dev.steps6and7
  try dsimp -proj only
  with_reducible repeat' first
    | assumption | apply Dev.sourceOf_canon | apply Dev.learn_canon | apply Dev.bump_canon | apply Dev.nodeSeen_canon
    | apply Dev.nodeHeard_canon | split

@[simp] theorem Dev.usePassed_canon (d : Dev) (p h e : Nat) (f : RxFrame) (sheet : Option Nat) (h_d : Dev.Canon d) :
    Dev.Canon (Dev.usePassed d p h e f sheet) := by
  unfold Dev.usePassed
  try dsimp -proj only
  with_reducible repeat' first
    | assumption | apply Dev.sendAck_canon | apply Dev.steps6and7_canon | apply Dev.scheduleRelay_canon
    | apply Dev.step8_canon | apply Dev.answerAssoc_canon | apply Dev.removeEntry_canon
    | apply Dev.beaconRequest_canon | split

@[simp] theorem Dev.unsupported_canon (d : Dev) (f : RxFrame) (h_d : Dev.Canon d) :
    Dev.Canon (Dev.unsupported d f) := by
  unfold Dev.unsupported
  simp [*]

@[simp] theorem Dev.badFlood_canon (d : Dev) (p e : Nat) (f : RxFrame) (slot : Option Nat) (h_d : Dev.Canon d) :
    Dev.Canon (Dev.badFlood d p e f slot) := by
  unfold Dev.badFlood
  try dsimp -proj only
  with_reducible repeat' first
    | assumption | apply Dev.bump_canon | apply Dev.raise_canon | apply Dev.sendAck_canon | split

@[simp] theorem Dev.fromKnown_canon (d : Dev) (p h e : Nat) (f : RxFrame) (h_d : Dev.Canon d) :
    Dev.Canon (Dev.fromKnown d p h e f) := by
  unfold Dev.fromKnown
  try dsimp -proj only
  with_reducible repeat' first
    | assumption | intro _ | refine Dev.foldl_canon _ _ _ ?_ ?_ | refine Dev.foldl_canon_fst _ _ _ ?_ ?_
    | apply Dev.verify_canon | apply Dev.sendAck_canon | apply Dev.bump_canon | apply Dev.steps6and7_canon
    | apply Dev.unsupported_canon | apply Dev.usePassed_canon | apply Dev.badFlood_canon | apply Dev.sheetCheck_canon
    | (simp -proj only [canon_fst_mk, canon_snd_mk])
    | (simp -proj only [Dev.canon_mk, Tables.wf_mk, Radio.wf_mk, Vault.wf_mk]; refine ⟨?_, ?_, ?_, ?_, ?_⟩)
    | refine Dev.canon_regs ?_ | refine Dev.canon_cfg ?_ | refine Dev.canon_mem ?_ | refine Dev.canon_vault ?_
    | refine Dev.canon_rings ?_ | exact Dev.reset_rings | refine Vault.cut_wf ?_ | refine Vault.loaded_wf ?_
    | refine Dev.canon_of_fst (by assumption) ?_ | refine Dev.canon_of_snd (by assumption) ?_ | split

@[simp] theorem Dev.strangerCmd_canon (d : Dev) (p : Nat) (f : RxFrame) (h_d : Dev.Canon d) :
    Dev.Canon (Dev.strangerCmd d p f) := by
  unfold Dev.strangerCmd
  try dsimp -proj only
  with_reducible repeat' first
    | assumption | apply Dev.unsupported_canon | apply Dev.beaconRequest_canon | apply Dev.sendAck_canon
    | apply Dev.answerAssoc_canon | apply Dev.evt_canon | split

@[simp] theorem Dev.fromUnknown_canon (d : Dev) (p : Nat) (f : RxFrame) (h_d : Dev.Canon d) :
    Dev.Canon (Dev.fromUnknown d p f) := by
  unfold Dev.fromUnknown
  try dsimp -proj only
  with_reducible repeat' first
    | assumption | intro _ | refine Dev.foldl_canon _ _ _ ?_ ?_ | refine Dev.foldl_canon_fst _ _ _ ?_ ?_
    | apply Dev.evt_canon | apply Dev.beaconRequest_canon | apply Dev.verifyJoin_canon | apply Dev.strangerCmd_canon
    | (simp -proj only [canon_fst_mk, canon_snd_mk])
    | (simp -proj only [Dev.canon_mk, Tables.wf_mk, Radio.wf_mk, Vault.wf_mk]; refine ⟨?_, ?_, ?_, ?_, ?_⟩)
    | refine Dev.canon_regs ?_ | refine Dev.canon_cfg ?_ | refine Dev.canon_mem ?_ | refine Dev.canon_vault ?_
    | refine Dev.canon_rings ?_ | exact Dev.reset_rings | refine Vault.cut_wf ?_ | refine Vault.loaded_wf ?_
    | refine Dev.canon_of_fst (by assumption) ?_ | refine Dev.canon_of_snd (by assumption) ?_ | split

@[simp] theorem Dev.uplinkFrame_canon (d : Dev) (f : RxFrame) (h_d : Dev.Canon d) :
    Dev.Canon (Dev.uplinkFrame d f) := by
  unfold Dev.uplinkFrame
  try dsimp -proj only
  with_reducible repeat' first
    | assumption | apply Dev.ackReceived_canon | apply Dev.beaconRequest_canon | apply Dev.evt_canon
    | apply Dev.sourceOf_canon | apply Dev.fromUnknown_canon | apply Dev.fromKnown_canon | split

/-! ### Backhaul -/

@[simp] theorem Dev.ptpUnlock_canon (d : Dev) (h_d : Dev.Canon d) :
    Dev.Canon (Dev.ptpUnlock d) := by
  unfold Dev.ptpUnlock
  try dsimp -proj only
  with_reducible repeat' first
    | assumption | intro _ | refine Dev.foldl_canon _ _ _ ?_ ?_ | refine Dev.foldl_canon_fst _ _ _ ?_ ?_
    | apply Dev.put_canon | apply Dev.raise_canon | (simp -proj only [canon_fst_mk, canon_snd_mk])
    | (simp -proj only [Dev.canon_mk, Tables.wf_mk, Radio.wf_mk, Vault.wf_mk]; refine ⟨?_, ?_, ?_, ?_, ?_⟩)
    | refine Dev.canon_regs ?_ | refine Dev.canon_cfg ?_ | refine Dev.canon_mem ?_ | refine Dev.canon_vault ?_
    | refine Dev.canon_rings ?_ | exact Dev.reset_rings | split

@[simp] theorem Dev.linkSet_canon (d : Dev) (n : Nat) (up fec : Bool) (h_d : Dev.Canon d) :
    Dev.Canon (Dev.linkSet d n up fec) := by
  unfold Dev.linkSet
  try dsimp -proj only
  with_reducible repeat' first
    | assumption | intro _ | refine Dev.foldl_canon _ _ _ ?_ ?_ | refine Dev.foldl_canon_fst _ _ _ ?_ ?_
    | apply Dev.put_canon | apply Dev.raise_canon | apply Dev.ptpUnlock_canon
    | (simp -proj only [canon_fst_mk, canon_snd_mk])
    | (simp -proj only [Dev.canon_mk, Tables.wf_mk, Radio.wf_mk, Vault.wf_mk]; refine ⟨?_, ?_, ?_, ?_, ?_⟩)
    | refine Dev.canon_regs ?_ | refine Dev.canon_cfg ?_ | refine Dev.canon_mem ?_ | refine Dev.canon_vault ?_
    | refine Dev.canon_rings ?_ | exact Dev.reset_rings | split

@[simp] theorem Dev.vsfpUpdate_canon (d : Dev) (n : Nat) (h_d : Dev.Canon d) :
    Dev.Canon (Dev.vsfpUpdate d n) := by
  unfold Dev.vsfpUpdate
  simp [*]

@[simp] theorem Dev.egressSend_canon (d : Dev) (n e : Nat) (x : EgrFrame) (h_d : Dev.Canon d) :
    Dev.Canon (Dev.egressSend d n e x) := by
  unfold Dev.egressSend
  try dsimp -proj only
  with_reducible repeat' first
    | assumption | intro _ | refine Dev.foldl_canon _ _ _ ?_ ?_ | refine Dev.foldl_canon_fst _ _ _ ?_ ?_
    | apply Dev.frameOut_canon | apply Dev.bump_canon | apply Dev.sessionUpd_canon | apply Dev.draw_canon | split

@[simp] theorem Dev.egressService_canon (d : Dev) (n : Nat) (h_d : Dev.Canon d) :
    Dev.Canon (Dev.egressService d n) := by
  unfold Dev.egressService
  try dsimp -proj only
  with_reducible repeat' first
    | assumption | apply Dev.egrTake_canon | apply Dev.egressSend_canon | split

@[simp] theorem Dev.cmdModuleRead_canon (bytes : List Byte) (d : Dev) (src : Src) (e : Entry) (h_d : Dev.Canon d) :
    Dev.Canon (Dev.cmdModuleRead bytes d src e) := by
  unfold Dev.cmdModuleRead
  simp [*]

@[simp] theorem Dev.ptpChoose_canon (d : Dev) (h_d : Dev.Canon d) :
    Dev.Canon (Dev.ptpChoose d) := by
  unfold Dev.ptpChoose
  try dsimp -proj only
  with_reducible repeat' first
    | assumption | intro _ | refine Dev.foldl_canon _ _ _ ?_ ?_ | refine Dev.foldl_canon_fst _ _ _ ?_ ?_
    | apply Dev.putPair_canon | apply Dev.put_canon | (simp -proj only [canon_fst_mk, canon_snd_mk])
    | (simp -proj only [Dev.canon_mk, Tables.wf_mk, Radio.wf_mk, Vault.wf_mk]; refine ⟨?_, ?_, ?_, ?_, ?_⟩)
    | refine Dev.canon_regs ?_ | refine Dev.canon_cfg ?_ | refine Dev.canon_mem ?_ | refine Dev.canon_vault ?_
    | refine Dev.canon_rings ?_ | exact Dev.reset_rings | split

@[simp] theorem Dev.ptpExchange_canon (d : Dev) (off : Int) (h_d : Dev.Canon d) :
    Dev.Canon (Dev.ptpExchange d off) := by
  unfold Dev.ptpExchange
  try dsimp -proj only
  with_reducible repeat' first
    | assumption | intro _ | refine Dev.foldl_canon _ _ _ ?_ ?_ | refine Dev.foldl_canon_fst _ _ _ ?_ ?_
    | apply Dev.put_canon | apply Dev.bump_canon | apply Dev.raise_canon | apply Dev.dueMoved_canon
    | (simp -proj only [canon_fst_mk, canon_snd_mk])
    | (simp -proj only [Dev.canon_mk, Tables.wf_mk, Radio.wf_mk, Vault.wf_mk]; refine ⟨?_, ?_, ?_, ?_, ?_⟩)
    | refine Dev.canon_regs ?_ | refine Dev.canon_cfg ?_ | refine Dev.canon_mem ?_ | refine Dev.canon_vault ?_
    | refine Dev.canon_rings ?_ | exact Dev.reset_rings | split

@[simp] theorem Dev.pcieReset_canon (d : Dev) (h_d : Dev.Canon d) :
    Dev.Canon (Dev.pcieReset d) := by
  unfold Dev.pcieReset
  try dsimp -proj only
  with_reducible repeat' first
    | assumption | intro _ | refine Dev.foldl_canon _ _ _ ?_ ?_ | refine Dev.foldl_canon_fst _ _ _ ?_ ?_
    | apply Dev.put_canon | apply Dev.setRing_canon | apply Dev.retire_canon | apply Dev.rxRingOff_canon
    | apply Dev.wr_canon | (simp -proj only [canon_fst_mk, canon_snd_mk])
    | (simp -proj only [Dev.canon_mk, Tables.wf_mk, Radio.wf_mk, Vault.wf_mk]; refine ⟨?_, ?_, ?_, ?_, ?_⟩)
    | refine Dev.canon_regs ?_ | refine Dev.canon_cfg ?_ | refine Dev.canon_mem ?_ | refine Dev.canon_vault ?_
    | refine Dev.canon_rings ?_ | exact Dev.reset_rings | split

@[simp] theorem Dev.ptpDelay_canon (d : Dev) (p : Nat) (x : PtpExchange) (h_d : Dev.Canon d) :
    Dev.Canon (Dev.ptpDelay d p x) := by
  unfold Dev.ptpDelay
  try dsimp -proj only
  with_reducible repeat' first
    | assumption | intro _ | refine Dev.foldl_canon _ _ _ ?_ ?_ | refine Dev.foldl_canon_fst _ _ _ ?_ ?_
    | apply Dev.frameOut_canon | apply Dev.hear_canon | apply Dev.ptpExchange_canon | split

@[simp] theorem Dev.linkLost_canon (d : Dev) (h_d : Dev.Canon d) :
    Dev.Canon (Dev.linkLost d) := by
  unfold Dev.linkLost
  simp [*]

/-! ### Calibration -/

@[simp] theorem Dev.spareIdle_canon (d : Dev) (g : Nat) (h_d : Dev.Canon d) :
    Dev.Canon (Dev.spareIdle d g) := by
  unfold Dev.spareIdle
  try dsimp -proj only
  with_reducible repeat' first
    | assumption | apply Dev.setChainState_canon | apply Dev.setRxLock_canon | apply Dev.setTxLock_canon | split

@[simp] theorem Dev.chainRest_canon (d : Dev) (g c : Nat) (h_d : Dev.Canon d) :
    Dev.Canon (Dev.chainRest d g c) := by
  unfold Dev.chainRest
  simp [*]

@[simp] theorem Dev.calReqDone_canon (d : Dev) (g c : Nat) (ok : Bool) (h_d : Dev.Canon d) :
    Dev.Canon (Dev.calReqDone d g c ok) := by
  unfold Dev.calReqDone
  try dsimp -proj only
  with_reducible repeat' first
    | assumption | apply Dev.setCalg_canon | apply Dev.raise_canon | apply Dev.finish_canon | split

@[simp] theorem Dev.takeTrims_canon (d : Dev) (g : Nat) (h_d : Dev.Canon d) :
    Dev.Canon (Dev.takeTrims d g) := by
  unfold Dev.takeTrims
  simp [*]

@[simp] theorem Dev.calEnded_canon (d : Dev) (g : Nat) (h_d : Dev.Canon d) :
    Dev.Canon (Dev.calEnded d g) := by
  unfold Dev.calEnded
  try dsimp -proj only
  with_reducible repeat' first
    | assumption | apply Dev.setCalg_canon | apply Dev.raise_canon | apply Dev.calNone_canon | split

@[simp] theorem Dev.swap_canon (d : Dev) (g s gap : Nat) (h_d : Dev.Canon d) :
    Dev.Canon (Dev.swap d g s gap) := by
  unfold Dev.swap
  try dsimp -proj only
  with_reducible repeat' first
    | assumption | intro _ | refine Dev.foldl_canon _ _ _ ?_ ?_ | refine Dev.foldl_canon_fst _ _ _ ?_ ?_
    | apply Dev.bump_canon | apply Dev.peak_canon | apply Dev.evt_canon
    | (simp -proj only [canon_fst_mk, canon_snd_mk])
    | (simp -proj only [Dev.canon_mk, Tables.wf_mk, Radio.wf_mk, Vault.wf_mk]; refine ⟨?_, ?_, ?_, ?_, ?_⟩)
    | refine Dev.canon_regs ?_ | refine Dev.canon_cfg ?_ | refine Dev.canon_mem ?_ | refine Dev.canon_vault ?_
    | refine Dev.canon_rings ?_ | exact Dev.reset_rings | split

@[simp] theorem Dev.slotFollows_canon (d : Dev) (p : Nat) (h_d : Dev.Canon d) :
    Dev.Canon (Dev.slotFollows d p) := by
  unfold Dev.slotFollows
  try dsimp -proj only
  with_reducible repeat' first
    | assumption | apply Dev.slotTune_canon | split

@[simp] theorem Dev.swapBack_canon (d : Dev) (g s gap : Nat) (h_d : Dev.Canon d) :
    Dev.Canon (Dev.swapBack d g s gap) := by
  unfold Dev.swapBack
  try dsimp -proj only
  with_reducible repeat' first
    | assumption | apply Dev.takeTrims_canon | apply Dev.swap_canon | apply Dev.put_canon | apply Dev.setCalg_canon
    | apply Dev.setCalState_canon | apply Dev.raise_canon | apply Dev.chainRest_canon | apply Dev.spareIdle_canon
    | apply Dev.slotFollows_canon | split

@[simp] theorem Dev.calGivenUp_canon (d : Dev) (g : Nat) (h_d : Dev.Canon d) :
    Dev.Canon (Dev.calGivenUp d g) := by
  unfold Dev.calGivenUp
  simp [*]

@[simp] theorem Dev.calAbandon_canon (d : Dev) (g : Nat) (h_d : Dev.Canon d) :
    Dev.Canon (Dev.calAbandon d g) := by
  unfold Dev.calAbandon
  try dsimp -proj only
  with_reducible repeat' first
    | assumption | apply Dev.calGivenUp_canon | apply Dev.calEnded_canon | apply Dev.swapBack_canon
    | apply Dev.setCalState_canon | apply Dev.spareIdle_canon | apply Dev.chainRest_canon | split

@[simp] theorem Dev.calPortOut_canon (d : Dev) (g s : Nat) (h_d : Dev.Canon d) :
    Dev.Canon (Dev.calPortOut d g s) := by
  unfold Dev.calPortOut
  try dsimp -proj only
  with_reducible repeat' first
    | assumption | apply Dev.calGivenUp_canon | apply Dev.put_canon | apply Dev.setCalg_canon
    | apply Dev.setCalState_canon | apply Dev.raise_canon | apply Dev.calEnded_canon | apply Dev.setChainState_canon
    | apply Dev.spareIdle_canon | split

@[simp] theorem Dev.calConditions_canon (d : Dev) (h_d : Dev.Canon d) :
    Dev.Canon (Dev.calConditions d) := by
  unfold Dev.calConditions
  try dsimp -proj only
  with_reducible repeat' first
    | assumption | intro _ | refine Dev.foldl_canon _ _ _ ?_ ?_ | refine Dev.foldl_canon_fst _ _ _ ?_ ?_
    | apply Dev.setCalg_canon | apply Dev.spareIdle_canon | apply Dev.calAbandon_canon | split

@[simp] theorem Dev.calStart_canon (d : Dev) (g c : Nat) (own : Bool) (h_d : Dev.Canon d) :
    Dev.Canon (Dev.calStart d g c own) := by
  unfold Dev.calStart
  try dsimp -proj only
  with_reducible repeat' first
    | assumption | apply Dev.setCalg_canon | apply Dev.setCalState_canon | apply Dev.put_canon
    | apply Dev.calEnded_canon | apply Dev.setChainState_canon | apply Dev.calOutcome_canon
    | apply Dev.calReqDone_canon | apply Dev.tune_canon | apply Dev.setTxLock_canon | split

@[simp] theorem Dev.calFail_canon (d : Dev) (g c item : Nat) (h_d : Dev.Canon d) :
    Dev.Canon (Dev.calFail d g c item) := by
  unfold Dev.calFail
  try dsimp -proj only
  with_reducible repeat' first
    | assumption | apply Dev.calOutcome_canon | apply Dev.put_canon | apply Dev.setCalState_canon
    | apply Dev.raise_canon | apply Dev.spareIdle_canon | apply Dev.chainRest_canon | apply Dev.calReqDone_canon
    | apply Dev.calEnded_canon | split

@[simp] theorem Dev.stageTrims_canon (d : Dev) (g ch step item code : Nat) (trims : List Trim) (h_d : Dev.Canon d) :
    Dev.Canon (Dev.stageTrims d g ch step item code trims) := by
  unfold Dev.stageTrims
  try dsimp -proj only
  with_reducible repeat' first
    | assumption | apply Dev.setCalg_canon | split

@[simp] theorem Dev.stepLoad_canon (d : Dev) (g item : Nat) (trims : List Trim) (h_d : Dev.Canon d) :
    Dev.Canon (Dev.stepLoad d g item trims).2 := by
  unfold Dev.stepLoad
  simp [*]

@[simp] theorem Dev.setStepLoad_canon (d : Dev) (g w : Nat) (h_d : Dev.Canon d) :
    Dev.Canon (Dev.setStepLoad d g w) := by
  unfold Dev.setStepLoad
  try dsimp -proj only
  with_reducible repeat' first
    | assumption | intro _ | refine Dev.foldl_canon _ _ _ ?_ ?_ | refine Dev.foldl_canon_fst _ _ _ ?_ ?_
    | apply Dev.setCalg_canon | apply Dev.peak_canon | (simp -proj only [canon_fst_mk, canon_snd_mk])
    | (simp -proj only [Dev.canon_mk, Tables.wf_mk, Radio.wf_mk, Vault.wf_mk]; refine ⟨?_, ?_, ?_, ?_, ?_⟩)
    | refine Dev.canon_regs ?_ | refine Dev.canon_cfg ?_ | refine Dev.canon_mem ?_ | refine Dev.canon_vault ?_
    | refine Dev.canon_rings ?_ | exact Dev.reset_rings | split

@[simp] theorem Dev.calStep_canon (d : Dev) (g : Nat) (ok : Bool) (temp : Int) (code : Nat) (trims : List Trim) (h_d : Dev.Canon d) :
    Dev.Canon (Dev.calStep d g ok temp code trims) := by
  unfold Dev.calStep
  try dsimp -proj only
  with_reducible repeat' first
    | assumption | apply Dev.setCalg_canon | apply Dev.stepLoad_canon | apply Dev.setStepLoad_canon
    | apply Dev.load_canon | apply Dev.recheckBudget_canon | apply Dev.bgDo_canon | apply Dev.calFail_canon
    | apply Dev.stageTrims_canon | apply Dev.put_canon | apply Dev.setCalState_canon | split

@[simp] theorem Dev.calCommit_canon (d : Dev) (g c : Nat) (h_d : Dev.Canon d) :
    Dev.Canon (Dev.calCommit d g c) := by
  unfold Dev.calCommit
  try dsimp -proj only
  with_reducible repeat' first
    | assumption | intro _ | refine Dev.foldl_canon _ _ _ ?_ ?_ | refine Dev.foldl_canon_fst _ _ _ ?_ ?_
    | apply Dev.setCalg_canon | apply Dev.wr_canon | apply Dev.put_canon | split

@[simp] theorem Dev.calPassed_canon (d : Dev) (g : Nat) (h_d : Dev.Canon d) :
    Dev.Canon (Dev.calPassed d g) := by
  unfold Dev.calPassed
  try dsimp -proj only
  with_reducible repeat' first
    | assumption | apply Dev.calCommit_canon | apply Dev.calOutcome_canon | apply Dev.put_canon
    | apply Dev.setCalg_canon | apply Dev.takeTrims_canon | split

@[simp] theorem Dev.calTempo_canon (d : Dev) (g : Nat) (h_d : Dev.Canon d) :
    Dev.Canon (Dev.calTempo d g) := by
  unfold Dev.calTempo
  simp [*]

@[simp] theorem Dev.calBoundary_canon (d : Dev) (h_d : Dev.Canon d) :
    Dev.Canon (Dev.calBoundary d) := by
  unfold Dev.calBoundary
  try dsimp -proj only
  with_reducible repeat' first
    | assumption | intro _ | refine Dev.foldl_canon _ _ _ ?_ ?_ | refine Dev.foldl_canon_fst _ _ _ ?_ ?_
    | apply Dev.calTempo_canon | apply Dev.load_canon | apply Dev.recheckBudget_canon | split

@[simp] theorem Dev.calReturn_canon (d : Dev) (g : Nat) (h_d : Dev.Canon d) :
    Dev.Canon (Dev.calReturn d g) := by
  unfold Dev.calReturn
  try dsimp -proj only
  with_reducible repeat' first
    | assumption | apply Dev.setCalState_canon | apply Dev.returnTune_canon | apply Dev.setCalg_canon
    | apply Dev.calReqDone_canon | apply Dev.put_canon | apply Dev.spareIdle_canon | apply Dev.chainRest_canon
    | apply Dev.calEnded_canon | split

@[simp] theorem Dev.cmdCalRequest_canon (d : Dev) (src : Src) (e : Entry) (h_d : Dev.Canon d) :
    Dev.Canon (Dev.cmdCalRequest d src e) := by
  unfold Dev.cmdCalRequest
  simp [*]

end Sys2Proof.Machine
end

