-- ==== Sys2Proof/Laws/Canon6.lean ====
section
/-! SUPPORT. Every operation of Machine/Background, Image, Resign, Power, Lanes, Startup keeps the canonical form: one lemma for each, for callers to cite. -/

set_option linter.unusedSimpArgs false
set_option linter.unusedVariables false

namespace Sys2Proof.Machine

/-! ### Background -/

@[simp] theorem Dev.jobCount_canon (d : Dev) (rank : Nat) (pawnShort : Bool) (h_d : Dev.Canon d) :
    Dev.Canon (Dev.jobCount d rank pawnShort).1 := by
  unfold Dev.jobCount
  try dsimp -proj only
  with_reducible repeat' first
    | assumption | apply Dev.put_canon | apply Dev.bump_canon | apply Dev.evt_canon | split

@[simp] theorem Dev.bgAssign_canon (d : Dev) (h_d : Dev.Canon d) :
    Dev.Canon (Dev.bgAssign d) := by
  unfold Dev.bgAssign
  simp [*]

@[simp] theorem Dev.bgBoundary_canon (d : Dev) (overrun pawnShort : Bool) (h_d : Dev.Canon d) :
    Dev.Canon (Dev.bgBoundary d overrun pawnShort) := by
  unfold Dev.bgBoundary
  try dsimp -proj only
  with_reducible repeat' first
    | assumption | intro _ | refine Dev.foldl_canon _ _ _ ?_ ?_ | refine Dev.foldl_canon_fst _ _ _ ?_ ?_
    | apply Dev.jobCount_canon | apply Dev.put_canon | apply Dev.bgAssign_canon
    | (simp -proj only [canon_fst_mk, canon_snd_mk])
    | (simp -proj only [Dev.canon_mk, Tables.wf_mk, Radio.wf_mk, Vault.wf_mk]; refine ⟨?_, ?_, ?_, ?_, ?_⟩)
    | refine Dev.canon_regs ?_ | refine Dev.canon_cfg ?_ | refine Dev.canon_mem ?_ | refine Dev.canon_vault ?_
    | refine Dev.canon_rings ?_ | exact Dev.reset_rings | split

/-! ### Image -/

@[simp] theorem Dev.setFwSlot_canon (d : Dev) (n : Nat) (x : FwSlot) (h_d : Dev.Canon d) :
    Dev.Canon (Dev.setFwSlot d n x) := by
  unfold Dev.setFwSlot
  simp [*]

@[simp] theorem Dev.updLast_canon (d : Dev) (action code slot : Nat) (h_d : Dev.Canon d) :
    Dev.Canon (Dev.updLast d action code slot) := by
  unfold Dev.updLast
  try dsimp -proj only
  with_reducible repeat' first
    | assumption | apply Dev.put_canon | split

@[simp] theorem Dev.updRefused_canon (d : Dev) (h_d : Dev.Canon d) :
    Dev.Canon (Dev.updRefused d) := by
  unfold Dev.updRefused
  simp [*]

@[simp] theorem Dev.lanesLoaded_canon (d : Dev) (n : Nat) (h_d : Dev.Canon d) :
    Dev.Canon (Dev.lanesLoaded d n) := by
  unfold Dev.lanesLoaded
  simp [*]

@[simp] theorem Dev.lanesStart_canon (d : Dev) (l : List Nat) (n : Nat) (h_d : Dev.Canon d) :
    Dev.Canon (Dev.lanesStart d l n) := by
  unfold Dev.lanesStart
  simp [*]

@[simp] theorem Dev.runImage_canon (d : Dev) (n : Nat) (h_d : Dev.Canon d) :
    Dev.Canon (Dev.runImage d n) := by
  unfold Dev.runImage
  simp [*]

@[simp] theorem Dev.copyImage_canon (d : Dev) (e0 : Nat) (h_d : Dev.Canon d) :
    Dev.Canon (Dev.copyImage d e0).1 := by
  induction e0 generalizing d h_d with
  | zero =>
    unfold Dev.copyImage
    try dsimp -proj only
    with_reducible repeat' first
      | assumption | (simp -proj only [canon_fst_mk]) | apply Dev.lanesLoaded_canon | apply Dev.runImage_canon | apply Dev.updRefused_canon | apply Dev.setFwSlot_canon | apply Dev.updLast_canon | split
  | succ n ih =>
    unfold Dev.copyImage
    try dsimp -proj only
    with_reducible repeat' first
      | assumption | (simp -proj only [canon_fst_mk]) | apply ih | apply Dev.lanesLoaded_canon | apply Dev.runImage_canon | apply Dev.updRefused_canon | apply Dev.setFwSlot_canon | apply Dev.updLast_canon | split

/-! ### Resign -/

@[simp] theorem Dev.cut_canon (d : Dev) (ph : Phase) (h_d : Dev.Canon d) :
    Dev.Canon (Dev.cut d ph) := by
  unfold Dev.cut
  try dsimp -proj only
  with_reducible repeat' first
    | assumption | intro _ | refine Dev.foldl_canon _ _ _ ?_ ?_ | refine Dev.foldl_canon_fst _ _ _ ?_ ?_
    | (simp -proj only [canon_fst_mk, canon_snd_mk])
    | (simp -proj only [Dev.canon_mk, Tables.wf_mk, Radio.wf_mk, Vault.wf_mk]; refine ⟨?_, ?_, ?_, ?_, ?_⟩)
    | refine Dev.canon_regs ?_ | refine Dev.canon_cfg ?_ | refine Dev.canon_mem ?_ | refine Dev.canon_vault ?_
    | refine Dev.canon_rings ?_ | exact Dev.reset_rings | with_reducible_and_instances refine SMap.wf_set _ _ ?_ _ _
    | exact SMap.wf_nil _ | exact Dev.reset_canon | exact Dev.reset_tab_canon | refine Vault.written_wf ?_
    | refine Vault.cut_wf ?_ | refine Dev.canon_of_fst (by assumption) ?_ | refine Dev.canon_of_snd (by assumption) ?_
    | split | dsimp -proj only | (simp -proj only [Dev.canon_ite, fst_ite, snd_ite])

@[simp] theorem Dev.aonFed_canon (d : Dev) (h_d : Dev.Canon d) :
    Dev.Canon (Dev.aonFed d) := by
  unfold Dev.aonFed
  simp [*]

@[simp] theorem Dev.resign_canon (d : Dev) (reason : Nat) (h_d : Dev.Canon d) :
    Dev.Canon (Dev.resign d reason) := by
  unfold Dev.resign
  simp [*]

@[simp] theorem Dev.abandonUp_canon (d : Dev) (ph : Phase) (h_d : Dev.Canon d) :
    Dev.Canon (Dev.abandonUp d ph) := by
  unfold Dev.abandonUp
  simp [*]

@[simp] theorem Dev.restartUp_canon (d : Dev) (h_d : Dev.Canon d) :
    Dev.Canon (Dev.restartUp d) := by
  unfold Dev.restartUp
  try dsimp -proj only
  with_reducible repeat' first
    | assumption | intro _ | refine Dev.foldl_canon _ _ _ ?_ ?_ | refine Dev.foldl_canon_fst _ _ _ ?_ ?_
    | apply Dev.abandonUp_canon | apply Dev.put_canon | (simp -proj only [canon_fst_mk, canon_snd_mk])
    | (simp -proj only [Dev.canon_mk, Tables.wf_mk, Radio.wf_mk, Vault.wf_mk]; refine ⟨?_, ?_, ?_, ?_, ?_⟩)
    | refine Dev.canon_regs ?_ | refine Dev.canon_cfg ?_ | refine Dev.canon_mem ?_ | refine Dev.canon_vault ?_
    | refine Dev.canon_rings ?_ | exact Dev.reset_rings | split

@[simp] theorem Dev.powerOff_canon (d : Dev) (h_d : Dev.Canon d) :
    Dev.Canon (Dev.powerOff d) := by
  unfold Dev.powerOff
  simp [*]

@[simp] theorem Dev.resetHold_canon (d : Dev) (h_d : Dev.Canon d) :
    Dev.Canon (Dev.resetHold d) := by
  unfold Dev.resetHold
  simp [*]

@[simp] theorem Dev.holdKept_canon (d : Dev) (good : Bool) (h_d : Dev.Canon d) :
    Dev.Canon (Dev.holdKept d good) := by
  unfold Dev.holdKept
  simp [*]

@[simp] theorem Dev.saveEnd_canon (d : Dev) (written : Nat) (flaws again : List (Nat × Byte)) (h_d : Dev.Canon d) :
    Dev.Canon (Dev.saveEnd d written flaws again) := by
  unfold Dev.saveEnd
  try dsimp -proj only
  with_reducible repeat' first
    | assumption | intro _ | refine Dev.foldl_canon _ _ _ ?_ ?_ | refine Dev.foldl_canon_fst _ _ _ ?_ ?_
    | (simp -proj only [canon_fst_mk, canon_snd_mk])
    | (simp -proj only [Dev.canon_mk, Tables.wf_mk, Radio.wf_mk, Vault.wf_mk]; refine ⟨?_, ?_, ?_, ?_, ?_⟩)
    | refine Dev.canon_regs ?_ | refine Dev.canon_cfg ?_ | refine Dev.canon_mem ?_ | refine Dev.canon_vault ?_
    | refine Dev.canon_rings ?_ | exact Dev.reset_rings | split

/-! ### Power -/

@[simp] theorem Dev.setPhase_canon (d : Dev) (p : Phase) (h_d : Dev.Canon d) :
    Dev.Canon (Dev.setPhase d p) := by
  unfold Dev.setPhase
  simp [*]

@[simp] theorem Dev.setTrans_canon (d : Dev) (t : Trans) (h_d : Dev.Canon d) :
    Dev.Canon (Dev.setTrans d t) := by
  unfold Dev.setTrans
  simp [*]

@[simp] theorem Dev.flagUp_canon (d : Dev) (f : Fld) (irq : Option Nat) (h_d : Dev.Canon d) :
    Dev.Canon (Dev.flagUp d f irq) := by
  unfold Dev.flagUp
  try dsimp -proj only
  with_reducible repeat' first
    | assumption | apply Dev.put_canon | apply Dev.raise_canon | split

@[simp] theorem Dev.flagDown_canon (d : Dev) (f : Fld) (h_d : Dev.Canon d) :
    Dev.Canon (Dev.flagDown d f) := by
  unfold Dev.flagDown
  simp [*]

@[simp] theorem Dev.serviceChains_canon (d : Dev) (state : Nat) (locked : Bool) (h_d : Dev.Canon d) :
    Dev.Canon (Dev.serviceChains d state locked) := by
  unfold Dev.serviceChains
  try dsimp -proj only
  with_reducible repeat' first
    | assumption | intro _ | refine Dev.foldl_canon _ _ _ ?_ ?_ | refine Dev.foldl_canon_fst _ _ _ ?_ ?_
    | apply Dev.setChainState_canon | apply Dev.setTxLock_canon | apply Dev.setRxLock_canon | split

@[simp] theorem Dev.idleSpares_canon (d : Dev) (h_d : Dev.Canon d) :
    Dev.Canon (Dev.idleSpares d) := by
  unfold Dev.idleSpares
  try dsimp -proj only
  with_reducible repeat' first
    | assumption | intro _ | refine Dev.foldl_canon _ _ _ ?_ ?_ | refine Dev.foldl_canon_fst _ _ _ ?_ ?_
    | apply Dev.spareIdle_canon | split

@[simp] theorem Dev.sleepChains_canon (d : Dev) (h_d : Dev.Canon d) :
    Dev.Canon (Dev.sleepChains d) := by
  unfold Dev.sleepChains
  try dsimp -proj only
  with_reducible repeat' first
    | assumption | intro _ | refine Dev.foldl_canon _ _ _ ?_ ?_ | refine Dev.foldl_canon_fst _ _ _ ?_ ?_
    | apply Dev.wr_canon | split

@[simp] theorem Dev.beginIdle_canon (d : Dev) (h_d : Dev.Canon d) :
    Dev.Canon (Dev.beginIdle d) := by
  unfold Dev.beginIdle
  try dsimp -proj only
  with_reducible repeat' first
    | assumption | intro _ | refine Dev.foldl_canon _ _ _ ?_ ?_ | refine Dev.foldl_canon_fst _ _ _ ?_ ?_
    | apply Dev.setTrans_canon | apply Dev.txFinish_canon | split

@[simp] theorem Dev.beginRun_canon (d : Dev) (h_d : Dev.Canon d) :
    Dev.Canon (Dev.beginRun d) := by
  unfold Dev.beginRun
  simp [*]

@[simp] theorem Dev.beginSleep_canon (d : Dev) (h_d : Dev.Canon d) :
    Dev.Canon (Dev.beginSleep d) := by
  unfold Dev.beginSleep
  simp [*]

@[simp] theorem Dev.targetAct_canon (d : Dev) (h_d : Dev.Canon d) :
    Dev.Canon (Dev.targetAct d) := by
  unfold Dev.targetAct
  try dsimp -proj only
  with_reducible repeat' first
    | assumption | apply Dev.setTrans_canon | apply Dev.beginIdle_canon | apply Dev.beginSleep_canon
    | apply Dev.beginRun_canon | split

@[simp] theorem Dev.enterIdle_canon (d : Dev) (h_d : Dev.Canon d) :
    Dev.Canon (Dev.enterIdle d) := by
  unfold Dev.enterIdle
  try dsimp -proj only
  with_reducible repeat' first
    | assumption | apply Dev.setPhase_canon | apply Dev.setTrans_canon | apply Dev.serviceChains_canon
    | apply Dev.releaseCtxs_canon | apply Dev.calConditions_canon | apply Dev.idleSpares_canon | split

@[simp] theorem Dev.enterSleep_canon (d : Dev) (h_d : Dev.Canon d) :
    Dev.Canon (Dev.enterSleep d) := by
  unfold Dev.enterSleep
  try dsimp -proj only
  with_reducible repeat' first
    | assumption | intro _ | refine Dev.foldl_canon _ _ _ ?_ ?_ | refine Dev.foldl_canon_fst _ _ _ ?_ ?_
    | apply Dev.beginIdle_canon | apply Dev.enterIdle_canon | apply Dev.setPhase_canon | apply Dev.setTrans_canon
    | apply Dev.linkSet_canon | apply Dev.sleepChains_canon | apply Dev.vsfpUpdate_canon | apply Dev.raise_canon
    | apply Dev.pcieReset_canon | apply Dev.put_canon | (simp -proj only [canon_fst_mk, canon_snd_mk])
    | (simp -proj only [Dev.canon_mk, Tables.wf_mk, Radio.wf_mk, Vault.wf_mk]; refine ⟨?_, ?_, ?_, ?_, ?_⟩)
    | refine Dev.canon_regs ?_ | refine Dev.canon_cfg ?_ | refine Dev.canon_mem ?_ | refine Dev.canon_vault ?_
    | refine Dev.canon_rings ?_ | exact Dev.reset_rings | split

@[simp] theorem Dev.aonTo_canon (d : Dev) (tick : Nat) (h_d : Dev.Canon d) :
    Dev.Canon (Dev.aonTo d tick) := by
  unfold Dev.aonTo
  simp [*]

@[simp] theorem Dev.wakeBy_canon (d : Dev) (b : Nat) (h_d : Dev.Canon d) :
    Dev.Canon (Dev.wakeBy d b) := by
  unfold Dev.wakeBy
  try dsimp -proj only
  with_reducible repeat' first
    | assumption | apply Dev.wr_canon | apply Dev.put_canon | apply Dev.setTrans_canon | split

@[simp] theorem Dev.sleepEdge_canon (d : Dev) (src : Nat) (rising : Bool) (tick : Nat) (h_d : Dev.Canon d) :
    Dev.Canon (Dev.sleepEdge d src rising tick) := by
  unfold Dev.sleepEdge
  try dsimp -proj only
  with_reducible repeat' first
    | assumption | apply Dev.aonTo_canon | apply Dev.evt_canon | apply Dev.captureSlow_canon | split

@[simp] theorem Dev.svcDiscard_canon (d : Dev) (h_d : Dev.Canon d) :
    Dev.Canon (Dev.svcDiscard d) := by
  unfold Dev.svcDiscard
  try dsimp -proj only
  with_reducible repeat' first
    | assumption | apply Dev.put_canon | apply Dev.bump_canon | apply Dev.raise_canon | split

@[simp] theorem Dev.makeUp_canon (d : Dev) (ticks : Nat) (h_d : Dev.Canon d) :
    Dev.Canon (Dev.makeUp d ticks) := by
  unfold Dev.makeUp
  try dsimp -proj only
  with_reducible repeat' first
    | assumption | intro _ | refine Dev.foldl_canon _ _ _ ?_ ?_ | refine Dev.foldl_canon_fst _ _ _ ?_ ?_
    | apply Dev.sleepMakeup_canon | apply Dev.dutyAge_canon | apply Dev.aonTo_canon | apply Dev.put_canon
    | (simp -proj only [canon_fst_mk, canon_snd_mk])
    | (simp -proj only [Dev.canon_mk, Tables.wf_mk, Radio.wf_mk, Vault.wf_mk]; refine ⟨?_, ?_, ?_, ?_, ?_⟩)
    | refine Dev.canon_regs ?_ | refine Dev.canon_cfg ?_ | refine Dev.canon_mem ?_ | refine Dev.canon_vault ?_
    | refine Dev.canon_rings ?_ | exact Dev.reset_rings | split

@[simp] theorem Dev.enterAwake_canon (d : Dev) (pllCycles : Nat) (h_d : Dev.Canon d) :
    Dev.Canon (Dev.enterAwake d pllCycles) := by
  unfold Dev.enterAwake
  try dsimp -proj only
  with_reducible repeat' first
    | assumption | apply Dev.setPhase_canon | apply Dev.setTrans_canon | apply Dev.put_canon
    | apply Dev.serviceChains_canon | apply Dev.idleSpares_canon | apply Dev.vsfpUpdate_canon
    | apply Dev.blankUpdate_canon | apply Dev.targetAct_canon | split

@[simp] theorem Dev.bankMeasured_canon (d : Dev) (usable volt : Nat) (h_d : Dev.Canon d) :
    Dev.Canon (Dev.bankMeasured d usable volt) := by
  unfold Dev.bankMeasured
  try dsimp -proj only
  with_reducible repeat' first
    | assumption | intro _ | refine Dev.foldl_canon _ _ _ ?_ ?_ | refine Dev.foldl_canon_fst _ _ _ ?_ ?_
    | apply Dev.put_canon | apply Dev.flagUp_canon | (simp -proj only [canon_fst_mk, canon_snd_mk])
    | (simp -proj only [Dev.canon_mk, Tables.wf_mk, Radio.wf_mk, Vault.wf_mk]; refine ⟨?_, ?_, ?_, ?_, ?_⟩)
    | refine Dev.canon_regs ?_ | refine Dev.canon_cfg ?_ | refine Dev.canon_mem ?_ | refine Dev.canon_vault ?_
    | refine Dev.canon_rings ?_ | exact Dev.reset_rings | split

@[simp] theorem Dev.bankFree_canon (d : Dev) (h_d : Dev.Canon d) :
    Dev.Canon (Dev.bankFree d) := by
  unfold Dev.bankFree
  simp [*]

@[simp] theorem Dev.thermWarn_canon (d : Dev) (h_d : Dev.Canon d) :
    Dev.Canon (Dev.thermWarn d) := by
  unfold Dev.thermWarn
  simp [*]

@[simp] theorem Dev.refWindow_canon (d : Dev) (ppb : Int) (h_d : Dev.Canon d) :
    Dev.Canon (Dev.refWindow d ppb) := by
  unfold Dev.refWindow
  try dsimp -proj only
  with_reducible repeat' first
    | assumption | intro _ | refine Dev.foldl_canon _ _ _ ?_ ?_ | refine Dev.foldl_canon_fst _ _ _ ?_ ?_
    | apply Dev.put_canon | apply Dev.bump_canon | apply Dev.raise_canon | apply Dev.recheckBudget_canon
    | (simp -proj only [canon_fst_mk, canon_snd_mk])
    | (simp -proj only [Dev.canon_mk, Tables.wf_mk, Radio.wf_mk, Vault.wf_mk]; refine ⟨?_, ?_, ?_, ?_, ?_⟩)
    | refine Dev.canon_regs ?_ | refine Dev.canon_cfg ?_ | refine Dev.canon_mem ?_ | refine Dev.canon_vault ?_
    | refine Dev.canon_rings ?_ | exact Dev.reset_rings | split

@[simp] theorem Dev.erased_canon (d : Dev) (h_d : Dev.Canon d) :
    Dev.Canon (Dev.erased d) := by
  unfold Dev.erased
  simp [*]

@[simp] theorem Dev.linkStop_canon (d : Dev) (loc : Nat) (h_d : Dev.Canon d) :
    Dev.Canon (Dev.linkStop d loc) := by
  unfold Dev.linkStop
  simp [*]

@[simp] theorem Dev.runtimeTest_canon (d : Dev) (fault loc : Nat) (h_d : Dev.Canon d) :
    Dev.Canon (Dev.runtimeTest d fault loc) := by
  unfold Dev.runtimeTest
  try dsimp -proj only
  with_reducible repeat' first
    | assumption | intro _ | refine Dev.foldl_canon _ _ _ ?_ ?_ | refine Dev.foldl_canon_fst _ _ _ ?_ ?_
    | apply Dev.bgDo_canon | apply Dev.put_canon | apply Dev.raise_canon | apply Dev.linkStop_canon
    | apply Dev.bump_canon | (simp -proj only [canon_fst_mk, canon_snd_mk])
    | (simp -proj only [Dev.canon_mk, Tables.wf_mk, Radio.wf_mk, Vault.wf_mk]; refine ⟨?_, ?_, ?_, ?_, ?_⟩)
    | refine Dev.canon_regs ?_ | refine Dev.canon_cfg ?_ | refine Dev.canon_mem ?_ | refine Dev.canon_vault ?_
    | refine Dev.canon_rings ?_ | exact Dev.reset_rings | split

/-! ### Lanes -/

@[simp] theorem Dev.setRole_canon (d : Dev) (i v : Nat) (h_d : Dev.Canon d) :
    Dev.Canon (Dev.setRole d i v) := by
  unfold Dev.setRole
  try dsimp -proj only
  with_reducible repeat' first
    | assumption | apply Dev.put_canon | split

@[simp] theorem Dev.startCopy_canon (d : Dev) (i : Nat) (h_d : Dev.Canon d) :
    Dev.Canon (Dev.startCopy d i) := by
  unfold Dev.startCopy
  simp [*]

@[simp] theorem Dev.admitLane_canon (d : Dev) (i : Nat) (h_d : Dev.Canon d) :
    Dev.Canon (Dev.admitLane d i) := by
  unfold Dev.admitLane
  simp [*]

@[simp] theorem Dev.autoAdmit_canon (d : Dev) (h_d : Dev.Canon d) :
    Dev.Canon (Dev.autoAdmit d) := by
  unfold Dev.autoAdmit
  try dsimp -proj only
  with_reducible repeat' first
    | assumption | apply Dev.admitLane_canon | split

@[simp] theorem Dev.dryStart_canon (d : Dev) (lane tempos : Nat) (h_d : Dev.Canon d) :
    Dev.Canon (Dev.dryStart d lane tempos) := by
  unfold Dev.dryStart
  try dsimp -proj only
  with_reducible repeat' first
    | assumption | intro _ | refine Dev.foldl_canon _ _ _ ?_ ?_ | refine Dev.foldl_canon_fst _ _ _ ?_ ?_
    | apply Dev.setRole_canon | apply Dev.startCopy_canon | apply Dev.put_canon
    | (simp -proj only [canon_fst_mk, canon_snd_mk])
    | (simp -proj only [Dev.canon_mk, Tables.wf_mk, Radio.wf_mk, Vault.wf_mk]; refine ⟨?_, ?_, ?_, ?_, ?_⟩)
    | refine Dev.canon_regs ?_ | refine Dev.canon_cfg ?_ | refine Dev.canon_mem ?_ | refine Dev.canon_vault ?_
    | refine Dev.canon_rings ?_ | exact Dev.reset_rings | split

@[simp] theorem Dev.dryOver_canon (d : Dev) (state : Nat) (h_d : Dev.Canon d) :
    Dev.Canon (Dev.dryOver d state) := by
  unfold Dev.dryOver
  try dsimp -proj only
  with_reducible repeat' first
    | assumption | intro _ | refine Dev.foldl_canon _ _ _ ?_ ?_ | refine Dev.foldl_canon_fst _ _ _ ?_ ?_
    | apply Dev.put_canon | (simp -proj only [canon_fst_mk, canon_snd_mk])
    | (simp -proj only [Dev.canon_mk, Tables.wf_mk, Radio.wf_mk, Vault.wf_mk]; refine ⟨?_, ?_, ?_, ?_, ?_⟩)
    | refine Dev.canon_regs ?_ | refine Dev.canon_cfg ?_ | refine Dev.canon_mem ?_ | refine Dev.canon_vault ?_
    | refine Dev.canon_rings ?_ | exact Dev.reset_rings | split

@[simp] theorem Dev.dryDrop_canon (d : Dev) (h_d : Dev.Canon d) :
    Dev.Canon (Dev.dryDrop d) := by
  unfold Dev.dryDrop
  try dsimp -proj only
  with_reducible repeat' first
    | assumption | intro _ | refine Dev.foldl_canon _ _ _ ?_ ?_ | refine Dev.foldl_canon_fst _ _ _ ?_ ?_
    | apply Dev.setRole_canon | apply Dev.dryOver_canon | apply Dev.raise_canon
    | (simp -proj only [canon_fst_mk, canon_snd_mk])
    | (simp -proj only [Dev.canon_mk, Tables.wf_mk, Radio.wf_mk, Vault.wf_mk]; refine ⟨?_, ?_, ?_, ?_, ?_⟩)
    | refine Dev.canon_regs ?_ | refine Dev.canon_cfg ?_ | refine Dev.canon_mem ?_ | refine Dev.canon_vault ?_
    | refine Dev.canon_rings ?_ | exact Dev.reset_rings | split

@[simp] theorem Dev.dropLane_canon (d : Dev) (i cause : Nat) (h_d : Dev.Canon d) :
    Dev.Canon (Dev.dropLane d i cause) := by
  unfold Dev.dropLane
  try dsimp -proj only
  with_reducible repeat' first
    | assumption | intro _ | refine Dev.foldl_canon _ _ _ ?_ ?_ | refine Dev.foldl_canon_fst _ _ _ ?_ ?_
    | apply Dev.bump_canon | apply Dev.put_canon | apply Dev.setRole_canon | apply Dev.evt_canon
    | apply Dev.raise_canon | (simp -proj only [canon_fst_mk, canon_snd_mk])
    | (simp -proj only [Dev.canon_mk, Tables.wf_mk, Radio.wf_mk, Vault.wf_mk]; refine ⟨?_, ?_, ?_, ?_, ?_⟩)
    | refine Dev.canon_regs ?_ | refine Dev.canon_cfg ?_ | refine Dev.canon_mem ?_ | refine Dev.canon_vault ?_
    | refine Dev.canon_rings ?_ | exact Dev.reset_rings | split

@[simp] theorem Dev.dropLanes_canon (d : Dev) (l : List Nat) (cause : Nat) (h_d : Dev.Canon d) :
    Dev.Canon (Dev.dropLanes d l cause) := by
  unfold Dev.dropLanes
  try dsimp -proj only
  with_reducible repeat' first
    | assumption | intro _ | refine Dev.foldl_canon _ _ _ ?_ ?_ | refine Dev.foldl_canon_fst _ _ _ ?_ ?_
    | apply Dev.dropLane_canon | apply Dev.raise_canon | apply Dev.put_canon | apply Dev.targetAct_canon
    | apply Dev.startCopy_canon | apply Dev.dryDrop_canon | apply Dev.autoAdmit_canon | split

@[simp] theorem Dev.disagreed_canon (d : Dev) (stage kind lanes : Nat) (h_d : Dev.Canon d) :
    Dev.Canon (Dev.disagreed d stage kind lanes) := by
  unfold Dev.disagreed
  try dsimp -proj only
  with_reducible repeat' first
    | assumption | apply Dev.bump_canon | apply Dev.put_canon | apply Dev.evt_canon | apply Dev.raise_canon | split

@[simp] theorem Dev.dryCompare_canon (d : Dev) (stage : Nat) (outs : List (Option Nat)) (passed : Option Nat) (h_d : Dev.Canon d) :
    Dev.Canon (Dev.dryCompare d stage outs passed) := by
  unfold Dev.dryCompare
  try dsimp -proj only
  with_reducible repeat' first
    | assumption | apply Dev.bump_canon | apply Dev.put_canon | split

@[simp] theorem Dev.stageOut_canon (d : Dev) (stage : Nat) (v : Option Nat) (h_d : Dev.Canon d) :
    Dev.Canon (Dev.stageOut d stage v) := by
  unfold Dev.stageOut
  try dsimp -proj only
  with_reducible repeat' first
    | assumption | intro _ | refine Dev.foldl_canon _ _ _ ?_ ?_ | refine Dev.foldl_canon_fst _ _ _ ?_ ?_
    | apply Dev.emit_canon | (simp -proj only [canon_fst_mk, canon_snd_mk])
    | (simp -proj only [Dev.canon_mk, Tables.wf_mk, Radio.wf_mk, Vault.wf_mk]; refine ⟨?_, ?_, ?_, ?_, ?_⟩)
    | refine Dev.canon_regs ?_ | refine Dev.canon_cfg ?_ | refine Dev.canon_mem ?_ | refine Dev.canon_vault ?_
    | refine Dev.canon_rings ?_ | exact Dev.reset_rings | split

@[simp] theorem Dev.vote_canon (d : Dev) (stage : Nat) (outs : List (Option Nat)) (half0 : Option (Fin 4)) (h_d : Dev.Canon d) :
    Dev.Canon (Dev.vote d stage outs half0) := by
  unfold Dev.vote
  try dsimp -proj only
  with_reducible repeat' first
    | assumption | apply Dev.dryCompare_canon | apply Dev.disagreed_canon | apply Dev.dropLanes_canon
    | apply Dev.stageOut_canon | split

@[simp] theorem Dev.voteAgreed_canon (d : Dev) (stage : Nat) (h_d : Dev.Canon d) :
    Dev.Canon (Dev.voteAgreed d stage) := by
  unfold Dev.voteAgreed
  simp [*]

@[simp] theorem Dev.marks_canon (d : Dev) (outs : List (Option (BitVec 36))) (ce : List Nat) (h_d : Dev.Canon d) :
    Dev.Canon (Dev.marks d outs ce) := by
  unfold Dev.marks
  try dsimp -proj only
  with_reducible repeat' first
    | assumption | intro _ | refine Dev.foldl_canon _ _ _ ?_ ?_ | refine Dev.foldl_canon_fst _ _ _ ?_ ?_
    | apply Dev.bump_canon | (simp -proj only [canon_fst_mk, canon_snd_mk])
    | (simp -proj only [Dev.canon_mk, Tables.wf_mk, Radio.wf_mk, Vault.wf_mk]; refine ⟨?_, ?_, ?_, ?_, ?_⟩)
    | refine Dev.canon_regs ?_ | refine Dev.canon_cfg ?_ | refine Dev.canon_mem ?_ | refine Dev.canon_vault ?_
    | refine Dev.canon_rings ?_ | exact Dev.reset_rings | split

@[simp] theorem Dev.mark_canon (d : Dev) (h_d : Dev.Canon d) :
    Dev.Canon (Dev.mark d) := by
  unfold Dev.mark
  try dsimp -proj only
  with_reducible repeat' first
    | assumption | intro _ | refine Dev.foldl_canon _ _ _ ?_ ?_ | refine Dev.foldl_canon_fst _ _ _ ?_ ?_
    | apply Dev.put_canon | apply Dev.peak_canon | apply Dev.promote_canon
    | (simp -proj only [canon_fst_mk, canon_snd_mk])
    | (simp -proj only [Dev.canon_mk, Tables.wf_mk, Radio.wf_mk, Vault.wf_mk]; refine ⟨?_, ?_, ?_, ?_, ?_⟩)
    | refine Dev.canon_regs ?_ | refine Dev.canon_cfg ?_ | refine Dev.canon_mem ?_ | refine Dev.canon_vault ?_
    | refine Dev.canon_rings ?_ | exact Dev.reset_rings | split

@[simp] theorem Dev.laneClaim_canon (d : Dev) (i : Nat) (h_d : Dev.Canon d) :
    Dev.Canon (Dev.laneClaim d i) := by
  unfold Dev.laneClaim
  simp [*]

@[simp] theorem Dev.laneClaims_canon (d : Dev) (h_d : Dev.Canon d) :
    Dev.Canon (Dev.laneClaims d) := by
  unfold Dev.laneClaims
  try dsimp -proj only
  with_reducible repeat' first
    | assumption | intro _ | refine Dev.foldl_canon _ _ _ ?_ ?_ | refine Dev.foldl_canon_fst _ _ _ ?_ ?_
    | apply Dev.laneClaim_canon | split

@[simp] theorem Dev.dryTick_canon (d : Dev) (h_d : Dev.Canon d) :
    Dev.Canon (Dev.dryTick d) := by
  unfold Dev.dryTick
  simp [*]

@[simp] theorem Dev.dryCut_canon (d : Dev) (h_d : Dev.Canon d) :
    Dev.Canon (Dev.dryCut d) := by
  unfold Dev.dryCut
  try dsimp -proj only
  with_reducible repeat' first
    | assumption | intro _ | refine Dev.foldl_canon _ _ _ ?_ ?_ | refine Dev.foldl_canon_fst _ _ _ ?_ ?_
    | apply Dev.setRole_canon | apply Dev.dryOver_canon | apply Dev.autoAdmit_canon
    | (simp -proj only [canon_fst_mk, canon_snd_mk])
    | (simp -proj only [Dev.canon_mk, Tables.wf_mk, Radio.wf_mk, Vault.wf_mk]; refine ⟨?_, ?_, ?_, ?_, ?_⟩)
    | refine Dev.canon_regs ?_ | refine Dev.canon_cfg ?_ | refine Dev.canon_mem ?_ | refine Dev.canon_vault ?_
    | refine Dev.canon_rings ?_ | exact Dev.reset_rings | split

@[simp] theorem Dev.lateMarks_canon (d : Dev) (late : Bool) (h_d : Dev.Canon d) :
    Dev.Canon (Dev.lateMarks d late) := by
  unfold Dev.lateMarks
  simp [*]

@[simp] theorem Dev.laneBoundary_canon (d : Dev) (h_d : Dev.Canon d) :
    Dev.Canon (Dev.laneBoundary d).1 := by
  unfold Dev.laneBoundary
  try dsimp -proj only
  with_reducible repeat' first
    | assumption | apply Dev.laneClaims_canon | apply Dev.dryTick_canon | apply Dev.dryCut_canon
    | apply Dev.lateMarks_canon | split

@[simp] theorem Dev.copied_canon (d : Dev) (i src : Nat) (h_d : Dev.Canon d) :
    Dev.Canon (Dev.copied d i src) := by
  unfold Dev.copied
  simp [*]

/-! ### Startup -/

@[simp] theorem Dev.powerUp_canon (d : Dev) (h_d : Dev.Canon d) :
    Dev.Canon (Dev.powerUp d) := by
  unfold Dev.powerUp
  try dsimp -proj only
  with_reducible repeat' first
    | assumption | intro _ | refine Dev.foldl_canon _ _ _ ?_ ?_ | refine Dev.foldl_canon_fst _ _ _ ?_ ?_
    | apply Dev.resetHold_canon | apply Dev.cut_canon | apply Dev.put_canon
    | (simp -proj only [canon_fst_mk, canon_snd_mk])
    | (simp -proj only [Dev.canon_mk, Tables.wf_mk, Radio.wf_mk, Vault.wf_mk]; refine ⟨?_, ?_, ?_, ?_, ?_⟩)
    | refine Dev.canon_regs ?_ | refine Dev.canon_cfg ?_ | refine Dev.canon_mem ?_ | refine Dev.canon_vault ?_
    | refine Dev.canon_rings ?_ | exact Dev.reset_rings | split

@[simp] theorem Dev.loadCounter_canon (d : Dev) (r : Option Rec) (k : KeySlot) (h_d : Dev.Canon d) :
    Dev.Canon (Dev.loadCounter d r k) := by
  unfold Dev.loadCounter
  try dsimp -proj only
  with_reducible repeat' first
    | assumption | apply Dev.setKeySlot_canon | apply Dev.reserveDone_canon | split

@[simp] theorem Dev.flawCopy_canon (d : Dev) (s : Nat) (second : Bool) (h_d : Dev.Canon d) :
    Dev.Canon (Dev.flawCopy d s second) := by
  unfold Dev.flawCopy
  simp [*]

@[simp] theorem Dev.loadSlot_canon (d : Dev) (s : Nat) (h_d : Dev.Canon d) :
    Dev.Canon (Dev.loadSlot d s) := by
  unfold Dev.loadSlot
  try dsimp -proj only
  with_reducible repeat' first
    | assumption | intro _ | refine Dev.foldl_canon _ _ _ ?_ ?_ | refine Dev.foldl_canon_fst _ _ _ ?_ ?_
    | apply Dev.setKeySlot_canon | (simp -proj only [canon_fst_mk, canon_snd_mk])
    | (simp -proj only [Dev.canon_mk, Tables.wf_mk, Radio.wf_mk, Vault.wf_mk]; refine ⟨?_, ?_, ?_, ?_, ?_⟩)
    | refine Dev.canon_regs ?_ | refine Dev.canon_cfg ?_ | refine Dev.canon_mem ?_ | refine Dev.canon_vault ?_
    | refine Dev.canon_rings ?_ | exact Dev.reset_rings | split

@[simp] theorem Dev.makeDeviceKey_canon (d : Dev) (h_d : Dev.Canon d) :
    Dev.Canon (Dev.makeDeviceKey d) := by
  unfold Dev.makeDeviceKey
  simp [*]

@[simp] theorem Dev.loadKeys_canon (d : Dev) (flaws : List (Fin 4096 × Bool)) (h_d : Dev.Canon d) :
    Dev.Canon (Dev.loadKeys d flaws) := by
  unfold Dev.loadKeys
  try dsimp -proj only
  with_reducible repeat' first
    | assumption | intro _ | refine Dev.foldl_canon _ _ _ ?_ ?_ | refine Dev.foldl_canon_fst _ _ _ ?_ ?_
    | apply Dev.flawCopy_canon | apply Dev.makeDeviceKey_canon | apply Dev.loadSlot_canon | split

@[simp] theorem Dev.load_canon (d : Dev) (flaws : List (Fin 4096 × Bool)) (h_d : Dev.Canon d) :
    Dev.Canon (Dev.load d flaws) := by
  unfold Dev.load
  try dsimp -proj only
  with_reducible repeat' first
    | assumption | intro _ | refine Dev.foldl_canon _ _ _ ?_ ?_ | refine Dev.foldl_canon_fst _ _ _ ?_ ?_
    | apply Dev.wr_canon | apply Dev.reloadDraft_canon | apply Dev.loadStaging_canon | apply Dev.put_canon
    | apply Dev.loadKeys_canon | apply Dev.loadCounter_canon | (simp -proj only [canon_fst_mk, canon_snd_mk])
    | (simp -proj only [Dev.canon_mk, Tables.wf_mk, Radio.wf_mk, Vault.wf_mk]; refine ⟨?_, ?_, ?_, ?_, ?_⟩)
    | refine Dev.canon_regs ?_ | refine Dev.canon_cfg ?_ | refine Dev.canon_mem ?_ | refine Dev.canon_vault ?_
    | refine Dev.canon_rings ?_ | exact Dev.reset_rings | refine Vault.cut_wf ?_ | refine Vault.loaded_wf ?_
    | refine Dev.canon_of_fst (by assumption) ?_ | refine Dev.canon_of_snd (by assumption) ?_ | split

@[simp] theorem Dev.toSafe_canon (d : Dev) (us : Nat) (h_d : Dev.Canon d) :
    Dev.Canon (Dev.toSafe d us) := by
  unfold Dev.toSafe
  try dsimp -proj only
  with_reducible repeat' first
    | assumption | intro _ | refine Dev.foldl_canon _ _ _ ?_ ?_ | refine Dev.foldl_canon_fst _ _ _ ?_ ?_
    | apply Dev.put_canon | apply Dev.wr_canon | (simp -proj only [canon_fst_mk, canon_snd_mk])
    | (simp -proj only [Dev.canon_mk, Tables.wf_mk, Radio.wf_mk, Vault.wf_mk]; refine ⟨?_, ?_, ?_, ?_, ?_⟩)
    | refine Dev.canon_regs ?_ | refine Dev.canon_cfg ?_ | refine Dev.canon_mem ?_ | refine Dev.canon_vault ?_
    | refine Dev.canon_rings ?_ | exact Dev.reset_rings | split

@[simp] theorem Dev.itemFailed_canon (d : Dev) (i code loc : Nat) (h_d : Dev.Canon d) :
    Dev.Canon (Dev.itemFailed d i code loc) := by
  unfold Dev.itemFailed
  try dsimp -proj only
  with_reducible repeat' first
    | assumption | apply Dev.put_canon | split

@[simp] theorem Dev.nextItem_canon (d : Dev) (i : Nat) (h_d : Dev.Canon d) :
    Dev.Canon (Dev.nextItem d i) := by
  unfold Dev.nextItem
  try dsimp -proj only
  with_reducible repeat' first
    | assumption | intro _ | refine Dev.foldl_canon _ _ _ ?_ ?_ | refine Dev.foldl_canon_fst _ _ _ ?_ ?_
    | apply Dev.selfSlice_canon | apply Dev.put_canon | apply Dev.setPhase_canon
    | (simp -proj only [canon_fst_mk, canon_snd_mk])
    | (simp -proj only [Dev.canon_mk, Tables.wf_mk, Radio.wf_mk, Vault.wf_mk]; refine ⟨?_, ?_, ?_, ?_, ?_⟩)
    | refine Dev.canon_regs ?_ | refine Dev.canon_cfg ?_ | refine Dev.canon_mem ?_ | refine Dev.canon_vault ?_
    | refine Dev.canon_rings ?_ | exact Dev.reset_rings | split

@[simp] theorem Dev.itemEnd_canon (d : Dev) (us : Nat) (h_d : Dev.Canon d) :
    Dev.Canon (Dev.itemEnd d us) := by
  unfold Dev.itemEnd
  try dsimp -proj only
  with_reducible repeat' first
    | assumption | intro _ | refine Dev.foldl_canon _ _ _ ?_ ?_ | refine Dev.foldl_canon_fst _ _ _ ?_ ?_
    | apply Dev.put_canon | apply Dev.nextItem_canon | apply Dev.itemFailed_canon | apply Dev.toSafe_canon
    | apply Dev.selfSlice_canon | (simp -proj only [canon_fst_mk, canon_snd_mk])
    | (simp -proj only [Dev.canon_mk, Tables.wf_mk, Radio.wf_mk, Vault.wf_mk]; refine ⟨?_, ?_, ?_, ?_, ?_⟩)
    | refine Dev.canon_regs ?_ | refine Dev.canon_cfg ?_ | refine Dev.canon_mem ?_ | refine Dev.canon_vault ?_
    | refine Dev.canon_rings ?_ | exact Dev.reset_rings | split

@[simp] theorem Dev.selfSlice_canon (d : Dev) (fault loc : Nat) (ext : Bool) (cages : BitVec 2) (us : Nat) (h_d : Dev.Canon d) :
    Dev.Canon (Dev.selfSlice d fault loc ext cages us) := by
  unfold Dev.selfSlice
  try dsimp -proj only
  with_reducible repeat' first
    | assumption | intro _ | refine Dev.foldl_canon _ _ _ ?_ ?_ | refine Dev.foldl_canon_fst _ _ _ ?_ ?_
    | apply Dev.bump_canon | apply Dev.itemEnd_canon | (simp -proj only [canon_fst_mk, canon_snd_mk])
    | (simp -proj only [Dev.canon_mk, Tables.wf_mk, Radio.wf_mk, Vault.wf_mk]; refine ⟨?_, ?_, ?_, ?_, ?_⟩)
    | refine Dev.canon_regs ?_ | refine Dev.canon_cfg ?_ | refine Dev.canon_mem ?_ | refine Dev.canon_vault ?_
    | refine Dev.canon_rings ?_ | exact Dev.reset_rings | split

@[simp] theorem Dev.startFail_canon (d : Dev) (k item : Nat) (h_d : Dev.Canon d) :
    Dev.Canon (Dev.startFail d k item) := by
  unfold Dev.startFail
  try dsimp -proj only
  with_reducible repeat' first
    | assumption | intro _ | refine Dev.foldl_canon _ _ _ ?_ ?_ | refine Dev.foldl_canon_fst _ _ _ ?_ ?_
    | apply Dev.calOutcome_canon | apply Dev.put_canon | apply Dev.setCalState_canon | apply Dev.wr_canon | split

@[simp] theorem Dev.startPass_canon (d : Dev) (k : Nat) (temp : Int) (trims : List Trim) (h_d : Dev.Canon d) :
    Dev.Canon (Dev.startPass d k temp trims) := by
  unfold Dev.startPass
  try dsimp -proj only
  with_reducible repeat' first
    | assumption | intro _ | refine Dev.foldl_canon _ _ _ ?_ ?_ | refine Dev.foldl_canon_fst _ _ _ ?_ ?_
    | apply Dev.calOutcome_canon | apply Dev.put_canon | apply Dev.setCalg_canon | apply Dev.calCommit_canon
    | apply Dev.wr_canon | split

@[simp] theorem Dev.startCalibrate_canon (d : Dev) (fails again : List (Fin 36 × Nat)) (temps : List Int) (trims : List (Fin 36 × Trim)) (h_d : Dev.Canon d) :
    Dev.Canon (Dev.startCalibrate d fails again temps trims) := by
  unfold Dev.startCalibrate
  try dsimp -proj only
  with_reducible repeat' first
    | assumption | intro _ | refine Dev.foldl_canon _ _ _ ?_ ?_ | refine Dev.foldl_canon_fst _ _ _ ?_ ?_
    | apply Dev.peak_canon | apply Dev.startFail_canon | apply Dev.startPass_canon
    | (simp -proj only [canon_fst_mk, canon_snd_mk])
    | (simp -proj only [Dev.canon_mk, Tables.wf_mk, Radio.wf_mk, Vault.wf_mk]; refine ⟨?_, ?_, ?_, ?_, ?_⟩)
    | refine Dev.canon_regs ?_ | refine Dev.canon_cfg ?_ | refine Dev.canon_mem ?_ | refine Dev.canon_vault ?_
    | refine Dev.canon_rings ?_ | exact Dev.reset_rings | split

@[simp] theorem Dev.restoreEvents_canon (d : Dev) (l : List (Nat × Nat)) (h_d : Dev.Canon d) :
    Dev.Canon (Dev.restoreEvents d l) := by
  unfold Dev.restoreEvents
  try dsimp -proj only
  with_reducible repeat' first
    | assumption | intro _ | refine Dev.foldl_canon _ _ _ ?_ ?_ | refine Dev.foldl_canon_fst _ _ _ ?_ ?_
    | apply Dev.put_canon | apply Dev.putPair_canon | split

@[simp] theorem Dev.useRecord_canon (d : Dev) (h_d : Dev.Canon d) :
    Dev.Canon (Dev.useRecord d) := by
  unfold Dev.useRecord
  try dsimp -proj only
  with_reducible repeat' first
    | assumption | intro _ | refine Dev.foldl_canon _ _ _ ?_ ?_ | refine Dev.foldl_canon_fst _ _ _ ?_ ?_
    | apply Dev.put_canon | apply Dev.putPair_canon | apply Dev.restoreEvents_canon | apply Dev.raise_canon
    | (simp -proj only [canon_fst_mk, canon_snd_mk])
    | (simp -proj only [Dev.canon_mk, Tables.wf_mk, Radio.wf_mk, Vault.wf_mk]; refine ⟨?_, ?_, ?_, ?_, ?_⟩)
    | refine Dev.canon_regs ?_ | refine Dev.canon_cfg ?_ | refine Dev.canon_mem ?_ | refine Dev.canon_vault ?_
    | refine Dev.canon_rings ?_ | exact Dev.reset_rings | split

@[simp] theorem Dev.releaseReports_canon (d : Dev) (h_d : Dev.Canon d) :
    Dev.Canon (Dev.releaseReports d) := by
  unfold Dev.releaseReports
  try dsimp -proj only
  with_reducible repeat' first
    | assumption | intro _ | refine Dev.foldl_canon _ _ _ ?_ ?_ | refine Dev.foldl_canon_fst _ _ _ ?_ ?_
    | apply Dev.raise_canon | apply Dev.updLast_canon | (simp -proj only [canon_fst_mk, canon_snd_mk])
    | (simp -proj only [Dev.canon_mk, Tables.wf_mk, Radio.wf_mk, Vault.wf_mk]; refine ⟨?_, ?_, ?_, ?_, ?_⟩)
    | refine Dev.canon_regs ?_ | refine Dev.canon_cfg ?_ | refine Dev.canon_mem ?_ | refine Dev.canon_vault ?_
    | refine Dev.canon_rings ?_ | exact Dev.reset_rings | split

@[simp] theorem Dev.movingNow_canon (d : Dev) (h_d : Dev.Canon d) :
    Dev.Canon (Dev.movingNow d) := by
  unfold Dev.movingNow
  simp [*]

@[simp] theorem Dev.releaseNow_canon (d : Dev) (pwrupT : Nat) (h_d : Dev.Canon d) :
    Dev.Canon (Dev.releaseNow d pwrupT) := by
  unfold Dev.releaseNow
  try dsimp -proj only
  with_reducible repeat' first
    | assumption | intro _ | refine Dev.foldl_canon _ _ _ ?_ ?_ | refine Dev.foldl_canon_fst _ _ _ ?_ ?_
    | apply Dev.put_canon | apply Dev.useRecord_canon | apply Dev.releaseReports_canon
    | apply Dev.serviceChains_canon | apply Dev.burstLevels_canon | apply Dev.pawnFull_canon
    | apply Dev.blankUpdate_canon | apply Dev.vsfpUpdate_canon | apply Dev.calConditions_canon
    | apply Dev.idleSpares_canon | apply Dev.movingNow_canon | apply Dev.bgAssign_canon
    | (simp -proj only [canon_fst_mk, canon_snd_mk])
    | (simp -proj only [Dev.canon_mk, Tables.wf_mk, Radio.wf_mk, Vault.wf_mk]; refine ⟨?_, ?_, ?_, ?_, ?_⟩)
    | refine Dev.canon_regs ?_ | refine Dev.canon_cfg ?_ | refine Dev.canon_mem ?_ | refine Dev.canon_vault ?_
    | refine Dev.canon_rings ?_ | exact Dev.reset_rings | split

@[simp] theorem Dev.laneStart_canon (d : Dev) (h_d : Dev.Canon d) :
    Dev.Canon (Dev.laneStart d) := by
  unfold Dev.laneStart
  try dsimp -proj only
  with_reducible repeat' first
    | assumption | intro _ | refine Dev.foldl_canon _ _ _ ?_ ?_ | refine Dev.foldl_canon_fst _ _ _ ?_ ?_
    | apply Dev.voteAgreed_canon | apply Dev.lanesStart_canon | split

end Sys2Proof.Machine
end

