-- ==== Sys2Proof/Laws/Canon7.lean ====
section
/-! SUPPORT. Every operation of Machine/Bus, Service, HostRings, Effects, RegCommands keeps the canonical form: one lemma for each, for callers to cite. -/

set_option linter.unusedSimpArgs false
set_option linter.unusedVariables false

namespace Sys2Proof.Machine

/-! ### Bus -/

@[simp] theorem Dev.putShown_canon (d : Dev) (k : Nat) (f : FieldDesc) (v : Nat) (h_d : Dev.Canon d) :
    Dev.Canon (Dev.putShown d k f v) := by
  unfold Dev.putShown
  simp [*]

@[simp] theorem Dev.restart_canon (d : Dev) (k : Nat) (f : FieldDesc) (h_d : Dev.Canon d) :
    Dev.Canon (Dev.restart d k f) := by
  unfold Dev.restart
  try dsimp -proj only
  with_reducible repeat' first
    | assumption | apply Dev.putShown_canon | split

@[simp] theorem Dev.restartAll_canon (d : Dev) (k : Nat) (r : RegDesc) (h_d : Dev.Canon d) :
    Dev.Canon (Dev.restartAll d k r) := by
  unfold Dev.restartAll
  try dsimp -proj only
  with_reducible repeat' first
    | assumption | intro _ | refine Dev.foldl_canon _ _ _ ?_ ?_ | refine Dev.foldl_canon_fst _ _ _ ?_ ?_
    | apply Dev.restart_canon | split

@[simp] theorem Dev.freezePage_canon (d : Dev) (p : Nat) (h_d : Dev.Canon d) :
    Dev.Canon (Dev.freezePage d p) := by
  unfold Dev.freezePage
  try dsimp -proj only
  with_reducible repeat' first
    | assumption | intro _ | refine Dev.foldl_canon _ _ _ ?_ ?_ | refine Dev.foldl_canon_fst _ _ _ ?_ ?_
    | apply Dev.restartAll_canon | (simp -proj only [canon_fst_mk, canon_snd_mk])
    | (simp -proj only [Dev.canon_mk, Tables.wf_mk, Radio.wf_mk, Vault.wf_mk]; refine ⟨?_, ?_, ?_, ?_, ?_⟩)
    | refine Dev.canon_regs ?_ | refine Dev.canon_cfg ?_ | refine Dev.canon_mem ?_ | refine Dev.canon_vault ?_
    | refine Dev.canon_rings ?_ | exact Dev.reset_rings | split

@[simp] theorem Dev.thawField_canon (d : Dev) (k v : Nat) (f : FieldDesc) (h_d : Dev.Canon d) :
    Dev.Canon (Dev.thawField d k v f) := by
  unfold Dev.thawField
  try dsimp -proj only
  with_reducible repeat' first
    | assumption | apply Dev.putShown_canon | split

@[simp] theorem Dev.thawPage_canon (d : Dev) (p : Nat) (h_d : Dev.Canon d) :
    Dev.Canon (Dev.thawPage d p) := by
  unfold Dev.thawPage
  try dsimp -proj only
  with_reducible repeat' first
    | assumption | intro _ | refine Dev.foldl_canon _ _ _ ?_ ?_ | refine Dev.foldl_canon_fst _ _ _ ?_ ?_
    | apply Dev.thawField_canon | (simp -proj only [canon_fst_mk, canon_snd_mk])
    | (simp -proj only [Dev.canon_mk, Tables.wf_mk, Radio.wf_mk, Vault.wf_mk]; refine ⟨?_, ?_, ?_, ?_, ?_⟩)
    | refine Dev.canon_regs ?_ | refine Dev.canon_cfg ?_ | refine Dev.canon_mem ?_ | refine Dev.canon_vault ?_
    | refine Dev.canon_rings ?_ | exact Dev.reset_rings | split

@[simp] theorem Dev.setFrozen_canon (d : Dev) (p k v : Nat) (h_d : Dev.Canon d) :
    Dev.Canon (Dev.setFrozen d p k v) := by
  unfold Dev.setFrozen
  simp [*]

@[simp] theorem Dev.readActs_canon (d : Dev) (a : Nat) (h_d : Dev.Canon d) :
    Dev.Canon (Dev.readActs d a) := by
  unfold Dev.readActs
  try dsimp -proj only
  with_reducible repeat' first
    | assumption | apply Dev.put_canon | apply Dev.setAdvance_canon | split

@[simp] theorem Dev.afterRead_canon (d : Dev) (a : Nat) (h_d : Dev.Canon d) :
    Dev.Canon (Dev.afterRead d a) := by
  unfold Dev.afterRead
  try dsimp -proj only
  with_reducible repeat' first
    | assumption | apply Dev.put_canon | apply Dev.setFrozen_canon | apply Dev.restartAll_canon | split

@[simp] theorem Dev.busRead_canon (d : Dev) (a : Nat) (h_d : Dev.Canon d) :
    Dev.Canon (Dev.busRead d a).1 := by
  unfold Dev.busRead
  simp [*]

/-! ### Service -/

@[simp] theorem Dev.selfReport_canon (d : Dev) (h_d : Dev.Canon d) :
    Dev.Canon (Dev.selfReport d).1 := by
  unfold Dev.selfReport
  simp [*]

@[simp] theorem Dev.svcAccept_canon (d : Dev) (type fseq crc : Nat) (payload : List Byte) (h_d : Dev.Canon d) :
    Dev.Canon (Dev.svcAccept d type fseq crc payload) := by
  unfold Dev.svcAccept
  try dsimp -proj only
  with_reducible repeat' first
    | assumption | intro _ | refine Dev.foldl_canon _ _ _ ?_ ?_ | refine Dev.foldl_canon_fst _ _ _ ?_ ?_
    | apply Dev.put_canon | apply Dev.bump_canon | apply Dev.raise_canon
    | (simp -proj only [canon_fst_mk, canon_snd_mk])
    | (simp -proj only [Dev.canon_mk, Tables.wf_mk, Radio.wf_mk, Vault.wf_mk]; refine ⟨?_, ?_, ?_, ?_, ?_⟩)
    | refine Dev.canon_regs ?_ | refine Dev.canon_cfg ?_ | refine Dev.canon_mem ?_ | refine Dev.canon_vault ?_
    | refine Dev.canon_rings ?_ | exact Dev.reset_rings | split

@[simp] theorem Dev.svcRepeat_canon (d : Dev) (h_d : Dev.Canon d) :
    Dev.Canon (Dev.svcRepeat d) := by
  unfold Dev.svcRepeat
  try dsimp -proj only
  with_reducible repeat' first
    | assumption | intro _ | refine Dev.foldl_canon _ _ _ ?_ ?_ | refine Dev.foldl_canon_fst _ _ _ ?_ ?_
    | apply Dev.put_canon | (simp -proj only [canon_fst_mk, canon_snd_mk])
    | (simp -proj only [Dev.canon_mk, Tables.wf_mk, Radio.wf_mk, Vault.wf_mk]; refine ⟨?_, ?_, ?_, ?_, ?_⟩)
    | refine Dev.canon_regs ?_ | refine Dev.canon_cfg ?_ | refine Dev.canon_mem ?_ | refine Dev.canon_vault ?_
    | refine Dev.canon_rings ?_ | exact Dev.reset_rings | split

@[simp] theorem Dev.svcAnswer_canon (d : Dev) (type n : Nat) (h_d : Dev.Canon d) :
    Dev.Canon (Dev.svcAnswer d type n) := by
  unfold Dev.svcAnswer
  simp [*]

@[simp] theorem Dev.svcRequest_canon (d : Dev) (b : List Byte) (h_d : Dev.Canon d) :
    Dev.Canon (Dev.svcRequest d b) := by
  unfold Dev.svcRequest
  try dsimp -proj only
  with_reducible repeat' first
    | assumption | apply Dev.put_canon | apply Dev.bump_canon | apply Dev.raise_canon | apply Dev.svcDiscard_canon
    | apply Dev.svcAccept_canon | apply Dev.svcAnswer_canon | split

@[simp] theorem Dev.svcResume_canon (d : Dev) (h_d : Dev.Canon d) :
    Dev.Canon (Dev.svcResume d) := by
  unfold Dev.svcResume
  try dsimp -proj only
  with_reducible repeat' first
    | assumption | apply Dev.svcAnswer_canon | split

@[simp] theorem Dev.svcRun_canon (d : Dev) (type : Nat) (f : Dev → List Byte → Dev) (h_d : Dev.Canon d) (h_f : ∀ x0 x1, Dev.Canon x0 → Dev.Canon (f x0 x1)) :
    Dev.Canon (Dev.svcRun d type f) := by
  unfold Dev.svcRun
  try dsimp -proj only
  with_reducible repeat' first
    | assumption | apply h_f | split

@[simp] theorem Dev.sessionEnd_canon (d : Dev) (h_d : Dev.Canon d) :
    Dev.Canon (Dev.sessionEnd d) := by
  unfold Dev.sessionEnd
  simp [*]

@[simp] theorem Dev.stageBegin_canon (d : Dev) (p : List Byte) (h_d : Dev.Canon d) :
    Dev.Canon (Dev.stageBegin d p) := by
  unfold Dev.stageBegin
  try dsimp -proj only
  with_reducible repeat' first
    | assumption | intro _ | refine Dev.foldl_canon _ _ _ ?_ ?_ | refine Dev.foldl_canon_fst _ _ _ ?_ ?_
    | apply Dev.promote_canon | apply Dev.updRefused_canon | apply Dev.svcRespond_canon | apply Dev.setFwSlot_canon
    | apply Dev.put_canon | (simp -proj only [canon_fst_mk, canon_snd_mk])
    | (simp -proj only [Dev.canon_mk, Tables.wf_mk, Radio.wf_mk, Vault.wf_mk]; refine ⟨?_, ?_, ?_, ?_, ?_⟩)
    | refine Dev.canon_regs ?_ | refine Dev.canon_cfg ?_ | refine Dev.canon_mem ?_ | refine Dev.canon_vault ?_
    | refine Dev.canon_rings ?_ | exact Dev.reset_rings | split

@[simp] theorem Dev.stageData_canon (d : Dev) (p : List Byte) (h_d : Dev.Canon d) :
    Dev.Canon (Dev.stageData d p) := by
  unfold Dev.stageData
  try dsimp -proj only
  with_reducible repeat' first
    | assumption | intro _ | refine Dev.foldl_canon _ _ _ ?_ ?_ | refine Dev.foldl_canon_fst _ _ _ ?_ ?_
    | apply Dev.updRefused_canon | apply Dev.svcRespond_canon | apply Dev.setFwSlot_canon | apply Dev.put_canon
    | (simp -proj only [canon_fst_mk, canon_snd_mk])
    | (simp -proj only [Dev.canon_mk, Tables.wf_mk, Radio.wf_mk, Vault.wf_mk]; refine ⟨?_, ?_, ?_, ?_, ?_⟩)
    | refine Dev.canon_regs ?_ | refine Dev.canon_cfg ?_ | refine Dev.canon_mem ?_ | refine Dev.canon_vault ?_
    | refine Dev.canon_rings ?_ | exact Dev.reset_rings | split

@[simp] theorem Dev.stageCommit_canon (d : Dev) (h_d : Dev.Canon d) :
    Dev.Canon (Dev.stageCommit d) := by
  unfold Dev.stageCommit
  try dsimp -proj only
  with_reducible repeat' first
    | assumption | intro _ | refine Dev.foldl_canon _ _ _ ?_ ?_ | refine Dev.foldl_canon_fst _ _ _ ?_ ?_
    | apply Dev.updRefused_canon | apply Dev.svcRespond_canon | apply Dev.setFwSlot_canon | apply Dev.sessionEnd_canon
    | apply Dev.updLast_canon | apply Dev.bump_canon | apply Dev.raise_canon
    | (simp -proj only [canon_fst_mk, canon_snd_mk])
    | (simp -proj only [Dev.canon_mk, Tables.wf_mk, Radio.wf_mk, Vault.wf_mk]; refine ⟨?_, ?_, ?_, ?_, ?_⟩)
    | refine Dev.canon_regs ?_ | refine Dev.canon_cfg ?_ | refine Dev.canon_mem ?_ | refine Dev.canon_vault ?_
    | refine Dev.canon_rings ?_ | exact Dev.reset_rings | split

@[simp] theorem Dev.stageAbort_canon (d : Dev) (h_d : Dev.Canon d) :
    Dev.Canon (Dev.stageAbort d) := by
  unfold Dev.stageAbort
  simp [*]

@[simp] theorem Dev.ownerInit_canon (d : Dev) (p : List Byte) (h_d : Dev.Canon d) :
    Dev.Canon (Dev.ownerInit d p) := by
  unfold Dev.ownerInit
  try dsimp -proj only
  with_reducible repeat' first
    | assumption | intro _ | refine Dev.foldl_canon _ _ _ ?_ ?_ | refine Dev.foldl_canon_fst _ _ _ ?_ ?_
    | apply Dev.svcRespond_canon | apply Dev.put_canon | apply Dev.raise_canon
    | (simp -proj only [canon_fst_mk, canon_snd_mk])
    | (simp -proj only [Dev.canon_mk, Tables.wf_mk, Radio.wf_mk, Vault.wf_mk]; refine ⟨?_, ?_, ?_, ?_, ?_⟩)
    | refine Dev.canon_regs ?_ | refine Dev.canon_cfg ?_ | refine Dev.canon_mem ?_ | refine Dev.canon_vault ?_
    | refine Dev.canon_rings ?_ | exact Dev.reset_rings | split

@[simp] theorem Dev.promote_canon (d : Dev) (src : Src) (conds extra : List (Bool × Nat)) (h_d : Dev.Canon d) :
    Dev.Canon (Dev.promote d src conds extra) := by
  unfold Dev.promote
  try dsimp -proj only
  with_reducible repeat' first
    | assumption | intro _ | refine Dev.foldl_canon _ _ _ ?_ ?_ | refine Dev.foldl_canon_fst _ _ _ ?_ ?_
    | apply Dev.updRefused_canon | apply Dev.finish_canon | (simp -proj only [canon_fst_mk, canon_snd_mk])
    | (simp -proj only [Dev.canon_mk, Tables.wf_mk, Radio.wf_mk, Vault.wf_mk]; refine ⟨?_, ?_, ?_, ?_, ?_⟩)
    | refine Dev.canon_regs ?_ | refine Dev.canon_cfg ?_ | refine Dev.canon_mem ?_ | refine Dev.canon_vault ?_
    | refine Dev.canon_rings ?_ | exact Dev.reset_rings | split

@[simp] theorem Dev.cmdPromote_canon (d : Dev) (src : Src) (u0 : Entry) (h_d : Dev.Canon d) :
    Dev.Canon (Dev.cmdPromote d src u0) := by
  unfold Dev.cmdPromote
  try dsimp -proj only
  with_reducible repeat' first
    | assumption | apply Dev.promote_canon | split

@[simp] theorem Dev.promoteStop_canon (d : Dev) (p : Promote) (code : Nat) (h_d : Dev.Canon d) :
    Dev.Canon (Dev.promoteStop d p code) := by
  unfold Dev.promoteStop
  try dsimp -proj only
  with_reducible repeat' first
    | assumption | intro _ | refine Dev.foldl_canon _ _ _ ?_ ?_ | refine Dev.foldl_canon_fst _ _ _ ?_ ?_
    | apply Dev.promote_canon | apply Dev.updRefused_canon | apply Dev.finish_canon
    | (simp -proj only [canon_fst_mk, canon_snd_mk])
    | (simp -proj only [Dev.canon_mk, Tables.wf_mk, Radio.wf_mk, Vault.wf_mk]; refine ⟨?_, ?_, ?_, ?_, ?_⟩)
    | refine Dev.canon_regs ?_ | refine Dev.canon_cfg ?_ | refine Dev.canon_mem ?_ | refine Dev.canon_vault ?_
    | refine Dev.canon_rings ?_ | exact Dev.reset_rings | split

@[simp] theorem Dev.promoteDone_canon (d : Dev) (p : Promote) (h_d : Dev.Canon d) :
    Dev.Canon (Dev.promoteDone d p) := by
  unfold Dev.promoteDone
  try dsimp -proj only
  with_reducible repeat' first
    | assumption | intro _ | refine Dev.foldl_canon _ _ _ ?_ ?_ | refine Dev.foldl_canon_fst _ _ _ ?_ ?_
    | apply Dev.put_canon | apply Dev.heldWrite_canon | apply Dev.updLast_canon | apply Dev.raise_canon
    | apply Dev.finish_canon | apply Dev.brzAny_canon | apply Dev.svcResume_canon
    | (simp -proj only [canon_fst_mk, canon_snd_mk])
    | (simp -proj only [Dev.canon_mk, Tables.wf_mk, Radio.wf_mk, Vault.wf_mk]; refine ⟨?_, ?_, ?_, ?_, ?_⟩)
    | refine Dev.canon_regs ?_ | refine Dev.canon_cfg ?_ | refine Dev.canon_mem ?_ | refine Dev.canon_vault ?_
    | refine Dev.canon_rings ?_ | exact Dev.reset_rings | split

@[simp] theorem Dev.cmdUpdPolicy_canon (d : Dev) (src : Src) (e : Entry) (h_d : Dev.Canon d) :
    Dev.Canon (Dev.cmdUpdPolicy d src e) := by
  unfold Dev.cmdUpdPolicy
  try dsimp -proj only
  with_reducible repeat' first
    | assumption | intro _ | refine Dev.foldl_canon _ _ _ ?_ ?_ | refine Dev.foldl_canon_fst _ _ _ ?_ ?_
    | apply Dev.finish_canon | apply Dev.movingNow_canon | (simp -proj only [canon_fst_mk, canon_snd_mk])
    | (simp -proj only [Dev.canon_mk, Tables.wf_mk, Radio.wf_mk, Vault.wf_mk]; refine ⟨?_, ?_, ?_, ?_, ?_⟩)
    | refine Dev.canon_regs ?_ | refine Dev.canon_cfg ?_ | refine Dev.canon_mem ?_ | refine Dev.canon_vault ?_
    | refine Dev.canon_rings ?_ | exact Dev.reset_rings | split

@[simp] theorem Dev.cmdUpdInfo_canon (d : Dev) (src : Src) (u0 : Entry) (h_d : Dev.Canon d) :
    Dev.Canon (Dev.cmdUpdInfo d src u0) := by
  unfold Dev.cmdUpdInfo
  try dsimp -proj only
  with_reducible repeat' first
    | assumption | apply Dev.finish_canon | split

@[simp] theorem Dev.ownerRekey_canon (d : Dev) (src : Src) (e : Entry) (h_d : Dev.Canon d) :
    Dev.Canon (Dev.ownerRekey d src e) := by
  unfold Dev.ownerRekey
  try dsimp -proj only
  with_reducible repeat' first
    | assumption | intro _ | refine Dev.foldl_canon _ _ _ ?_ ?_ | refine Dev.foldl_canon_fst _ _ _ ?_ ?_
    | apply Dev.cmdOwnerRekey_canon | apply Dev.flushCompl_canon | apply Dev.closeWith_canon | split

@[simp] theorem Dev.lanesPromoted_canon (d : Dev) (slot : Nat) (h_d : Dev.Canon d) :
    Dev.Canon (Dev.lanesPromoted d slot) := by
  unfold Dev.lanesPromoted
  simp [*]

/-! ### HostRings -/

@[simp] theorem Dev.entryArrives_canon (d : Dev) (n : Nat) (e : Entry) (via : Option Nat) (h_d : Dev.Canon d) :
    Dev.Canon (Dev.entryArrives d n e via) := by
  unfold Dev.entryArrives
  try dsimp -proj only
  with_reducible repeat' first
    | assumption | intro _ | refine Dev.foldl_canon _ _ _ ?_ ?_ | refine Dev.foldl_canon_fst _ _ _ ?_ ?_
    | apply Dev.offer_canon | (simp -proj only [canon_fst_mk, canon_snd_mk])
    | (simp -proj only [Dev.canon_mk, Tables.wf_mk, Radio.wf_mk, Vault.wf_mk]; refine ⟨?_, ?_, ?_, ?_, ?_⟩)
    | refine Dev.canon_regs ?_ | refine Dev.canon_cfg ?_ | refine Dev.canon_mem ?_ | refine Dev.canon_vault ?_
    | refine Dev.canon_rings ?_ | exact Dev.reset_rings | split

@[simp] theorem Dev.endLate_canon (d : Dev) (src : Src) (e : Entry) (code : Nat) (h_d : Dev.Canon d) :
    Dev.Canon (Dev.endLate d src e code) := by
  unfold Dev.endLate
  try dsimp -proj only
  with_reducible repeat' first
    | assumption | apply Dev.finish_canon | apply Dev.raise_canon | split

@[simp] theorem Dev.begun_canon (d : Dev) (n hseq : Nat) (h_d : Dev.Canon d) :
    Dev.Canon (Dev.begun d n hseq) := by
  unfold Dev.begun
  simp [*]

@[simp] theorem Dev.latestPass_canon (d : Dev) (n hseq : Nat) (h_d : Dev.Canon d) :
    Dev.Canon (Dev.latestPass d n hseq) := by
  unfold Dev.latestPass
  try dsimp -proj only
  with_reducible repeat' first
    | assumption | apply Dev.begun_canon | apply Dev.endLate_canon | apply Dev.txLatestPassed_canon | split

@[simp] theorem Dev.ringFault_canon (d : Dev) (n : Nat) (h_d : Dev.Canon d) :
    Dev.Canon (Dev.ringFault d n) := by
  unfold Dev.ringFault
  try dsimp -proj only
  with_reducible repeat' first
    | assumption | intro _ | refine Dev.foldl_canon _ _ _ ?_ ?_ | refine Dev.foldl_canon_fst _ _ _ ?_ ?_
    | apply Dev.put_canon | apply Dev.setRing_canon | apply Dev.retire_canon | apply Dev.raise_canon | split

@[simp] theorem Dev.cmdResync_canon (d : Dev) (src : Src) (e : Entry) (h_d : Dev.Canon d) :
    Dev.Canon (Dev.cmdResync d src e) := by
  unfold Dev.cmdResync
  try dsimp -proj only
  with_reducible repeat' first
    | assumption | intro _ | refine Dev.foldl_canon _ _ _ ?_ ?_ | refine Dev.foldl_canon_fst _ _ _ ?_ ?_
    | apply Dev.finish_canon | apply Dev.deliver_canon | split

@[simp] theorem Dev.postVector_canon (d : Dev) (v : Nat) (canPost : Bool) (h_d : Dev.Canon d) :
    Dev.Canon (Dev.postVector d v canPost) := by
  unfold Dev.postVector
  simp [*]

@[simp] theorem Dev.eventSend_canon (d : Dev) (s : Nat) (h_d : Dev.Canon d) :
    Dev.Canon (Dev.eventSend d s) := by
  unfold Dev.eventSend
  simp [*]

/-! ### Effects -/

@[simp] theorem Dev.storeReg_canon (d : Dev) (k : Nat) (r : RegDesc) (data : Nat) (h_d : Dev.Canon d) :
    Dev.Canon (Dev.storeReg d k r data) := by
  unfold Dev.storeReg
  simp [*]

@[simp] theorem Dev.deferWrite_canon (d : Dev) (k : Nat) (r : RegDesc) (data : Nat) (h_d : Dev.Canon d) :
    Dev.Canon (Dev.deferWrite d k r data) := by
  unfold Dev.deferWrite
  simp [*]

@[simp] theorem Dev.profileWrite_canon (d : Dev) (k data : Nat) (h_d : Dev.Canon d) :
    Dev.Canon (Dev.profileWrite d k data) := by
  unfold Dev.profileWrite
  simp [*]

@[simp] theorem Dev.setWordWrite_canon (d : Dev) (data : Nat) (h_d : Dev.Canon d) :
    Dev.Canon (Dev.setWordWrite d data) := by
  unfold Dev.setWordWrite
  simp [*]

@[simp] theorem Dev.takeWrite_canon (d : Dev) (a : Nat) (r : RegDesc) (data : Nat) (h_d : Dev.Canon d) :
    Dev.Canon (Dev.takeWrite d a r data) := by
  unfold Dev.takeWrite
  try dsimp -proj only
  with_reducible repeat' first
    | assumption | intro _ | refine Dev.foldl_canon _ _ _ ?_ ?_ | refine Dev.foldl_canon_fst _ _ _ ?_ ?_
    | apply Dev.deferWrite_canon | apply Dev.profileWrite_canon | apply Dev.setWordWrite_canon | apply Dev.wr_canon
    | apply Dev.storeReg_canon | apply Dev.save_canon | (simp -proj only [canon_fst_mk, canon_snd_mk])
    | (simp -proj only [Dev.canon_mk, Tables.wf_mk, Radio.wf_mk, Vault.wf_mk]; refine ⟨?_, ?_, ?_, ?_, ?_⟩)
    | refine Dev.canon_regs ?_ | refine Dev.canon_cfg ?_ | refine Dev.canon_mem ?_ | refine Dev.canon_vault ?_
    | refine Dev.canon_rings ?_ | exact Dev.reset_rings | split

@[simp] theorem Dev.slotDrop_canon (d : Dev) (p : Nat) (f : Tx → Bool) (h_d : Dev.Canon d) :
    Dev.Canon (Dev.slotDrop d p f) := by
  unfold Dev.slotDrop
  try dsimp -proj only
  with_reducible repeat' first
    | assumption | intro _ | refine Dev.foldl_canon _ _ _ ?_ ?_ | refine Dev.foldl_canon_fst _ _ _ ?_ ?_
    | apply Dev.txFinish_canon | split

@[simp] theorem Dev.portOut_canon (d : Dev) (p : Nat) (h_d : Dev.Canon d) :
    Dev.Canon (Dev.portOut d p) := by
  unfold Dev.portOut
  try dsimp -proj only
  with_reducible repeat' first
    | assumption | apply Dev.slotDrop_canon | apply Dev.markLost_canon | apply Dev.calPortOut_canon
    | apply Dev.releaseCtxs_canon | apply Dev.setChainState_canon | apply Dev.setTxLock_canon
    | apply Dev.setRxLock_canon | split

@[simp] theorem Dev.portIn_canon (d : Dev) (p : Nat) (h_d : Dev.Canon d) :
    Dev.Canon (Dev.portIn d p) := by
  unfold Dev.portIn
  try dsimp -proj only
  with_reducible repeat' first
    | assumption | apply Dev.setChainState_canon | apply Dev.setTxLock_canon | apply Dev.setRxLock_canon | split

@[simp] theorem Dev.serviceChange_canon (before d : Dev) (g : Nat) (h_before : Dev.Canon before) (h_d : Dev.Canon d) :
    Dev.Canon (Dev.serviceChange before d g) := by
  unfold Dev.serviceChange
  try dsimp -proj only
  with_reducible repeat' first
    | assumption | intro _ | refine Dev.foldl_canon _ _ _ ?_ ?_ | refine Dev.foldl_canon_fst _ _ _ ?_ ?_
    | apply Dev.portOut_canon | apply Dev.portIn_canon | apply Dev.releaseCtxs_canon | apply Dev.slotDrop_canon
    | split

@[simp] theorem Dev.hostEffect_canon (before d : Dev) (off data : Nat) (h_before : Dev.Canon before) (h_d : Dev.Canon d) :
    Dev.Canon (Dev.hostEffect before d off data) := by
  unfold Dev.hostEffect
  try dsimp -proj only
  with_reducible repeat' first
    | assumption | apply Dev.setRing_canon | apply Dev.put_canon | split

@[simp] theorem Dev.evcEffect_canon (before d : Dev) (off data : Nat) (h_before : Dev.Canon before) (h_d : Dev.Canon d) :
    Dev.Canon (Dev.evcEffect before d off data) := by
  unfold Dev.evcEffect
  simp [*]

@[simp] theorem Dev.timEffect_canon (before d : Dev) (off data : Nat) (h_before : Dev.Canon before) (h_d : Dev.Canon d) :
    Dev.Canon (Dev.timEffect before d off data) := by
  unfold Dev.timEffect
  try dsimp -proj only
  with_reducible repeat' first
    | assumption | intro _ | refine Dev.foldl_canon _ _ _ ?_ ?_ | refine Dev.foldl_canon_fst _ _ _ ?_ ?_
    | apply Dev.dueMoved_canon | apply Dev.wr_canon | apply Dev.setTimPhase_canon | apply Dev.put_canon
    | (simp -proj only [canon_fst_mk, canon_snd_mk])
    | (simp -proj only [Dev.canon_mk, Tables.wf_mk, Radio.wf_mk, Vault.wf_mk]; refine ⟨?_, ?_, ?_, ?_, ?_⟩)
    | refine Dev.canon_regs ?_ | refine Dev.canon_cfg ?_ | refine Dev.canon_mem ?_ | refine Dev.canon_vault ?_
    | refine Dev.canon_rings ?_ | exact Dev.reset_rings | with_reducible_and_instances refine SMap.wf_set _ _ ?_ _ _
    | exact SMap.wf_nil _ | exact Dev.reset_canon | exact Dev.reset_tab_canon | refine Vault.written_wf ?_
    | refine Vault.cut_wf ?_ | refine Vault.loaded_wf ?_ | refine Dev.canon_of_fst (by assumption) ?_
    | refine Dev.canon_of_snd (by assumption) ?_ | split | dsimp -proj only
    | (simp -proj only [Dev.canon_ite, fst_ite, snd_ite])

@[simp] theorem Dev.rxpEffect_canon (before d : Dev) (off data : Nat) (h_before : Dev.Canon before) (h_d : Dev.Canon d) :
    Dev.Canon (Dev.rxpEffect before d off data) := by
  unfold Dev.rxpEffect
  try dsimp -proj only
  with_reducible repeat' first
    | assumption | intro _ | refine Dev.foldl_canon _ _ _ ?_ ?_ | refine Dev.foldl_canon_fst _ _ _ ?_ ?_
    | apply Dev.loadListen_canon | apply Dev.rxRingOff_canon | apply Dev.setRxRing_canon | apply Dev.put_canon
    | (simp -proj only [canon_fst_mk, canon_snd_mk])
    | (simp -proj only [Dev.canon_mk, Tables.wf_mk, Radio.wf_mk, Vault.wf_mk]; refine ⟨?_, ?_, ?_, ?_, ?_⟩)
    | refine Dev.canon_regs ?_ | refine Dev.canon_cfg ?_ | refine Dev.canon_mem ?_ | refine Dev.canon_vault ?_
    | refine Dev.canon_rings ?_ | exact Dev.reset_rings | split

@[simp] theorem Dev.txpEffect_canon (before d : Dev) (off data : Nat) (h_before : Dev.Canon before) (h_d : Dev.Canon d) :
    Dev.Canon (Dev.txpEffect before d off data) := by
  unfold Dev.txpEffect
  try dsimp -proj only
  with_reducible repeat' first
    | assumption | intro _ | refine Dev.foldl_canon _ _ _ ?_ ?_ | refine Dev.foldl_canon_fst _ _ _ ?_ ?_
    | apply Dev.loadSet_canon | apply Dev.setAdvance_canon | (simp -proj only [canon_fst_mk, canon_snd_mk])
    | (simp -proj only [Dev.canon_mk, Tables.wf_mk, Radio.wf_mk, Vault.wf_mk]; refine ⟨?_, ?_, ?_, ?_, ?_⟩)
    | refine Dev.canon_regs ?_ | refine Dev.canon_cfg ?_ | refine Dev.canon_mem ?_ | refine Dev.canon_vault ?_
    | refine Dev.canon_rings ?_ | exact Dev.reset_rings | split

@[simp] theorem Dev.macEffect_canon (d : Dev) (g off data : Nat) (h_d : Dev.Canon d) :
    Dev.Canon (Dev.macEffect d g off data) := by
  unfold Dev.macEffect
  try dsimp -proj only
  with_reducible repeat' first
    | assumption | intro _ | refine Dev.foldl_canon _ _ _ ?_ ?_ | refine Dev.foldl_canon_fst _ _ _ ?_ ?_
    | apply Dev.loadPan_canon | (simp -proj only [canon_fst_mk, canon_snd_mk])
    | (simp -proj only [Dev.canon_mk, Tables.wf_mk, Radio.wf_mk, Vault.wf_mk]; refine ⟨?_, ?_, ?_, ?_, ?_⟩)
    | refine Dev.canon_regs ?_ | refine Dev.canon_cfg ?_ | refine Dev.canon_mem ?_ | refine Dev.canon_vault ?_
    | refine Dev.canon_rings ?_ | exact Dev.reset_rings | split

@[simp] theorem Dev.testEffect_canon (d : Dev) (data : Nat) (h_d : Dev.Canon d) :
    Dev.Canon (Dev.testEffect d data) := by
  unfold Dev.testEffect
  simp [*]

@[simp] theorem Dev.dryEffect_canon (d : Dev) (data : Nat) (h_d : Dev.Canon d) :
    Dev.Canon (Dev.dryEffect d data) := by
  unfold Dev.dryEffect
  simp [*]

@[simp] theorem Dev.effect_canon (before d : Dev) (a data : Nat) (h_before : Dev.Canon before) (h_d : Dev.Canon d) :
    Dev.Canon (Dev.effect before d a data) := by
  unfold Dev.effect
  try dsimp -proj only
  with_reducible repeat' first
    | assumption | apply Dev.targetAct_canon | apply Dev.resign_canon | apply Dev.thermWarn_canon
    | apply Dev.testEffect_canon | apply Dev.autoAdmit_canon | apply Dev.admitLane_canon | apply Dev.dryEffect_canon
    | apply Dev.hostEffect_canon | apply Dev.raise_canon | apply Dev.evcEffect_canon | apply Dev.timEffect_canon
    | apply Dev.wr_canon | apply Dev.blankUpdate_canon | apply Dev.reloadDraft_canon | apply Dev.recheckBudget_canon
    | apply Dev.serviceChange_canon | apply Dev.calConditions_canon | apply Dev.rxpEffect_canon
    | apply Dev.txpEffect_canon | apply Dev.macEffect_canon | apply Dev.scrubEnChanged_canon
    | apply Dev.telemEnChanged_canon | split

@[simp] theorem Dev.enableEffect_canon (before d : Dev) (p : Nat) (h_before : Dev.Canon before) (h_d : Dev.Canon d) :
    Dev.Canon (Dev.enableEffect before d p) := by
  unfold Dev.enableEffect
  try dsimp -proj only
  with_reducible repeat' first
    | assumption | intro _ | refine Dev.foldl_canon _ _ _ ?_ ?_ | refine Dev.foldl_canon_fst _ _ _ ?_ ?_
    | apply Dev.wr_canon | apply Dev.serviceChange_canon | apply Dev.calConditions_canon | apply Dev.vsfpUpdate_canon
    | (simp -proj only [canon_fst_mk, canon_snd_mk])
    | (simp -proj only [Dev.canon_mk, Tables.wf_mk, Radio.wf_mk, Vault.wf_mk]; refine ⟨?_, ?_, ?_, ?_, ?_⟩)
    | refine Dev.canon_regs ?_ | refine Dev.canon_cfg ?_ | refine Dev.canon_mem ?_ | refine Dev.canon_vault ?_
    | refine Dev.canon_rings ?_ | exact Dev.reset_rings | split

@[simp] theorem Dev.ctrlWrite_canon (d : Dev) (p data : Nat) (h_d : Dev.Canon d) :
    Dev.Canon (Dev.ctrlWrite d p data) := by
  unfold Dev.ctrlWrite
  try dsimp -proj only
  with_reducible repeat' first
    | assumption | intro _ | refine Dev.foldl_canon _ _ _ ?_ ?_ | refine Dev.foldl_canon_fst _ _ _ ?_ ?_
    | apply Dev.freezePage_canon | apply Dev.put_canon | apply Dev.thawPage_canon | apply Dev.enableEffect_canon
    | apply Dev.save_canon | (simp -proj only [canon_fst_mk, canon_snd_mk])
    | (simp -proj only [Dev.canon_mk, Tables.wf_mk, Radio.wf_mk, Vault.wf_mk]; refine ⟨?_, ?_, ?_, ?_, ?_⟩)
    | refine Dev.canon_regs ?_ | refine Dev.canon_cfg ?_ | refine Dev.canon_mem ?_ | refine Dev.canon_vault ?_
    | refine Dev.canon_rings ?_ | exact Dev.reset_rings | split

@[simp] theorem Dev.pendWrite_canon (d : Dev) (p data : Nat) (h_d : Dev.Canon d) :
    Dev.Canon (Dev.pendWrite d p data) := by
  unfold Dev.pendWrite
  try dsimp -proj only
  with_reducible repeat' first
    | assumption | intro _ | refine Dev.foldl_canon _ _ _ ?_ ?_ | refine Dev.foldl_canon_fst _ _ _ ?_ ?_
    | apply Dev.wr_canon | apply Dev.put_canon | (simp -proj only [canon_fst_mk, canon_snd_mk])
    | (simp -proj only [Dev.canon_mk, Tables.wf_mk, Radio.wf_mk, Vault.wf_mk]; refine ⟨?_, ?_, ?_, ?_, ?_⟩)
    | refine Dev.canon_regs ?_ | refine Dev.canon_cfg ?_ | refine Dev.canon_mem ?_ | refine Dev.canon_vault ?_
    | refine Dev.canon_rings ?_ | exact Dev.reset_rings | split

@[simp] theorem Dev.headerWrite_canon (d : Dev) (p off data : Nat) (h_d : Dev.Canon d) :
    Dev.Canon (Dev.headerWrite d p off data) := by
  unfold Dev.headerWrite
  try dsimp -proj only
  with_reducible repeat' first
    | assumption | apply Dev.ctrlWrite_canon | apply Dev.seqInc_canon | apply Dev.countAsserted_canon
    | apply Dev.wr_canon | apply Dev.pendWrite_canon | split

@[simp] theorem Dev.acceptWrite_canon (d : Dev) (a data : Nat) (h_d : Dev.Canon d) :
    Dev.Canon (Dev.acceptWrite d a data) := by
  unfold Dev.acceptWrite
  try dsimp -proj only
  with_reducible repeat' first
    | assumption | intro _ | refine Dev.foldl_canon _ _ _ ?_ ?_ | refine Dev.foldl_canon_fst _ _ _ ?_ ?_
    | apply Dev.headerWrite_canon | apply Dev.wr_canon | apply Dev.effect_canon | apply Dev.takeWrite_canon
    | apply Dev.seqInc_canon | (simp -proj only [canon_fst_mk, canon_snd_mk])
    | (simp -proj only [Dev.canon_mk, Tables.wf_mk, Radio.wf_mk, Vault.wf_mk]; refine ⟨?_, ?_, ?_, ?_, ?_⟩)
    | refine Dev.canon_regs ?_ | refine Dev.canon_cfg ?_ | refine Dev.canon_mem ?_ | refine Dev.canon_vault ?_
    | refine Dev.canon_rings ?_ | exact Dev.reset_rings | split

@[simp] theorem Dev.refuseWrite_canon (d : Dev) (code a data : Nat) (h_d : Dev.Canon d) :
    Dev.Canon (Dev.refuseWrite d code a data) := by
  unfold Dev.refuseWrite
  simp [*]

@[simp] theorem Dev.busWrite_canon (d : Dev) (a data : Nat) (whole : Bool) (h_d : Dev.Canon d) :
    Dev.Canon (Dev.busWrite d a data whole).1 := by
  unfold Dev.busWrite
  simp [*]

@[simp] theorem Dev.clearStats_canon (d : Dev) (p : Nat) (h_d : Dev.Canon d) :
    Dev.Canon (Dev.clearStats d p) := by
  unfold Dev.clearStats
  try dsimp -proj only
  with_reducible repeat' first
    | assumption | intro _ | refine Dev.foldl_canon _ _ _ ?_ ?_ | refine Dev.foldl_canon_fst _ _ _ ?_ ?_
    | apply Dev.restartAll_canon | split

@[simp] theorem Dev.rfgReset_canon (d : Dev) (g : Nat) (h_d : Dev.Canon d) :
    Dev.Canon (Dev.rfgReset d g) := by
  unfold Dev.rfgReset
  try dsimp -proj only
  with_reducible repeat' first
    | assumption | intro _ | refine Dev.foldl_canon _ _ _ ?_ ?_ | refine Dev.foldl_canon_fst _ _ _ ?_ ?_
    | apply Dev.txStop_canon | apply Dev.slotDrop_canon | apply Dev.setChainState_canon | split

@[simp] theorem Dev.pageReset_canon (d : Dev) (p : Nat) (h_d : Dev.Canon d) :
    Dev.Canon (Dev.pageReset d p) := by
  unfold Dev.pageReset
  try dsimp -proj only
  with_reducible repeat' first
    | assumption | intro _ | refine Dev.foldl_canon _ _ _ ?_ ?_ | refine Dev.foldl_canon_fst _ _ _ ?_ ?_
    | apply Dev.putPair_canon | apply Dev.wr_canon | apply Dev.blankUpdate_canon | apply Dev.sessionEnd_canon
    | apply Dev.pawnReset_canon | apply Dev.clearStats_canon | apply Dev.rfgReset_canon | apply Dev.calAbandon_canon
    | apply Dev.calConditions_canon | apply Dev.rxRingOff_canon | apply Dev.releaseCtxs_canon
    | apply Dev.loadListen_canon | apply Dev.loadSet_canon | apply Dev.txFinish_canon | apply Dev.loadPan_canon
    | apply Dev.dirReset_canon | apply Dev.tmemReset_canon | apply Dev.fwdReset_canon | apply Dev.qschReset_canon
    | apply Dev.closeWith_canon | apply Dev.linkSet_canon | apply Dev.ptpUnlock_canon | apply Dev.lowpanReset_canon
    | (simp -proj only [canon_fst_mk, canon_snd_mk])
    | (simp -proj only [Dev.canon_mk, Tables.wf_mk, Radio.wf_mk, Vault.wf_mk]; refine ⟨?_, ?_, ?_, ?_, ?_⟩)
    | refine Dev.canon_regs ?_ | refine Dev.canon_cfg ?_ | refine Dev.canon_mem ?_ | refine Dev.canon_vault ?_
    | refine Dev.canon_rings ?_ | exact Dev.reset_rings | split

@[simp] theorem Dev.softResetDone_canon (d : Dev) (p : Nat) (h_d : Dev.Canon d) :
    Dev.Canon (Dev.softResetDone d p) := by
  unfold Dev.softResetDone
  try dsimp -proj only
  with_reducible repeat' first
    | assumption | intro _ | refine Dev.foldl_canon _ _ _ ?_ ?_ | refine Dev.foldl_canon_fst _ _ _ ?_ ?_
    | apply Dev.thawPage_canon | apply Dev.reloadPage_canon | apply Dev.put_canon | apply Dev.pageReset_canon
    | apply Dev.wr_canon | (simp -proj only [canon_fst_mk, canon_snd_mk])
    | (simp -proj only [Dev.canon_mk, Tables.wf_mk, Radio.wf_mk, Vault.wf_mk]; refine ⟨?_, ?_, ?_, ?_, ?_⟩)
    | refine Dev.canon_regs ?_ | refine Dev.canon_cfg ?_ | refine Dev.canon_mem ?_ | refine Dev.canon_vault ?_
    | refine Dev.canon_rings ?_ | exact Dev.reset_rings | split

/-! ### RegCommands -/

@[simp] theorem Dev.hostWrite_canon (d : Dev) (a data : Nat) (whole : Bool) (h_d : Dev.Canon d) :
    Dev.Canon (Dev.hostWrite d a data whole) := by
  unfold Dev.hostWrite
  simp [*]

@[simp] theorem Dev.hostRead_canon (d : Dev) (a : Nat) (h_d : Dev.Canon d) :
    Dev.Canon (Dev.hostRead d a) := by
  unfold Dev.hostRead
  simp [*]

@[simp] theorem Dev.hostSet_canon (d : Dev) (a : Nat) (value : BitVec 32) (ones zeros : Nat) (h_d : Dev.Canon d) :
    Dev.Canon (Dev.hostSet d a value ones zeros) := by
  unfold Dev.hostSet
  simp [*]

@[simp] theorem Dev.readMany_canon (d : Dev) (a : Nat) (e0 : Nat) (h_d : Dev.Canon d) :
    Dev.Canon (Dev.readMany d a e0).1 := by
  induction e0 generalizing d a h_d with
  | zero =>
    unfold Dev.readMany
    try dsimp -proj only
    with_reducible repeat' first
      | assumption | apply Dev.busRead_canon | split
  | succ n ih =>
    unfold Dev.readMany
    try dsimp -proj only
    with_reducible repeat' first
      | assumption | apply ih | apply Dev.busRead_canon | split

@[simp] theorem Dev.writeMany_canon (d : Dev) (a : Nat) (e0 : List Nat) (h_d : Dev.Canon d) :
    Dev.Canon (Dev.writeMany d a e0).1 := by
  induction e0 generalizing d a h_d with
  | nil =>
    unfold Dev.writeMany
    try dsimp -proj only
    with_reducible repeat' first
      | assumption | apply Dev.busWrite_canon | split
  | cons v vs ih =>
    unfold Dev.writeMany
    try dsimp -proj only
    with_reducible repeat' first
      | assumption | apply ih | apply Dev.busWrite_canon | split

@[simp] theorem Dev.cmdRegRead_canon (d : Dev) (src : Src) (e : Entry) (h_d : Dev.Canon d) :
    Dev.Canon (Dev.cmdRegRead d src e) := by
  unfold Dev.cmdRegRead
  simp [*]

@[simp] theorem Dev.cmdRegWrite_canon (d : Dev) (src : Src) (e : Entry) (h_d : Dev.Canon d) :
    Dev.Canon (Dev.cmdRegWrite d src e) := by
  unfold Dev.cmdRegWrite
  simp [*]

end Sys2Proof.Machine
end

