-- ==== Sys2Proof/Laws/Canon8.lean ====
section
/-! SUPPORT. Every operation of Machine/SvcCmd, Boundary, TableReads, VotedTx keeps the canonical form: one lemma for each, for callers to cite. -/

set_option linter.unusedSimpArgs false
set_option linter.unusedVariables false

namespace Sys2Proof.Machine

/-! ### SvcCmd -/

@[simp] theorem Dev.runOpcode_canon (d : Dev) (bytes : List Byte) (src : Src) (e : Entry) (h_d : Dev.Canon d) :
    Dev.Canon (Dev.runOpcode d bytes src e) := by
  unfold Dev.runOpcode
  try dsimp -proj only
  with_reducible repeat' first
    | assumption | apply Dev.finish_canon | apply Dev.cmdRegRead_canon | apply Dev.cmdRegWrite_canon
    | apply Dev.cmdVaultCommit_canon | apply Dev.cmdCalRequest_canon | apply Dev.cmdTxRaw_canon
    | apply Dev.cmdMacSend_canon | apply Dev.cmdNodeRelease_canon | apply Dev.cmdNodeTiming_canon
    | apply Dev.cmdNodeScan_canon | apply Dev.cmdFloodSend_canon | apply Dev.cmdPeerAdopt_canon
    | apply Dev.cmdKeyLoad_canon | apply Dev.cmdKeyErase_canon | apply Dev.cmdKeyBind_canon
    | apply Dev.cmdKeyInfo_canon | apply Dev.cmdOwnerLock_canon | apply Dev.ownerRekey_canon
    | apply Dev.cmdDirLoad_canon | apply Dev.cmdDirRemove_canon | apply Dev.cmdDirFind_canon
    | apply Dev.cmdFwdFlush_canon | apply Dev.cmdClearLine_canon | apply Dev.cmdQschFlush_canon
    | apply Dev.cmdModuleRead_canon | apply Dev.cmdPromote_canon | apply Dev.cmdUpdPolicy_canon
    | apply Dev.cmdUpdInfo_canon | apply Dev.cmdPawnLoad_canon | apply Dev.cmdPawnSeal_canon
    | apply Dev.cmdPawnStart_canon | apply Dev.cmdPawnStop_canon | apply Dev.cmdPawnChain_canon
    | apply Dev.cmdPawnClear_canon | split

@[simp] theorem Dev.svcStarted_canon (d : Dev) (h_d : Dev.Canon d) :
    Dev.Canon (Dev.svcStarted d) := by
  unfold Dev.svcStarted
  simp [*]

@[simp] theorem Dev.svcCmd_canon (d : Dev) (bytes payload : List Byte) (h_d : Dev.Canon d) :
    Dev.Canon (Dev.svcCmd d bytes payload) := by
  unfold Dev.svcCmd
  simp [*]

/-! ### Boundary -/

@[simp] theorem Dev.listenCommit_canon (d : Dev) (h_d : Dev.Canon d) :
    Dev.Canon (Dev.listenCommit d) := by
  unfold Dev.listenCommit
  try dsimp -proj only
  with_reducible repeat' first
    | assumption | intro _ | refine Dev.foldl_canon _ _ _ ?_ ?_ | refine Dev.foldl_canon_fst _ _ _ ?_ ?_
    | apply Dev.wr_canon | apply Dev.saveWord_canon | (simp -proj only [canon_fst_mk, canon_snd_mk])
    | (simp -proj only [Dev.canon_mk, Tables.wf_mk, Radio.wf_mk, Vault.wf_mk]; refine ⟨?_, ?_, ?_, ?_, ?_⟩)
    | refine Dev.canon_regs ?_ | refine Dev.canon_cfg ?_ | refine Dev.canon_mem ?_ | refine Dev.canon_vault ?_
    | refine Dev.canon_rings ?_ | exact Dev.reset_rings | split

@[simp] theorem Dev.panCommits_canon (d : Dev) (h_d : Dev.Canon d) :
    Dev.Canon (Dev.panCommits d) := by
  unfold Dev.panCommits
  try dsimp -proj only
  with_reducible repeat' first
    | assumption | intro _ | refine Dev.foldl_canon _ _ _ ?_ ?_ | refine Dev.foldl_canon_fst _ _ _ ?_ ?_
    | apply Dev.setPanWord_canon | apply Dev.saveWord_canon | (simp -proj only [canon_fst_mk, canon_snd_mk])
    | (simp -proj only [Dev.canon_mk, Tables.wf_mk, Radio.wf_mk, Vault.wf_mk]; refine ⟨?_, ?_, ?_, ?_, ?_⟩)
    | refine Dev.canon_regs ?_ | refine Dev.canon_cfg ?_ | refine Dev.canon_mem ?_ | refine Dev.canon_vault ?_
    | refine Dev.canon_rings ?_ | exact Dev.reset_rings | split

@[simp] theorem Dev.txpCommits_canon (d : Dev) (h_d : Dev.Canon d) :
    Dev.Canon (Dev.txpCommits d) := by
  unfold Dev.txpCommits
  try dsimp -proj only
  with_reducible repeat' first
    | assumption | intro _ | refine Dev.foldl_canon _ _ _ ?_ ?_ | refine Dev.foldl_canon_fst _ _ _ ?_ ?_
    | apply Dev.wr_canon | apply Dev.saveWord_canon | (simp -proj only [canon_fst_mk, canon_snd_mk])
    | (simp -proj only [Dev.canon_mk, Tables.wf_mk, Radio.wf_mk, Vault.wf_mk]; refine ⟨?_, ?_, ?_, ?_, ?_⟩)
    | refine Dev.canon_regs ?_ | refine Dev.canon_cfg ?_ | refine Dev.canon_mem ?_ | refine Dev.canon_vault ?_
    | refine Dev.canon_rings ?_ | exact Dev.reset_rings | split

@[simp] theorem Dev.takeSamples_canon (d : Dev) (x : Samples) (h_d : Dev.Canon d) :
    Dev.Canon (Dev.takeSamples d x) := by
  unfold Dev.takeSamples
  try dsimp -proj only
  with_reducible repeat' first
    | assumption | intro _ | refine Dev.foldl_canon _ _ _ ?_ ?_ | refine Dev.foldl_canon_fst _ _ _ ?_ ?_
    | apply Dev.put_canon | apply Dev.thermWarn_canon | apply Dev.bankFree_canon
    | (simp -proj only [canon_fst_mk, canon_snd_mk])
    | (simp -proj only [Dev.canon_mk, Tables.wf_mk, Radio.wf_mk, Vault.wf_mk]; refine ⟨?_, ?_, ?_, ?_, ?_⟩)
    | refine Dev.canon_regs ?_ | refine Dev.canon_cfg ?_ | refine Dev.canon_mem ?_ | refine Dev.canon_vault ?_
    | refine Dev.canon_rings ?_ | exact Dev.reset_rings | split

@[simp] theorem Dev.chooseGains_canon (d : Dev) (h_d : Dev.Canon d) :
    Dev.Canon (Dev.chooseGains d) := by
  unfold Dev.chooseGains
  simp [*]

@[simp] theorem Dev.calSeconds_canon (d : Dev) (h_d : Dev.Canon d) :
    Dev.Canon (Dev.calSeconds d) := by
  unfold Dev.calSeconds
  try dsimp -proj only
  with_reducible repeat' first
    | assumption | intro _ | refine Dev.foldl_canon _ _ _ ?_ ?_ | refine Dev.foldl_canon_fst _ _ _ ?_ ?_
    | apply Dev.bump_canon | split

@[simp] theorem Dev.overrun_canon (d : Dev) (lane hw : Bool) (h_d : Dev.Canon d) :
    Dev.Canon (Dev.overrun d lane hw) := by
  unfold Dev.overrun
  try dsimp -proj only
  with_reducible repeat' first
    | assumption | intro _ | refine Dev.foldl_canon _ _ _ ?_ ?_ | refine Dev.foldl_canon_fst _ _ _ ?_ ?_
    | apply Dev.bump_canon | apply Dev.put_canon | apply Dev.raise_canon | apply Dev.evt_canon
    | (simp -proj only [canon_fst_mk, canon_snd_mk])
    | (simp -proj only [Dev.canon_mk, Tables.wf_mk, Radio.wf_mk, Vault.wf_mk]; refine ⟨?_, ?_, ?_, ?_, ?_⟩)
    | refine Dev.canon_regs ?_ | refine Dev.canon_cfg ?_ | refine Dev.canon_mem ?_ | refine Dev.canon_vault ?_
    | refine Dev.canon_rings ?_ | exact Dev.reset_rings | split

@[simp] theorem Dev.perTempo_canon (d : Dev) (h_d : Dev.Canon d) :
    Dev.Canon (Dev.perTempo d) := by
  unfold Dev.perTempo
  simp [*]

@[simp] theorem Dev.reserveCal_canon (d : Dev) (h_d : Dev.Canon d) :
    Dev.Canon (Dev.reserveCal d) := by
  unfold Dev.reserveCal
  try dsimp -proj only
  with_reducible repeat' first
    | assumption | intro _ | refine Dev.foldl_canon _ _ _ ?_ ?_ | refine Dev.foldl_canon_fst _ _ _ ?_ ?_
    | apply Dev.setStepLoad_canon | split

@[simp] theorem Dev.calFree_canon (d : Dev) (g : Nat) (h_d : Dev.Canon d) :
    Dev.Canon (Dev.calFree d g) := by
  unfold Dev.calFree
  simp [*]

@[simp] theorem Dev.guaranteed_canon (d : Dev) (rank : Nat) (errs : List LineError) (fault loc : Nat) (h_d : Dev.Canon d) :
    Dev.Canon (Dev.guaranteed d rank errs fault loc) := by
  unfold Dev.guaranteed
  try dsimp -proj only
  with_reducible repeat' first
    | assumption | intro _ | refine Dev.foldl_canon _ _ _ ?_ ?_ | refine Dev.foldl_canon_fst _ _ _ ?_ ?_
    | apply Dev.calFree_canon | apply Dev.scrubLines_canon | apply Dev.bgDo_canon | apply Dev.sweep_canon
    | apply Dev.telemWrite_canon | apply Dev.pawnServe_canon | apply Dev.runtimeTest_canon | split

@[simp] theorem Dev.takeSlices_canon (d : Dev) (l : List Nat) (h_d : Dev.Canon d) :
    Dev.Canon (Dev.takeSlices d l) := by
  unfold Dev.takeSlices
  try dsimp -proj only
  with_reducible repeat' first
    | assumption | intro _ | refine Dev.foldl_canon _ _ _ ?_ ?_ | refine Dev.foldl_canon_fst _ _ _ ?_ ?_
    | apply Dev.guaranteed_canon | split

@[simp] theorem Dev.slicesNow_canon (d : Dev) (h_d : Dev.Canon d) :
    Dev.Canon (Dev.slicesNow d) := by
  unfold Dev.slicesNow
  simp [*]

@[simp] theorem Dev.slicesLeft_canon (d : Dev) (h_d : Dev.Canon d) :
    Dev.Canon (Dev.slicesLeft d) := by
  unfold Dev.slicesLeft
  try dsimp -proj only
  with_reducible repeat' first
    | assumption | apply Dev.takeSlices_canon | split

@[simp] theorem Dev.boundaryWork_canon (d : Dev) (x : Samples) (h_d : Dev.Canon d) :
    Dev.Canon (Dev.boundaryWork d x) := by
  unfold Dev.boundaryWork
  try dsimp -proj only
  with_reducible repeat' first
    | assumption | intro _ | refine Dev.foldl_canon _ _ _ ?_ ?_ | refine Dev.foldl_canon_fst _ _ _ ?_ ?_
    | apply Dev.slicesLeft_canon | apply Dev.writeBackDue_canon | apply Dev.calBoundary_canon
    | apply Dev.takeSamples_canon | apply Dev.chooseGains_canon | apply Dev.vaultApply_canon
    | apply Dev.listenCommit_canon | apply Dev.panCommits_canon | apply Dev.txpCommits_canon
    | apply Dev.softResetDone_canon | apply Dev.applyPending_canon | apply Dev.refillAll_canon
    | apply Dev.pawnRefill_canon | apply Dev.dutyClose_canon | apply Dev.sampleAll_canon | apply Dev.pawnTick_canon
    | apply Dev.stallTick_canon | apply Dev.laneBoundary_canon | apply Dev.overrun_canon | apply Dev.bgBoundary_canon
    | apply Dev.scrubBoundary_canon | apply Dev.calSeconds_canon | apply Dev.calConditions_canon
    | apply Dev.reserveCal_canon | apply Dev.evt_canon | apply Dev.captureEdge_canon | apply Dev.perTempo_canon
    | (simp -proj only [canon_fst_mk, canon_snd_mk])
    | (simp -proj only [Dev.canon_mk, Tables.wf_mk, Radio.wf_mk, Vault.wf_mk]; refine ⟨?_, ?_, ?_, ?_, ?_⟩)
    | refine Dev.canon_regs ?_ | refine Dev.canon_cfg ?_ | refine Dev.canon_mem ?_ | refine Dev.canon_vault ?_
    | refine Dev.canon_rings ?_ | exact Dev.reset_rings | split

@[simp] theorem Dev.sysAdvance_canon (d : Dev) (cycles : Nat) (h_d : Dev.Canon d) :
    Dev.Canon (Dev.sysAdvance d cycles) := by
  unfold Dev.sysAdvance
  simp [*]

@[simp] theorem Dev.aonTicks_canon (d : Dev) (cycles : Nat) (h_d : Dev.Canon d) :
    Dev.Canon (Dev.aonTicks d cycles) := by
  unfold Dev.aonTicks
  simp [*]

@[simp] theorem Dev.ppsFall_canon (d : Dev) (h_d : Dev.Canon d) :
    Dev.Canon (Dev.ppsFall d) := by
  unfold Dev.ppsFall
  simp [*]

@[simp] theorem Dev.freeSamples_canon (d : Dev) (h_d : Dev.Canon d) :
    Dev.Canon (Dev.freeSamples d).1 := by
  unfold Dev.freeSamples
  simp [*]

@[simp] theorem Dev.tick_canon (d : Dev) (h_d : Dev.Canon d) :
    Dev.Canon (Dev.tick d) := by
  unfold Dev.tick
  try dsimp -proj only
  with_reducible repeat' first
    | assumption | intro _ | refine Dev.foldl_canon _ _ _ ?_ ?_ | refine Dev.foldl_canon_fst _ _ _ ?_ ?_
    | apply Dev.aonTo_canon | apply Dev.slicesNow_canon | apply Dev.sysAdvance_canon | apply Dev.aonTicks_canon
    | apply Dev.timCycle_canon | apply Dev.ppsFall_canon | apply Dev.freeSamples_canon | apply Dev.boundaryWork_canon
    | (simp -proj only [canon_fst_mk, canon_snd_mk])
    | (simp -proj only [Dev.canon_mk, Tables.wf_mk, Radio.wf_mk, Vault.wf_mk]; refine ⟨?_, ?_, ?_, ?_, ?_⟩)
    | refine Dev.canon_regs ?_ | refine Dev.canon_cfg ?_ | refine Dev.canon_mem ?_ | refine Dev.canon_vault ?_
    | refine Dev.canon_rings ?_ | exact Dev.reset_rings | split

/-! ### TableReads -/

@[simp] theorem Dev.begin_canon (d : Dev) (n hseq : Nat) (errs : List LineError) (h_d : Dev.Canon d) :
    Dev.Canon (Dev.begin d n hseq errs) := by
  unfold Dev.begin
  try dsimp -proj only
  with_reducible repeat' first
    | assumption | apply Dev.begun_canon | apply Dev.endLate_canon | apply Dev.strikes_canon | apply Dev.finish_canon
    | split

@[simp] theorem Dev.accessOf_canon (d : Dev) (id : Nat) (h_d : Dev.Canon d) :
    Dev.Canon (Dev.accessOf d id) := by
  unfold Dev.accessOf
  try dsimp -proj only
  with_reducible repeat' first
    | assumption | apply Dev.channelAccess_canon | split

@[simp] theorem Dev.admitOldest_canon (d : Dev) (h_d : Dev.Canon d) :
    Dev.Canon (Dev.admitOldest d) := by
  unfold Dev.admitOldest
  try dsimp -proj only
  with_reducible repeat' first
    | assumption | apply Dev.admission_canon | split

/-! ### VotedTx -/

@[simp] theorem Dev.fixedSend_canon (d : Dev) (t : Tx) (inTime : Bool) (a : AirSense) (h_d : Dev.Canon d) :
    Dev.Canon (Dev.fixedSend d t inTime a) := by
  unfold Dev.fixedSend
  try dsimp -proj only
  with_reducible repeat' first
    | assumption | apply Dev.txFinish_canon | apply Dev.secureAhead_canon | apply Dev.secureTx_canon
    | apply Dev.vaultStep_canon | apply Dev.voteAgreed_canon | apply Dev.txUpd_canon | apply Dev.displace_canon
    | apply Dev.tune_canon | apply Dev.setTxLock_canon | apply Dev.sampleGrant_canon | apply Dev.release_canon
    | split

end Sys2Proof.Machine
end

