-- ==== Sys2Proof/Laws/CanonExec1.lean ====
section
/-! SUPPORT. What each command answers: a next state with the queue as it was and canonical stores. -/

set_option linter.unusedSimpArgs false
set_option linter.unusedVariables false

namespace Sys2Proof.Machine

/-! ### Memory -/

theorem execScrubWriteBack_canon (s : State) (h : s.dev.Canon) :
    ∃ d, execScrubWriteBack s = .next { s with dev := d } ∧ d.Canon :=
  ⟨_, rfl, by simp [h]⟩

/-! ### Keys -/

theorem execFcntReserveRetry_canon (slot : Fin 4096) (s : State) (h : s.dev.Canon) :
    ∃ d, execFcntReserveRetry slot s = .next { s with dev := d } ∧ d.Canon :=
  ⟨_, rfl, by dsimp only; split <;> simp [h]⟩

theorem execKeyLoad_canon (ring : Fin 8) (hseq : Nat) (s : State) (h : s.dev.Canon) :
    ∃ d, execKeyLoad ring hseq s = .next { s with dev := d } ∧ d.Canon := by
  refine ⟨_, rfl, ?_⟩
  try dsimp -proj only
  with_reducible repeat' first
    | assumption | apply Dev.runRow_canon | apply Dev.cmdKeyLoad_canon | split

theorem execKeyErase_canon (ring : Fin 8) (hseq : Nat) (s : State) (h : s.dev.Canon) :
    ∃ d, execKeyErase ring hseq s = .next { s with dev := d } ∧ d.Canon := by
  refine ⟨_, rfl, ?_⟩
  try dsimp -proj only
  with_reducible repeat' first
    | assumption | apply Dev.runRow_canon | apply Dev.cmdKeyErase_canon | split

theorem execKeyBind_canon (ring : Fin 8) (hseq : Nat) (s : State) (h : s.dev.Canon) :
    ∃ d, execKeyBind ring hseq s = .next { s with dev := d } ∧ d.Canon := by
  refine ⟨_, rfl, ?_⟩
  try dsimp -proj only
  with_reducible repeat' first
    | assumption | apply Dev.runRow_canon | apply Dev.cmdKeyBind_canon | split

theorem execKeyInfo_canon (ring : Fin 8) (hseq : Nat) (s : State) (h : s.dev.Canon) :
    ∃ d, execKeyInfo ring hseq s = .next { s with dev := d } ∧ d.Canon := by
  refine ⟨_, rfl, ?_⟩
  try dsimp -proj only
  with_reducible repeat' first
    | assumption | apply Dev.runRow_canon | apply Dev.cmdKeyInfo_canon | split

theorem execOwnerLock_canon (ring : Fin 8) (hseq : Nat) (s : State) (h : s.dev.Canon) :
    ∃ d, execOwnerLock ring hseq s = .next { s with dev := d } ∧ d.Canon := by
  refine ⟨_, rfl, ?_⟩
  try dsimp -proj only
  with_reducible repeat' first
    | assumption | apply Dev.runRow_canon | apply Dev.cmdOwnerLock_canon | split

/-! ### Vault -/

theorem execVaultCommit_canon (ring : Fin 8) (hseq : Nat) (s : State) (h : s.dev.Canon) :
    ∃ d, execVaultCommit ring hseq s = .next { s with dev := d } ∧ d.Canon := by
  refine ⟨_, rfl, ?_⟩
  try dsimp -proj only
  with_reducible repeat' first
    | assumption | apply Dev.runRow_canon | apply Dev.cmdVaultCommit_canon | split

theorem execVaultBurnDone_canon (s : State) (h : s.dev.Canon) :
    ∃ d, execVaultBurnDone s = .next { s with dev := d } ∧ d.Canon :=
  ⟨_, rfl, by dsimp only; split <;> simp [h]⟩

/-! ### Tx -/

theorem execStep5Check_canon (port : Fin 32) (s : State) (h : s.dev.Canon) :
    ∃ d, execStep5Check port s = .next { s with dev := d } ∧ d.Canon :=
  ⟨_, rfl, by dsimp only; split <;> simp [h]⟩

theorem execFcntReserveDone_canon (slot : Fin 4096) (verified : Bool) (s : State) (h : s.dev.Canon) :
    ∃ d, execFcntReserveDone slot verified s = .next { s with dev := d } ∧ d.Canon :=
  ⟨_, rfl, by dsimp only; repeat (split <;> try (simp [h]; done))⟩

theorem execSlotCommand_canon (port : Fin 32) (s : State) (h : s.dev.Canon) :
    ∃ d, execSlotCommand port s = .next { s with dev := d } ∧ d.Canon :=
  ⟨_, rfl, by dsimp only; repeat (split <;> try (simp [h]; done))⟩

theorem execDelayLineFill_canon (port : Fin 32) (s : State) (h : s.dev.Canon) :
    ∃ d, execDelayLineFill port s = .next { s with dev := d } ∧ d.Canon :=
  ⟨_, rfl, by dsimp only; split <;> simp [h]⟩

theorem execTxRelease_canon (port : Fin 32) (power : List (Option Int)) (grant : Bool) (s : State) (h : s.dev.Canon) :
    ∃ d, execTxRelease port power grant s = .next { s with dev := d } ∧ d.Canon := by
  refine ⟨_, rfl, ?_⟩
  try dsimp -proj only
  with_reducible repeat' first
    | assumption | apply Dev.sampleGrant_canon | apply Dev.release_canon | split

theorem execTxEnd_canon (port : Fin 32) (s : State) (h : s.dev.Canon) :
    ∃ d, execTxEnd port s = .next { s with dev := d } ∧ d.Canon :=
  ⟨_, rfl, by dsimp only; split <;> simp [h]⟩

theorem execTxUnlockAbort_canon (port : Fin 32) (s : State) (h : s.dev.Canon) :
    ∃ d, execTxUnlockAbort port s = .next { s with dev := d } ∧ d.Canon := by
  refine ⟨_, rfl, ?_⟩
  try dsimp -proj only
  with_reducible repeat' first
    | assumption | apply Dev.setTxLock_canon | apply Dev.bump_canon | apply Dev.raise_canon | apply Dev.txStop_canon
    | apply Dev.loseSpare_canon | split

theorem execPaProtect_canon (port : Fin 32) (s : State) (h : s.dev.Canon) :
    ∃ d, execPaProtect port s = .next { s with dev := d } ∧ d.Canon := by
  refine ⟨_, rfl, ?_⟩
  try dsimp -proj only
  with_reducible repeat' first
    | assumption | apply Dev.put_canon | apply Dev.raise_canon | apply Dev.txStop_canon | apply Dev.loseSpare_canon
    | split

theorem execMaskViolation_canon (port : Fin 32) (window : Nat) (samples : List (Int × Int)) (s : State) (h : s.dev.Canon) :
    ∃ d, execMaskViolation port window samples s = .next { s with dev := d } ∧ d.Canon := by
  refine ⟨_, rfl, ?_⟩
  try dsimp -proj only
  with_reducible repeat' first
    | assumption | apply Dev.maskStop_canon | split

theorem execCoexGrantLoss_canon (s : State) (h : s.dev.Canon) :
    ∃ d, execCoexGrantLoss s = .next { s with dev := d } ∧ d.Canon := by
  refine ⟨_, rfl, ?_⟩
  try dsimp -proj only
  with_reducible repeat' first
    | assumption | intro _ | refine Dev.foldl_canon _ _ _ ?_ ?_ | refine Dev.foldl_canon_fst _ _ _ ?_ ?_
    | apply Dev.bump_canon | apply Dev.raise_canon | apply Dev.txStop_canon
    | (simp -proj only [canon_fst_mk, canon_snd_mk])
    | (simp -proj only [Dev.canon_mk, Tables.wf_mk, Radio.wf_mk, Vault.wf_mk]; refine ⟨?_, ?_, ?_, ?_, ?_⟩)
    | refine Dev.canon_regs ?_ | refine Dev.canon_cfg ?_ | refine Dev.canon_mem ?_ | refine Dev.canon_vault ?_
    | refine Dev.canon_rings ?_ | exact Dev.reset_rings | split

theorem execChainLock_canon (locks : ChainLocks) (s : State) (h : s.dev.Canon) :
    ∃ d, execChainLock locks s = .next { s with dev := d } ∧ d.Canon := by
  refine ⟨_, rfl, ?_⟩
  try dsimp -proj only
  with_reducible repeat' first
    | assumption | apply Dev.setRxLock_canon | apply Dev.setTxLock_canon | apply Dev.setChainState_canon | split

theorem execRxLoUnlock_canon (chain : Fin 36) (s : State) (h : s.dev.Canon) :
    ∃ d, execRxLoUnlock chain s = .next { s with dev := d } ∧ d.Canon := by
  refine ⟨_, rfl, ?_⟩
  try dsimp -proj only
  with_reducible repeat' first
    | assumption | apply Dev.setRxLock_canon | apply Dev.raise_canon | apply Dev.markLost_canon
    | apply Dev.loseSpare_canon | split

theorem execLockFail_canon (chain : Fin 36) (s : State) (h : s.dev.Canon) :
    ∃ d, execLockFail chain s = .next { s with dev := d } ∧ d.Canon :=
  ⟨_, rfl, by simp [h]⟩

theorem execBlankPin_canon (g : Fin 4) (level : Bool) (s : State) (h : s.dev.Canon) :
    ∃ d, execBlankPin g level s = .next { s with dev := d } ∧ d.Canon :=
  ⟨_, rfl, by simp [h]⟩

theorem execBlankExtExpiry_canon (g : Fin 4) (s : State) (h : s.dev.Canon) :
    ∃ d, execBlankExtExpiry g s = .next { s with dev := d } ∧ d.Canon :=
  ⟨_, rfl, by simp [h]⟩

/-! ### Qsch -/

theorem execQschFlush_canon (ring : Fin 8) (hseq : Nat) (s : State) (h : s.dev.Canon) :
    ∃ d, execQschFlush ring hseq s = .next { s with dev := d } ∧ d.Canon := by
  refine ⟨_, rfl, ?_⟩
  try dsimp -proj only
  with_reducible repeat' first
    | assumption | apply Dev.runRow_canon | apply Dev.cmdQschFlush_canon | split

theorem execFrameSelection_canon (port : Fin 32) (s : State) (h : s.dev.Canon) :
    ∃ d, execFrameSelection port s = .next { s with dev := d } ∧ d.Canon :=
  ⟨_, rfl, by simp [h]⟩

theorem execCellScan_canon (s : State) (h : s.dev.Canon) :
    ∃ d, execCellScan s = .next { s with dev := d } ∧ d.Canon :=
  ⟨_, rfl, by simp [h]⟩

/-! ### MacTx -/

theorem execMinuteBinRoll_canon (s : State) (h : s.dev.Canon) :
    ∃ d, execMinuteBinRoll s = .next { s with dev := d } ∧ d.Canon :=
  ⟨_, rfl, by simp [h]⟩

theorem execOccWindowStart_canon (s : State) (h : s.dev.Canon) :
    ∃ d, execOccWindowStart s = .next { s with dev := d } ∧ d.Canon :=
  ⟨_, rfl, by simp [h]⟩

theorem execBackoffExpiry_canon (id : Nat) (power : List (Option Int)) (grant : Bool) (s : State) (h : s.dev.Canon) :
    ∃ d, execBackoffExpiry id power grant s = .next { s with dev := d } ∧ d.Canon := by
  refine ⟨_, rfl, ?_⟩
  try dsimp -proj only
  with_reducible repeat' first
    | assumption | apply Dev.txLast_canon | apply Dev.step5_canon | apply Dev.draw_canon | apply Dev.txFinish_canon
    | apply Dev.txUpd_canon | apply Dev.slotEnter_canon | apply Dev.sampleGrant_canon | apply Dev.release_canon
    | split

theorem execLbtNewRound_canon (id : Nat) (s : State) (h : s.dev.Canon) :
    ∃ d, execLbtNewRound id s = .next { s with dev := d } ∧ d.Canon :=
  ⟨_, rfl, by dsimp only; repeat (split <;> try (simp [h]; done))⟩

theorem execAckWaitExpiry_canon (id : Nat) (s : State) (h : s.dev.Canon) :
    ∃ d, execAckWaitExpiry id s = .next { s with dev := d } ∧ d.Canon :=
  ⟨_, rfl, by dsimp only; split <;> simp [h]⟩

/-! ### Mac -/

theorem execTxRaw_canon (ring : Fin 8) (hseq : Nat) (s : State) (h : s.dev.Canon) :
    ∃ d, execTxRaw ring hseq s = .next { s with dev := d } ∧ d.Canon := by
  refine ⟨_, rfl, ?_⟩
  try dsimp -proj only
  with_reducible repeat' first
    | assumption | apply Dev.runRow_canon | apply Dev.cmdTxRaw_canon | split

theorem execMacSend_canon (ring : Fin 8) (hseq : Nat) (s : State) (h : s.dev.Canon) :
    ∃ d, execMacSend ring hseq s = .next { s with dev := d } ∧ d.Canon := by
  refine ⟨_, rfl, ?_⟩
  try dsimp -proj only
  with_reducible repeat' first
    | assumption | apply Dev.runRow_canon | apply Dev.cmdMacSend_canon | split

theorem execNodeRelease_canon (ring : Fin 8) (hseq : Nat) (s : State) (h : s.dev.Canon) :
    ∃ d, execNodeRelease ring hseq s = .next { s with dev := d } ∧ d.Canon := by
  refine ⟨_, rfl, ?_⟩
  try dsimp -proj only
  with_reducible repeat' first
    | assumption | apply Dev.runRow_canon | apply Dev.cmdNodeRelease_canon | split

theorem execNodeTiming_canon (ring : Fin 8) (hseq : Nat) (s : State) (h : s.dev.Canon) :
    ∃ d, execNodeTiming ring hseq s = .next { s with dev := d } ∧ d.Canon := by
  refine ⟨_, rfl, ?_⟩
  try dsimp -proj only
  with_reducible repeat' first
    | assumption | apply Dev.runRow_canon | apply Dev.cmdNodeTiming_canon | split

theorem execNodeScan_canon (ring : Fin 8) (hseq : Nat) (s : State) (h : s.dev.Canon) :
    ∃ d, execNodeScan ring hseq s = .next { s with dev := d } ∧ d.Canon := by
  refine ⟨_, rfl, ?_⟩
  try dsimp -proj only
  with_reducible repeat' first
    | assumption | apply Dev.runRow_canon | apply Dev.cmdNodeScan_canon | split

theorem execFloodSend_canon (ring : Fin 8) (hseq : Nat) (s : State) (h : s.dev.Canon) :
    ∃ d, execFloodSend ring hseq s = .next { s with dev := d } ∧ d.Canon := by
  refine ⟨_, rfl, ?_⟩
  try dsimp -proj only
  with_reducible repeat' first
    | assumption | apply Dev.runRow_canon | apply Dev.cmdFloodSend_canon | split

theorem execPeerAdopt_canon (ring : Fin 8) (hseq : Nat) (s : State) (h : s.dev.Canon) :
    ∃ d, execPeerAdopt ring hseq s = .next { s with dev := d } ∧ d.Canon := by
  refine ⟨_, rfl, ?_⟩
  try dsimp -proj only
  with_reducible repeat' first
    | assumption | apply Dev.runRow_canon | apply Dev.cmdPeerAdopt_canon | split

theorem execFloodRelay_canon (id : Nat) (s : State) (h : s.dev.Canon) :
    ∃ d, execFloodRelay id s = .next { s with dev := d } ∧ d.Canon := by
  refine ⟨_, rfl, ?_⟩
  try dsimp -proj only
  with_reducible repeat' first
    | assumption | intro _ | refine Dev.foldl_canon _ _ _ ?_ ?_ | refine Dev.foldl_canon_fst _ _ _ ?_ ?_
    | apply Dev.bump_canon | apply Dev.evt_canon | apply Dev.floodCopies_canon
    | (simp -proj only [canon_fst_mk, canon_snd_mk])
    | (simp -proj only [Dev.canon_mk, Tables.wf_mk, Radio.wf_mk, Vault.wf_mk]; refine ⟨?_, ?_, ?_, ?_, ?_⟩)
    | refine Dev.canon_regs ?_ | refine Dev.canon_cfg ?_ | refine Dev.canon_mem ?_ | refine Dev.canon_vault ?_
    | refine Dev.canon_rings ?_ | exact Dev.reset_rings | split

theorem execBeaconDue_canon (pan : Fin 128) (port : Fin 32) (s : State) (h : s.dev.Canon) :
    ∃ d, execBeaconDue pan port s = .next { s with dev := d } ∧ d.Canon :=
  ⟨_, rfl, by simp [h]⟩

theorem execBeaconSkip_canon (id : Nat) (s : State) (h : s.dev.Canon) :
    ∃ d, execBeaconSkip id s = .next { s with dev := d } ∧ d.Canon :=
  ⟨_, rfl, by dsimp only; split <;> simp [h]⟩

theorem execPeerAbsent_canon (peer : Fin 64) (s : State) (h : s.dev.Canon) :
    ∃ d, execPeerAbsent peer s = .next { s with dev := d } ∧ d.Canon :=
  ⟨_, rfl, by dsimp only; split <;> simp [h]⟩

theorem execPeerAdoptable_canon (peer : Fin 64) (s : State) (h : s.dev.Canon) :
    ∃ d, execPeerAdoptable peer s = .next { s with dev := d } ∧ d.Canon := by
  refine ⟨_, rfl, ?_⟩
  try dsimp -proj only
  with_reducible repeat' first
    | assumption | apply Dev.setPeer_canon | apply Dev.raise_canon | apply Dev.autoAdopt_canon | split

/-! ### Rxp -/

theorem execPreambleDetect_canon (port : Fin 32) (entry : Fin 16) (chan : Fin 64) (s : State) (h : s.dev.Canon) :
    ∃ d, execPreambleDetect port entry chan s = .next { s with dev := d } ∧ d.Canon := by
  refine ⟨_, rfl, ?_⟩
  try dsimp -proj only
  with_reducible repeat' first
    | assumption | intro _ | refine Dev.foldl_canon _ _ _ ?_ ?_ | refine Dev.foldl_canon_fst _ _ _ ?_ ?_
    | apply Dev.setCtxs_canon | apply Dev.bump_canon | apply Dev.evt_canon | apply Dev.put_canon
    | apply Dev.raise_canon | (simp -proj only [canon_fst_mk, canon_snd_mk])
    | (simp -proj only [Dev.canon_mk, Tables.wf_mk, Radio.wf_mk, Vault.wf_mk]; refine ⟨?_, ?_, ?_, ?_, ?_⟩)
    | refine Dev.canon_regs ?_ | refine Dev.canon_cfg ?_ | refine Dev.canon_mem ?_ | refine Dev.canon_vault ?_
    | refine Dev.canon_rings ?_ | exact Dev.reset_rings | split

theorem execSyncFound_canon (id : Nat) (strength snr cfo : Int) (level : StreamLevel) (word : BitVec 32) (s : State) (h : s.dev.Canon) :
    ∃ d, execSyncFound id strength snr cfo level word s = .next { s with dev := d } ∧ d.Canon := by
  refine ⟨_, rfl, ?_⟩
  try dsimp -proj only
  with_reducible repeat' first
    | assumption | apply Dev.ctxUpd_canon | apply Dev.ctxFree_canon | apply Dev.evt_canon | split

theorem execSyncTimeout_canon (id : Nat) (s : State) (h : s.dev.Canon) :
    ∃ d, execSyncTimeout id s = .next { s with dev := d } ∧ d.Canon :=
  ⟨_, rfl, by dsimp only; split <;> simp [h]⟩

theorem execMergeWindowClose_canon (id : Nat) (snr : Int) (s : State) (h : s.dev.Canon) :
    ∃ d, execMergeWindowClose id snr s = .next { s with dev := d } ∧ d.Canon := by
  refine ⟨_, rfl, ?_⟩
  try dsimp -proj only
  with_reducible repeat' first
    | assumption | intro _ | refine Dev.foldl_canon _ _ _ ?_ ?_ | refine Dev.foldl_canon_fst _ _ _ ?_ ?_
    | apply Dev.ctxFree_canon | apply Dev.evt_canon | apply Dev.ctxUpd_canon | split

theorem execPhrInvalid_canon (id : Nat) (frame : FrameStart) (s : State) (h : s.dev.Canon) :
    ∃ d, execPhrInvalid id frame s = .next { s with dev := d } ∧ d.Canon := by
  refine ⟨_, rfl, ?_⟩
  try dsimp -proj only
  with_reducible repeat' first
    | assumption | apply Dev.ctxFree_canon | apply Dev.deliver_canon | apply Dev.leaveCheck_canon
    | apply Dev.rxDeliver_canon | split

theorem execFrameCheck_canon (id : Nat) (fcs2 white : Bool) (len : BitVec 11) (bytes : List Byte) (s : State) (h : s.dev.Canon) :
    ∃ d, execFrameCheck id fcs2 white len bytes s = .next { s with dev := d } ∧ d.Canon := by
  refine ⟨_, rfl, ?_⟩
  try dsimp -proj only
  with_reducible repeat' first
    | assumption | apply Dev.checkPassed_canon | apply Dev.checkFailed_canon | split

theorem execContextAbandon_canon (id : Nat) (s : State) (h : s.dev.Canon) :
    ∃ d, execContextAbandon id s = .next { s with dev := d } ∧ d.Canon :=
  ⟨_, rfl, by dsimp only; split <;> simp [h]⟩

theorem execGainStepDown_canon (chain : Fin 36) (s : State) (h : s.dev.Canon) :
    ∃ d, execGainStepDown chain s = .next { s with dev := d } ∧ d.Canon :=
  ⟨_, rfl, by simp [h]⟩

theorem execRxRecordWrite_canon (ring : Fin 4) (s : State) (h : s.dev.Canon) :
    ∃ d, execRxRecordWrite ring s = .next { s with dev := d } ∧ d.Canon :=
  ⟨_, rfl, by dsimp only; split <;> simp [h]⟩

theorem execRxRingTimeout_canon (ring : Fin 4) (s : State) (h : s.dev.Canon) :
    ∃ d, execRxRingTimeout ring s = .next { s with dev := d } ∧ d.Canon :=
  ⟨_, rfl, by simp [h]⟩

theorem execRxRingDmaError_canon (ring : Fin 4) (s : State) (h : s.dev.Canon) :
    ∃ d, execRxRingDmaError ring s = .next { s with dev := d } ∧ d.Canon :=
  ⟨_, rfl, by simp [h]⟩

/-! ### Pawn -/

theorem execPawnLoad_canon (ring : Fin 8) (hseq : Nat) (s : State) (h : s.dev.Canon) :
    ∃ d, execPawnLoad ring hseq s = .next { s with dev := d } ∧ d.Canon := by
  refine ⟨_, rfl, ?_⟩
  try dsimp -proj only
  with_reducible repeat' first
    | assumption | apply Dev.runRow_canon | apply Dev.cmdPawnLoad_canon | split

theorem execPawnSeal_canon (ring : Fin 8) (hseq : Nat) (s : State) (h : s.dev.Canon) :
    ∃ d, execPawnSeal ring hseq s = .next { s with dev := d } ∧ d.Canon := by
  refine ⟨_, rfl, ?_⟩
  try dsimp -proj only
  with_reducible repeat' first
    | assumption | apply Dev.runRow_canon | apply Dev.cmdPawnSeal_canon | split

theorem execPawnStart_canon (ring : Fin 8) (hseq : Nat) (s : State) (h : s.dev.Canon) :
    ∃ d, execPawnStart ring hseq s = .next { s with dev := d } ∧ d.Canon := by
  refine ⟨_, rfl, ?_⟩
  try dsimp -proj only
  with_reducible repeat' first
    | assumption | apply Dev.runRow_canon | apply Dev.cmdPawnStart_canon | split

theorem execPawnStop_canon (ring : Fin 8) (hseq : Nat) (s : State) (h : s.dev.Canon) :
    ∃ d, execPawnStop ring hseq s = .next { s with dev := d } ∧ d.Canon := by
  refine ⟨_, rfl, ?_⟩
  try dsimp -proj only
  with_reducible repeat' first
    | assumption | apply Dev.runRow_canon | apply Dev.cmdPawnStop_canon | split

theorem execPawnChain_canon (ring : Fin 8) (hseq : Nat) (s : State) (h : s.dev.Canon) :
    ∃ d, execPawnChain ring hseq s = .next { s with dev := d } ∧ d.Canon := by
  refine ⟨_, rfl, ?_⟩
  try dsimp -proj only
  with_reducible repeat' first
    | assumption | apply Dev.runRow_canon | apply Dev.cmdPawnChain_canon | split

theorem execPawnClear_canon (ring : Fin 8) (hseq : Nat) (s : State) (h : s.dev.Canon) :
    ∃ d, execPawnClear ring hseq s = .next { s with dev := d } ∧ d.Canon := by
  refine ⟨_, rfl, ?_⟩
  try dsimp -proj only
  with_reducible repeat' first
    | assumption | apply Dev.runRow_canon | apply Dev.cmdPawnClear_canon | split

theorem execPawnSetup_canon (s : State) (h : s.dev.Canon) :
    ∃ d, execPawnSetup s = .next { s with dev := d } ∧ d.Canon :=
  ⟨_, rfl, by dsimp only; repeat (split <;> try (simp [h]; done))⟩

theorem execPawnSend_canon (g : Fin 4) (s : State) (h : s.dev.Canon) :
    ∃ d, execPawnSend g s = .next { s with dev := d } ∧ d.Canon :=
  ⟨_, rfl, by simp [h]⟩

theorem execPawnRetryTimeout_canon (image : Fin 4) (chain : Fin 256) (s : State) (h : s.dev.Canon) :
    ∃ d, execPawnRetryTimeout image chain s = .next { s with dev := d } ∧ d.Canon := by
  refine ⟨_, rfl, ?_⟩
  try dsimp -proj only
  with_reducible repeat' first
    | assumption | apply Dev.setChain_canon | apply Dev.bump_canon | apply Dev.chainFail_canon | split

theorem execPawnStallTimeout_canon (image : Fin 4) (chain : Fin 256) (s : State) (h : s.dev.Canon) :
    ∃ d, execPawnStallTimeout image chain s = .next { s with dev := d } ∧ d.Canon :=
  ⟨_, rfl, by dsimp only; split <;> simp [h]⟩

/-! ### Tables -/

theorem execBar2Read_canon (off : Nat) (whole : Bool) (errs : List LineError) (s : State) (h : s.dev.Canon) :
    ∃ d, execBar2Read off whole errs s = .next { s with dev := d } ∧ d.Canon := by
  refine ⟨_, rfl, ?_⟩
  try dsimp -proj only
  with_reducible repeat' first
    | assumption | apply Dev.touchWord_canon | apply Dev.readLine_canon | apply Dev.emit_canon | split

theorem execBar2Write_canon (off bytes : Nat) (all : Bool) (value : Nat) (errs : List LineError) (s : State) (h : s.dev.Canon) :
    ∃ d, execBar2Write off bytes all value errs s = .next { s with dev := d } ∧ d.Canon :=
  ⟨_, rfl, by simp [h]⟩

theorem execDirLoad_canon (ring : Fin 8) (hseq : Nat) (s : State) (h : s.dev.Canon) :
    ∃ d, execDirLoad ring hseq s = .next { s with dev := d } ∧ d.Canon := by
  refine ⟨_, rfl, ?_⟩
  try dsimp -proj only
  with_reducible repeat' first
    | assumption | apply Dev.runRow_canon | apply Dev.cmdDirLoad_canon | split

theorem execDirLoadBatch_canon (errs : List LineError) (s : State) (h : s.dev.Canon) :
    ∃ d, execDirLoadBatch errs s = .next { s with dev := d } ∧ d.Canon :=
  ⟨_, rfl, by simp [h]⟩

theorem execDirRemove_canon (ring : Fin 8) (hseq : Nat) (s : State) (h : s.dev.Canon) :
    ∃ d, execDirRemove ring hseq s = .next { s with dev := d } ∧ d.Canon := by
  refine ⟨_, rfl, ?_⟩
  try dsimp -proj only
  with_reducible repeat' first
    | assumption | apply Dev.runRow_canon | apply Dev.cmdDirRemove_canon | split

theorem execDirFind_canon (ring : Fin 8) (hseq : Nat) (s : State) (h : s.dev.Canon) :
    ∃ d, execDirFind ring hseq s = .next { s with dev := d } ∧ d.Canon := by
  refine ⟨_, rfl, ?_⟩
  try dsimp -proj only
  with_reducible repeat' first
    | assumption | apply Dev.runRow_canon | apply Dev.cmdDirFind_canon | split

theorem execFwdFlush_canon (ring : Fin 8) (hseq : Nat) (s : State) (h : s.dev.Canon) :
    ∃ d, execFwdFlush ring hseq s = .next { s with dev := d } ∧ d.Canon := by
  refine ⟨_, rfl, ?_⟩
  try dsimp -proj only
  with_reducible repeat' first
    | assumption | apply Dev.runRow_canon | apply Dev.cmdFwdFlush_canon | split

theorem execTmemClearLine_canon (ring : Fin 8) (hseq : Nat) (s : State) (h : s.dev.Canon) :
    ∃ d, execTmemClearLine ring hseq s = .next { s with dev := d } ∧ d.Canon := by
  refine ⟨_, rfl, ?_⟩
  try dsimp -proj only
  with_reducible repeat' first
    | assumption | apply Dev.runRow_canon | apply Dev.cmdClearLine_canon | split

theorem execScrubSlice_canon (lines : Nat) (errs : List LineError) (s : State) (h : s.dev.Canon) :
    ∃ d, execScrubSlice lines errs s = .next { s with dev := d } ∧ d.Canon :=
  ⟨_, rfl, by simp [h]⟩

theorem execTimingClearSlice_canon (s : State) (h : s.dev.Canon) :
    ∃ d, execTimingClearSlice s = .next { s with dev := d } ∧ d.Canon := by
  refine ⟨_, rfl, ?_⟩
  try dsimp -proj only
  with_reducible repeat' first
    | assumption | intro _ | refine Dev.foldl_canon _ _ _ ?_ ?_ | refine Dev.foldl_canon_fst _ _ _ ?_ ?_
    | apply Dev.clearTiming_canon | apply Dev.put_canon | (simp -proj only [canon_fst_mk, canon_snd_mk])
    | (simp -proj only [Dev.canon_mk, Tables.wf_mk, Radio.wf_mk, Vault.wf_mk]; refine ⟨?_, ?_, ?_, ?_, ?_⟩)
    | refine Dev.canon_regs ?_ | refine Dev.canon_cfg ?_ | refine Dev.canon_mem ?_ | refine Dev.canon_vault ?_
    | refine Dev.canon_rings ?_ | exact Dev.reset_rings | split

theorem execTelemSnapshot_canon (s : State) (h : s.dev.Canon) :
    ∃ d, execTelemSnapshot s = .next { s with dev := d } ∧ d.Canon :=
  ⟨_, rfl, by simp [h]⟩

theorem execTelemWriteSlice_canon (lines : Nat) (s : State) (h : s.dev.Canon) :
    ∃ d, execTelemWriteSlice lines s = .next { s with dev := d } ∧ d.Canon :=
  ⟨_, rfl, by simp [h]⟩

theorem execSweepVisit_canon (g : Fin 4) (n : Reads Nat) (s : State) (h : s.dev.Canon) :
    ∃ d, execSweepVisit g n s = .next { s with dev := d } ∧ d.Canon := by
  refine ⟨_, rfl, ?_⟩
  try dsimp -proj only
  with_reducible repeat' first
    | assumption | apply Dev.strikes_canon | apply Dev.sweep_canon | apply Dev.bgDo_canon | split

/-! ### Brioz -/

theorem execOpenSession_canon (port : Fin 2) (addr udp : Nat) (tag : Option Nat) (bytes : List Byte) (s : State) (h : s.dev.Canon) :
    ∃ d, execOpenSession port addr udp tag bytes s = .next { s with dev := d } ∧ d.Canon := by
  refine ⟨_, rfl, ?_⟩
  try dsimp -proj only
  with_reducible repeat' first
    | assumption | apply Dev.brzHear_canon | apply Dev.brzOpen_canon | split

theorem execCloseSession_canon (port : Fin 2) (addr udp : Nat) (tag : Option Nat) (bytes : List Byte) (s : State) (h : s.dev.Canon) :
    ∃ d, execCloseSession port addr udp tag bytes s = .next { s with dev := d } ∧ d.Canon := by
  refine ⟨_, rfl, ?_⟩
  try dsimp -proj only
  with_reducible repeat' first
    | assumption | apply Dev.brzHear_canon | apply Dev.brzClose_canon | split

theorem execKeepalive_canon (port : Fin 2) (addr udp : Nat) (tag : Option Nat) (bytes : List Byte) (s : State) (h : s.dev.Canon) :
    ∃ d, execKeepalive port addr udp tag bytes s = .next { s with dev := d } ∧ d.Canon := by
  refine ⟨_, rfl, ?_⟩
  try dsimp -proj only
  with_reducible repeat' first
    | assumption | apply Dev.brzHear_canon | apply Dev.brzKeepalive_canon | split

theorem execBrzCmd_canon (port : Fin 2) (addr udp : Nat) (tag : Option Nat) (bytes : List Byte) (s : State) (h : s.dev.Canon) :
    ∃ d, execBrzCmd port addr udp tag bytes s = .next { s with dev := d } ∧ d.Canon := by
  refine ⟨_, rfl, ?_⟩
  try dsimp -proj only
  with_reducible repeat' first
    | assumption | apply Dev.brzHear_canon | apply Dev.brzCmd_canon | split

theorem execHdata_canon (port : Fin 2) (addr udp : Nat) (tag : Option Nat) (bytes : List Byte) (s : State) (h : s.dev.Canon) :
    ∃ d, execHdata port addr udp tag bytes s = .next { s with dev := d } ∧ d.Canon := by
  refine ⟨_, rfl, ?_⟩
  try dsimp -proj only
  with_reducible repeat' first
    | assumption | apply Dev.brzHear_canon | apply Dev.brzData_canon | split

theorem execHdataWrite_canon (errs : List LineError) (s : State) (h : s.dev.Canon) :
    ∃ d, execHdataWrite errs s = .next { s with dev := d } ∧ d.Canon :=
  ⟨_, rfl, by simp [h]⟩

theorem execSessionIdleTimeout_canon (port : Fin 2) (num : Fin 4) (s : State) (h : s.dev.Canon) :
    ∃ d, execSessionIdleTimeout port num s = .next { s with dev := d } ∧ d.Canon :=
  ⟨_, rfl, by dsimp only; split <;> simp [h]⟩

theorem execKeepaliveSend_canon (port : Fin 2) (num : Fin 4) (s : State) (h : s.dev.Canon) :
    ∃ d, execKeepaliveSend port num s = .next { s with dev := d } ∧ d.Canon :=
  ⟨_, rfl, by dsimp only; split <;> simp [h]⟩

theorem execDatagramSend_canon (port : Fin 2) (num : Fin 4) (kind : Fin 3) (s : State) (h : s.dev.Canon) :
    ∃ d, execDatagramSend port num kind s = .next { s with dev := d } ∧ d.Canon :=
  ⟨_, rfl, by dsimp only; repeat (split <;> try (simp [h]; done))⟩

theorem execTelemDatagram_canon (port : Fin 2) (num : Reads (Fin 4)) (s : State) (h : s.dev.Canon) :
    ∃ d, execTelemDatagram port num s = .next { s with dev := d } ∧ d.Canon := by
  refine ⟨_, rfl, ?_⟩
  try dsimp -proj only
  with_reducible repeat' first
    | assumption | apply Dev.strikes_canon | apply Dev.sendTelem_canon | split

/-! ### Lowpan -/

theorem execReasmTimeout_canon (s : State) (h : s.dev.Canon) :
    ∃ d, execReasmTimeout s = .next { s with dev := d } ∧ d.Canon :=
  ⟨_, rfl, by dsimp only; split <;> simp [h]⟩

theorem execDownlinkPacket_canon (port : Fin 2) (tag : Option Nat) (packet : IpPacket) (s : State) (h : s.dev.Canon) :
    ∃ d, execDownlinkPacket port tag packet s = .next { s with dev := d } ∧ d.Canon := by
  refine ⟨_, rfl, ?_⟩
  try dsimp -proj only
  with_reducible repeat' first
    | assumption | intro _ | refine Dev.foldl_canon _ _ _ ?_ ?_ | refine Dev.foldl_canon_fst _ _ _ ?_ ?_
    | apply Dev.hear_canon | apply Dev.bump_canon | apply Dev.toMesh_canon | split

/-! ### Uplink -/

theorem execUplinkPipeline_canon (g : Fin 4) (errs : List LineError) (s : State) (h : s.dev.Canon) :
    ∃ d, execUplinkPipeline g errs s = .next { s with dev := d } ∧ d.Canon := by
  refine ⟨_, rfl, ?_⟩
  try dsimp -proj only
  with_reducible repeat' first
    | assumption | intro _ | refine Dev.foldl_canon _ _ _ ?_ ?_ | refine Dev.foldl_canon_fst _ _ _ ?_ ?_
    | apply Dev.strikes_canon | apply Dev.uplinkFrame_canon | apply Dev.rxUnpark_canon
    | (simp -proj only [canon_fst_mk, canon_snd_mk])
    | (simp -proj only [Dev.canon_mk, Tables.wf_mk, Radio.wf_mk, Vault.wf_mk]; refine ⟨?_, ?_, ?_, ?_, ?_⟩)
    | refine Dev.canon_regs ?_ | refine Dev.canon_cfg ?_ | refine Dev.canon_mem ?_ | refine Dev.canon_vault ?_
    | refine Dev.canon_rings ?_ | exact Dev.reset_rings | split

/-! ### Timers -/

theorem execCountClock_canon (n : Fin 16) (s : State) (h : s.dev.Canon) :
    ∃ d, execCountClock n s = .next { s with dev := d } ∧ d.Canon :=
  ⟨_, rfl, by simp [h]⟩

theorem execCapture_canon (src : Fin 7) (rising : Bool) (s : State) (h : s.dev.Canon) :
    ∃ d, execCapture src rising s = .next { s with dev := d } ∧ d.Canon := by
  refine ⟨_, rfl, ?_⟩
  try dsimp -proj only
  with_reducible repeat' first
    | assumption | intro _ | refine Dev.foldl_canon _ _ _ ?_ ?_ | refine Dev.foldl_canon_fst _ _ _ ?_ ?_
    | apply Dev.evt_canon | apply Dev.ppsEdge_canon | apply Dev.motionEdge_canon | apply Dev.captureEdge_canon
    | (simp -proj only [canon_fst_mk, canon_snd_mk])
    | (simp -proj only [Dev.canon_mk, Tables.wf_mk, Radio.wf_mk, Vault.wf_mk]; refine ⟨?_, ?_, ?_, ?_, ?_⟩)
    | refine Dev.canon_regs ?_ | refine Dev.canon_cfg ?_ | refine Dev.canon_mem ?_ | refine Dev.canon_vault ?_
    | refine Dev.canon_rings ?_ | exact Dev.reset_rings | split

theorem execDebugHalt_canon (halt : Bool) (s : State) (h : s.dev.Canon) :
    ∃ d, execDebugHalt halt s = .next { s with dev := d } ∧ d.Canon :=
  ⟨_, rfl, by simp [h]⟩

/-! ### Backhaul -/

theorem execEgressService_canon (port : Fin 2) (s : State) (h : s.dev.Canon) :
    ∃ d, execEgressService port s = .next { s with dev := d } ∧ d.Canon :=
  ⟨_, rfl, by simp [h]⟩

theorem execLinkChange_canon (port : Fin 2) (up fec : Bool) (s : State) (h : s.dev.Canon) :
    ∃ d, execLinkChange port up fec s = .next { s with dev := d } ∧ d.Canon :=
  ⟨_, rfl, by simp [h]⟩

theorem execModuleInsert_canon (port : Fin 2) (s : State) (h : s.dev.Canon) :
    ∃ d, execModuleInsert port s = .next { s with dev := d } ∧ d.Canon := by
  refine ⟨_, rfl, ?_⟩
  try dsimp -proj only
  with_reducible repeat' first
    | assumption | intro _ | refine Dev.foldl_canon _ _ _ ?_ ?_ | refine Dev.foldl_canon_fst _ _ _ ?_ ?_
    | apply Dev.put_canon | apply Dev.vsfpUpdate_canon | apply Dev.raise_canon
    | (simp -proj only [canon_fst_mk, canon_snd_mk])
    | (simp -proj only [Dev.canon_mk, Tables.wf_mk, Radio.wf_mk, Vault.wf_mk]; refine ⟨?_, ?_, ?_, ?_, ?_⟩)
    | refine Dev.canon_regs ?_ | refine Dev.canon_cfg ?_ | refine Dev.canon_mem ?_ | refine Dev.canon_vault ?_
    | refine Dev.canon_rings ?_ | exact Dev.reset_rings | split

theorem execModuleRemove_canon (port : Fin 2) (s : State) (h : s.dev.Canon) :
    ∃ d, execModuleRemove port s = .next { s with dev := d } ∧ d.Canon := by
  refine ⟨_, rfl, ?_⟩
  try dsimp -proj only
  with_reducible repeat' first
    | assumption | intro _ | refine Dev.foldl_canon _ _ _ ?_ ?_ | refine Dev.foldl_canon_fst _ _ _ ?_ ?_
    | apply Dev.put_canon | apply Dev.vsfpUpdate_canon | apply Dev.raise_canon
    | (simp -proj only [canon_fst_mk, canon_snd_mk])
    | (simp -proj only [Dev.canon_mk, Tables.wf_mk, Radio.wf_mk, Vault.wf_mk]; refine ⟨?_, ?_, ?_, ?_, ?_⟩)
    | refine Dev.canon_regs ?_ | refine Dev.canon_cfg ?_ | refine Dev.canon_mem ?_ | refine Dev.canon_vault ?_
    | refine Dev.canon_rings ?_ | exact Dev.reset_rings | split

theorem execVsfpOvercurrent_canon (port : Fin 2) (s : State) (h : s.dev.Canon) :
    ∃ d, execVsfpOvercurrent port s = .next { s with dev := d } ∧ d.Canon := by
  refine ⟨_, rfl, ?_⟩
  try dsimp -proj only
  with_reducible repeat' first
    | assumption | intro _ | refine Dev.foldl_canon _ _ _ ?_ ?_ | refine Dev.foldl_canon_fst _ _ _ ?_ ?_
    | apply Dev.vsfpUpdate_canon | apply Dev.raise_canon | (simp -proj only [canon_fst_mk, canon_snd_mk])
    | (simp -proj only [Dev.canon_mk, Tables.wf_mk, Radio.wf_mk, Vault.wf_mk]; refine ⟨?_, ?_, ?_, ?_, ?_⟩)
    | refine Dev.canon_regs ?_ | refine Dev.canon_cfg ?_ | refine Dev.canon_mem ?_ | refine Dev.canon_vault ?_
    | refine Dev.canon_rings ?_ | exact Dev.reset_rings | split

theorem execBhlModuleRead_canon (ring : Fin 8) (hseq : Nat) (bytes : List Byte) (s : State) (h : s.dev.Canon) :
    ∃ d, execBhlModuleRead ring hseq bytes s = .next { s with dev := d } ∧ d.Canon := by
  refine ⟨_, rfl, ?_⟩
  try dsimp -proj only
  with_reducible repeat' first
    | assumption | apply Dev.runRow_canon | apply Dev.cmdModuleRead_canon | split

theorem execNeighborSolicitation_canon (port : Fin 2) (tag : Option Nat) (target : Nat) (s : State) (h : s.dev.Canon) :
    ∃ d, execNeighborSolicitation port tag target s = .next { s with dev := d } ∧ d.Canon := by
  refine ⟨_, rfl, ?_⟩
  try dsimp -proj only
  with_reducible repeat' first
    | assumption | intro _ | refine Dev.foldl_canon _ _ _ ?_ ?_ | refine Dev.foldl_canon_fst _ _ _ ?_ ?_
    | apply Dev.hear_canon | apply Dev.frameOut_canon | apply Dev.bump_canon | split

theorem execEchoRequest_canon (port : Fin 2) (tag : Option Nat) (target : Nat) (s : State) (h : s.dev.Canon) :
    ∃ d, execEchoRequest port tag target s = .next { s with dev := d } ∧ d.Canon := by
  refine ⟨_, rfl, ?_⟩
  try dsimp -proj only
  with_reducible repeat' first
    | assumption | intro _ | refine Dev.foldl_canon _ _ _ ?_ ?_ | refine Dev.foldl_canon_fst _ _ _ ?_ ?_
    | apply Dev.hear_canon | apply Dev.frameOut_canon | apply Dev.bump_canon | split

theorem execRouterAdvertisement_canon (port : Fin 2) (tag : Option Nat) (mac : BitVec 48) (s : State) (h : s.dev.Canon) :
    ∃ d, execRouterAdvertisement port tag mac s = .next { s with dev := d } ∧ d.Canon := by
  refine ⟨_, rfl, ?_⟩
  try dsimp -proj only
  with_reducible repeat' first
    | assumption | intro _ | refine Dev.foldl_canon _ _ _ ?_ ?_ | refine Dev.foldl_canon_fst _ _ _ ?_ ?_
    | apply Dev.hear_canon | (simp -proj only [canon_fst_mk, canon_snd_mk])
    | (simp -proj only [Dev.canon_mk, Tables.wf_mk, Radio.wf_mk, Vault.wf_mk]; refine ⟨?_, ?_, ?_, ?_, ?_⟩)
    | refine Dev.canon_regs ?_ | refine Dev.canon_cfg ?_ | refine Dev.canon_mem ?_ | refine Dev.canon_vault ?_
    | refine Dev.canon_rings ?_ | exact Dev.reset_rings | split

theorem execPtpExchange_canon (exchange : PtpExchange) (s : State) (h : s.dev.Canon) :
    ∃ d, execPtpExchange exchange s = .next { s with dev := d } ∧ d.Canon := by
  have h1 : ∀ p, Dev.Canon (s.dev.hear p exchange.tag (fun x => if exchange.twoStep then x.hear p exchange.tag id else x)) :=
    fun p => Dev.hear_canon _ _ _ _ h (fun x hx => canon_bif (Dev.hear_canon x p _ id hx (fun _ y => y)) hx)
  exact ⟨_, rfl, canon_bif (Dev.ptpDelay_canon _ _ _ (h1 _)) (h1 _)⟩

theorem execPtpAnnounce_canon (heard : Announce) (s : State) (h : s.dev.Canon) :
    ∃ d, execPtpAnnounce heard s = .next { s with dev := d } ∧ d.Canon := by
  refine ⟨_, rfl, ?_⟩
  try dsimp -proj only
  with_reducible repeat' first
    | assumption | intro _ | refine Dev.foldl_canon _ _ _ ?_ ?_ | refine Dev.foldl_canon_fst _ _ _ ?_ ?_
    | apply Dev.hear_canon | apply Dev.ptpChoose_canon | (simp -proj only [canon_fst_mk, canon_snd_mk])
    | (simp -proj only [Dev.canon_mk, Tables.wf_mk, Radio.wf_mk, Vault.wf_mk]; refine ⟨?_, ?_, ?_, ?_, ?_⟩)
    | refine Dev.canon_regs ?_ | refine Dev.canon_cfg ?_ | refine Dev.canon_mem ?_ | refine Dev.canon_vault ?_
    | refine Dev.canon_rings ?_ | exact Dev.reset_rings | split

theorem execPtpSyncTimeout_canon (s : State) (h : s.dev.Canon) :
    ∃ d, execPtpSyncTimeout s = .next { s with dev := d } ∧ d.Canon :=
  ⟨_, rfl, by simp [h]⟩

theorem execAnnounceTimeout_canon (s : State) (h : s.dev.Canon) :
    ∃ d, execAnnounceTimeout s = .next { s with dev := d } ∧ d.Canon := by
  refine ⟨_, rfl, ?_⟩
  try dsimp -proj only
  with_reducible repeat' first
    | assumption | intro _ | refine Dev.foldl_canon _ _ _ ?_ ?_ | refine Dev.foldl_canon_fst _ _ _ ?_ ?_
    | apply Dev.ptpChoose_canon | apply Dev.ptpUnlock_canon | (simp -proj only [canon_fst_mk, canon_snd_mk])
    | (simp -proj only [Dev.canon_mk, Tables.wf_mk, Radio.wf_mk, Vault.wf_mk]; refine ⟨?_, ?_, ?_, ?_, ?_⟩)
    | refine Dev.canon_regs ?_ | refine Dev.canon_cfg ?_ | refine Dev.canon_mem ?_ | refine Dev.canon_vault ?_
    | refine Dev.canon_rings ?_ | exact Dev.reset_rings | split

theorem execPpsInEdge_canon (s : State) (h : s.dev.Canon) :
    ∃ d, execPpsInEdge s = .next { s with dev := d } ∧ d.Canon := by
  refine ⟨_, rfl, ?_⟩
  try dsimp -proj only
  with_reducible repeat' first
    | assumption | apply Dev.ppsEdge_canon | apply Dev.captureEdge_canon | split

theorem execPpsOutSecond_canon (s : State) (h : s.dev.Canon) :
    ∃ d, execPpsOutSecond s = .next { s with dev := d } ∧ d.Canon :=
  ⟨_, rfl, by simp [h]⟩

theorem execPcieReset_canon (kind : Fin 3) (s : State) (h : s.dev.Canon) :
    ∃ d, execPcieReset kind s = .next { s with dev := d } ∧ d.Canon := by
  refine ⟨_, rfl, ?_⟩
  try dsimp -proj only
  with_reducible repeat' first
    | assumption | intro _ | refine Dev.foldl_canon _ _ _ ?_ ?_ | refine Dev.foldl_canon_fst _ _ _ ?_ ?_
    | apply Dev.pcieReset_canon | apply Dev.bump_canon | apply Dev.put_canon
    | (simp -proj only [canon_fst_mk, canon_snd_mk])
    | (simp -proj only [Dev.canon_mk, Tables.wf_mk, Radio.wf_mk, Vault.wf_mk]; refine ⟨?_, ?_, ?_, ?_, ?_⟩)
    | refine Dev.canon_regs ?_ | refine Dev.canon_cfg ?_ | refine Dev.canon_mem ?_ | refine Dev.canon_vault ?_
    | refine Dev.canon_rings ?_ | exact Dev.reset_rings | split

theorem execPcieLinkUp_canon (host : PcieHost) (link : PcieTrained) (s : State) (h : s.dev.Canon) :
    ∃ d, execPcieLinkUp host link s = .next { s with dev := d } ∧ d.Canon := by
  refine ⟨_, rfl, ?_⟩
  try dsimp -proj only
  with_reducible repeat' first
    | assumption | intro _ | refine Dev.foldl_canon _ _ _ ?_ ?_ | refine Dev.foldl_canon_fst _ _ _ ?_ ?_
    | apply Dev.put_canon | apply Dev.linkLost_canon | (simp -proj only [canon_fst_mk, canon_snd_mk])
    | (simp -proj only [Dev.canon_mk, Tables.wf_mk, Radio.wf_mk, Vault.wf_mk]; refine ⟨?_, ?_, ?_, ?_, ?_⟩)
    | refine Dev.canon_regs ?_ | refine Dev.canon_cfg ?_ | refine Dev.canon_mem ?_ | refine Dev.canon_vault ?_
    | refine Dev.canon_rings ?_ | exact Dev.reset_rings | split

/-! ### Calibration -/

theorem execCalDue_canon (g : Fin 4) (temps : List Int) (s : State) (h : s.dev.Canon) :
    ∃ d, execCalDue g temps s = .next { s with dev := d } ∧ d.Canon :=
  ⟨_, rfl, by simp [h]⟩

theorem execCalStep_canon (g : Fin 4) (ok : Bool) (found : CalFound) (s : State) (h : s.dev.Canon) :
    ∃ d, execCalStep g ok found s = .next { s with dev := d } ∧ d.Canon := by
  refine ⟨_, rfl, ?_⟩
  try dsimp -proj only
  with_reducible repeat' first
    | assumption | apply Dev.calStep_canon | split

theorem execCastlingSettled_canon (g : Fin 4) (s : State) (h : s.dev.Canon) :
    ∃ d, execCastlingSettled g s = .next { s with dev := d } ∧ d.Canon := by
  refine ⟨_, rfl, ?_⟩
  try dsimp -proj only
  with_reducible repeat' first
    | assumption | apply Dev.setCalg_canon | apply Dev.setTxLock_canon | apply Dev.setRxLock_canon | split

theorem execCastlingReturn_canon (g : Fin 4) (chain : Fin 9) (s : State) (h : s.dev.Canon) :
    ∃ d, execCastlingReturn g chain s = .next { s with dev := d } ∧ d.Canon := by
  refine ⟨_, rfl, ?_⟩
  try dsimp -proj only
  with_reducible repeat' first
    | assumption | apply Dev.calReturn_canon | split

theorem execCalRequest_canon (ring : Fin 8) (hseq : Nat) (s : State) (h : s.dev.Canon) :
    ∃ d, execCalRequest ring hseq s = .next { s with dev := d } ∧ d.Canon := by
  refine ⟨_, rfl, ?_⟩
  try dsimp -proj only
  with_reducible repeat' first
    | assumption | apply Dev.runRow_canon | apply Dev.cmdCalRequest_canon | split

/-! ### Resign -/

theorem execSag_canon (s : State) (h : s.dev.Canon) :
    ∃ d, execSag s = .next { s with dev := d } ∧ d.Canon := by
  refine ⟨_, rfl, ?_⟩
  try dsimp -proj only
  with_reducible repeat' first
    | assumption | intro _ | refine Dev.foldl_canon _ _ _ ?_ ?_ | refine Dev.foldl_canon_fst _ _ _ ?_ ?_
    | apply Dev.resign_canon | apply Dev.aonFed_canon | apply Dev.abandonUp_canon | apply Dev.powerOff_canon
    | apply Dev.resetHold_canon | apply Dev.cut_canon | (simp -proj only [canon_fst_mk, canon_snd_mk])
    | (simp -proj only [Dev.canon_mk, Tables.wf_mk, Radio.wf_mk, Vault.wf_mk]; refine ⟨?_, ?_, ?_, ?_, ?_⟩)
    | refine Dev.canon_regs ?_ | refine Dev.canon_cfg ?_ | refine Dev.canon_mem ?_ | refine Dev.canon_vault ?_
    | refine Dev.canon_rings ?_ | exact Dev.reset_rings | split

theorem execSaveComplete_canon (w : SaveWrites) (vin : Bool) (s : State) (h : s.dev.Canon) :
    ∃ d, execSaveComplete w vin s = .next { s with dev := d } ∧ d.Canon := by
  refine ⟨_, rfl, ?_⟩
  try dsimp -proj only
  with_reducible repeat' first
    | assumption | intro _ | refine Dev.foldl_canon _ _ _ ?_ ?_ | refine Dev.foldl_canon_fst _ _ _ ?_ ?_
    | apply Dev.saveEnd_canon | apply Dev.resetHold_canon | apply Dev.powerOff_canon
    | (simp -proj only [canon_fst_mk, canon_snd_mk])
    | (simp -proj only [Dev.canon_mk, Tables.wf_mk, Radio.wf_mk, Vault.wf_mk]; refine ⟨?_, ?_, ?_, ?_, ?_⟩)
    | refine Dev.canon_regs ?_ | refine Dev.canon_cfg ?_ | refine Dev.canon_mem ?_ | refine Dev.canon_vault ?_
    | refine Dev.canon_rings ?_ | exact Dev.reset_rings | split

theorem execThermalShutdown_canon (s : State) (h : s.dev.Canon) :
    ∃ d, execThermalShutdown s = .next { s with dev := d } ∧ d.Canon :=
  ⟨_, rfl, by simp [h]⟩

theorem execRefStopped_canon (s : State) (h : s.dev.Canon) :
    ∃ d, execRefStopped s = .next { s with dev := d } ∧ d.Canon :=
  ⟨_, rfl, by simp [h]⟩

theorem execPllUnlock_canon (s : State) (h : s.dev.Canon) :
    ∃ d, execPllUnlock s = .next { s with dev := d } ∧ d.Canon :=
  ⟨_, rfl, by simp [h]⟩

theorem execResetNLow_canon (s : State) (h : s.dev.Canon) :
    ∃ d, execResetNLow s = .next { s with dev := d } ∧ d.Canon := by
  refine ⟨_, rfl, ?_⟩
  try dsimp -proj only
  with_reducible repeat' first
    | assumption | intro _ | refine Dev.foldl_canon _ _ _ ?_ ?_ | refine Dev.foldl_canon_fst _ _ _ ?_ ?_
    | apply Dev.resign_canon | apply Dev.abandonUp_canon | apply Dev.resetHold_canon | apply Dev.holdKept_canon
    | apply Dev.cut_canon | (simp -proj only [canon_fst_mk, canon_snd_mk])
    | (simp -proj only [Dev.canon_mk, Tables.wf_mk, Radio.wf_mk, Vault.wf_mk]; refine ⟨?_, ?_, ?_, ?_, ?_⟩)
    | refine Dev.canon_regs ?_ | refine Dev.canon_cfg ?_ | refine Dev.canon_mem ?_ | refine Dev.canon_vault ?_
    | refine Dev.canon_rings ?_ | exact Dev.reset_rings | split

/-! ### Power -/

theorem execVinLow_canon (s : State) (h : s.dev.Canon) :
    ∃ d, execVinLow s = .next { s with dev := d } ∧ d.Canon :=
  ⟨_, rfl, by simp [h]⟩

/-! ### TableReads -/

theorem execDownlinkAdmission_canon (s : State) (h : s.dev.Canon) :
    ∃ d, execDownlinkAdmission s = .next { s with dev := d } ∧ d.Canon := by
  refine ⟨_, rfl, ?_⟩
  try dsimp -proj only
  with_reducible repeat' first
    | assumption | apply Dev.admitOldest_canon | split

theorem execChannelAccess_canon (id : Reads Nat) (s : State) (h : s.dev.Canon) :
    ∃ d, execChannelAccess id s = .next { s with dev := d } ∧ d.Canon := by
  refine ⟨_, rfl, ?_⟩
  try dsimp -proj only
  with_reducible repeat' first
    | assumption | apply Dev.strikes_canon | apply Dev.accessOf_canon | split

/-! ### VotedTx -/

theorem execAckSend_canon (port : Fin 32) (inTime grant : Bool) (s : State) (h : s.dev.Canon) :
    ∃ d, execAckSend port inTime grant s = .next { s with dev := d } ∧ d.Canon :=
  ⟨_, rfl, by dsimp only; split <;> simp [h]⟩

theorem execAssociationResponse_canon (port : Fin 32) (inTime : Bool) (power : List (Option Int)) (grant : Bool) (s : State) (h : s.dev.Canon) :
    ∃ d, execAssociationResponse port inTime power grant s = .next { s with dev := d } ∧ d.Canon := by
  refine ⟨_, rfl, ?_⟩
  try dsimp -proj only
  with_reducible repeat' first
    | assumption | apply Dev.step5_canon | apply Dev.fixedSend_canon | split

theorem execSwapPoint_canon (g : Fin 4) (gap : Fin 65) (s : State) (h : s.dev.Canon) :
    ∃ d, execSwapPoint g gap s = .next { s with dev := d } ∧ d.Canon := by
  refine ⟨_, rfl, ?_⟩
  try dsimp -proj only
  with_reducible repeat' first
    | assumption | apply Dev.voteAgreed_canon | apply Dev.swap_canon | apply Dev.put_canon
    | apply Dev.setCalState_canon | apply Dev.setChainState_canon | apply Dev.setCalg_canon
    | apply Dev.slotFollows_canon | apply Dev.swapBack_canon | apply Dev.calEnded_canon | split

end Sys2Proof.Machine
end

