-- ==== Sys2Proof/Laws/CanonExec2.lean ====
section
/-! SUPPORT. What each command answers: a next state with the queue as it was and canonical stores. -/

set_option linter.unusedSimpArgs false
set_option linter.unusedVariables false

namespace Sys2Proof.Machine

/-! ### Power -/

theorem execVinLowCleared_canon (s : State) (h : s.dev.Canon) :
    ∃ d, execVinLowCleared s = .next { s with dev := d } ∧ d.Canon :=
  ⟨_, rfl, by simp [h]⟩

theorem execVinHigh_canon (s : State) (h : s.dev.Canon) :
    ∃ d, execVinHigh s = .next { s with dev := d } ∧ d.Canon :=
  ⟨_, rfl, by simp [h]⟩

theorem execVinHighCleared_canon (s : State) (h : s.dev.Canon) :
    ∃ d, execVinHighCleared s = .next { s with dev := d } ∧ d.Canon :=
  ⟨_, rfl, by simp [h]⟩

theorem execVbakLow_canon (s : State) (h : s.dev.Canon) :
    ∃ d, execVbakLow s = .next { s with dev := d } ∧ d.Canon :=
  ⟨_, rfl, by simp [h]⟩

theorem execVbakLowCleared_canon (s : State) (h : s.dev.Canon) :
    ∃ d, execVbakLowCleared s = .next { s with dev := d } ∧ d.Canon :=
  ⟨_, rfl, by simp [h]⟩

theorem execVbakAbsent_canon (s : State) (h : s.dev.Canon) :
    ∃ d, execVbakAbsent s = .next { s with dev := d } ∧ d.Canon := by
  refine ⟨_, rfl, ?_⟩
  try dsimp -proj only
  with_reducible repeat' first
    | assumption | intro _ | refine Dev.foldl_canon _ _ _ ?_ ?_ | refine Dev.foldl_canon_fst _ _ _ ?_ ?_
    | apply Dev.powerOff_canon | apply Dev.aonFed_canon | apply Dev.flagUp_canon
    | (simp -proj only [canon_fst_mk, canon_snd_mk])
    | (simp -proj only [Dev.canon_mk, Tables.wf_mk, Radio.wf_mk, Vault.wf_mk]; refine ⟨?_, ?_, ?_, ?_, ?_⟩)
    | refine Dev.canon_regs ?_ | refine Dev.canon_cfg ?_ | refine Dev.canon_mem ?_ | refine Dev.canon_vault ?_
    | refine Dev.canon_rings ?_ | exact Dev.reset_rings | split

theorem execVbakAbsentCleared_canon (s : State) (h : s.dev.Canon) :
    ∃ d, execVbakAbsentCleared s = .next { s with dev := d } ∧ d.Canon :=
  ⟨_, rfl, by simp [h]⟩

theorem execBankMeasure_canon (usable : BitVec 16) (volt : BitVec 10) (s : State) (h : s.dev.Canon) :
    ∃ d, execBankMeasure usable volt s = .next { s with dev := d } ∧ d.Canon :=
  ⟨_, rfl, by simp [h]⟩

theorem execBankCharged_canon (s : State) (h : s.dev.Canon) :
    ∃ d, execBankCharged s = .next { s with dev := d } ∧ d.Canon :=
  ⟨_, rfl, by simp [h]⟩

theorem execIdleEntry_canon (s : State) (h : s.dev.Canon) :
    ∃ d, execIdleEntry s = .next { s with dev := d } ∧ d.Canon :=
  ⟨_, rfl, by simp [h]⟩

theorem execRunEntry_canon (s : State) (h : s.dev.Canon) :
    ∃ d, execRunEntry s = .next { s with dev := d } ∧ d.Canon := by
  refine ⟨_, rfl, ?_⟩
  try dsimp -proj only
  with_reducible repeat' first
    | assumption | intro _ | refine Dev.foldl_canon _ _ _ ?_ ?_ | refine Dev.foldl_canon_fst _ _ _ ?_ ?_
    | apply Dev.setPhase_canon | apply Dev.setTrans_canon | apply Dev.serviceChains_canon
    | apply Dev.calConditions_canon | apply Dev.idleSpares_canon | apply Dev.targetAct_canon
    | (simp -proj only [canon_fst_mk, canon_snd_mk])
    | (simp -proj only [Dev.canon_mk, Tables.wf_mk, Radio.wf_mk, Vault.wf_mk]; refine ⟨?_, ?_, ?_, ?_, ?_⟩)
    | refine Dev.canon_regs ?_ | refine Dev.canon_cfg ?_ | refine Dev.canon_mem ?_ | refine Dev.canon_vault ?_
    | refine Dev.canon_rings ?_ | exact Dev.reset_rings | split

theorem execSleepEntry_canon (s : State) (h : s.dev.Canon) :
    ∃ d, execSleepEntry s = .next { s with dev := d } ∧ d.Canon :=
  ⟨_, rfl, by simp [h]⟩

theorem execSleepRequestTimeout_canon (s : State) (h : s.dev.Canon) :
    ∃ d, execSleepRequestTimeout s = .next { s with dev := d } ∧ d.Canon := by
  refine ⟨_, rfl, ?_⟩
  try dsimp -proj only
  with_reducible repeat' first
    | assumption | apply Dev.put_canon | apply Dev.setTrans_canon | apply Dev.reject_canon | split

theorem execWake_canon (src : Fin 4) (line : Fin 16) (rising : Bool) (tick : Nat) (s : State) (h : s.dev.Canon) :
    ∃ d, execWake src line rising tick s = .next { s with dev := d } ∧ d.Canon := by
  refine ⟨_, rfl, ?_⟩
  try dsimp -proj only
  with_reducible repeat' first
    | assumption | intro _ | refine Dev.foldl_canon _ _ _ ?_ ?_ | refine Dev.foldl_canon_fst _ _ _ ?_ ?_
    | apply Dev.aonTo_canon | apply Dev.gpioEdge_canon | apply Dev.wakeBy_canon | apply Dev.sleepEdge_canon
    | apply Dev.motionEdge_canon | apply Dev.svcDiscard_canon | (simp -proj only [canon_fst_mk, canon_snd_mk])
    | (simp -proj only [Dev.canon_mk, Tables.wf_mk, Radio.wf_mk, Vault.wf_mk]; refine ⟨?_, ?_, ?_, ?_, ?_⟩)
    | refine Dev.canon_regs ?_ | refine Dev.canon_cfg ?_ | refine Dev.canon_mem ?_ | refine Dev.canon_vault ?_
    | refine Dev.canon_rings ?_ | exact Dev.reset_rings | split

theorem execWakeTimerExpiry_canon (s : State) (h : s.dev.Canon) :
    ∃ d, execWakeTimerExpiry s = .next { s with dev := d } ∧ d.Canon :=
  ⟨_, rfl, by simp [h]⟩

theorem execWakeComplete_canon (ticks : Nat) (pllCycles : Fin 80001) (s : State) (h : s.dev.Canon) :
    ∃ d, execWakeComplete ticks pllCycles s = .next { s with dev := d } ∧ d.Canon :=
  ⟨_, rfl, by simp [h]⟩

theorem execRefDeviationWindow_canon (ppb : BitVec 32) (s : State) (h : s.dev.Canon) :
    ∃ d, execRefDeviationWindow ppb s = .next { s with dev := d } ∧ d.Canon :=
  ⟨_, rfl, by simp [h]⟩

theorem execSlowClockStopped_canon (s : State) (h : s.dev.Canon) :
    ∃ d, execSlowClockStopped s = .next { s with dev := d } ∧ d.Canon := by
  refine ⟨_, rfl, ?_⟩
  try dsimp -proj only
  with_reducible repeat' first
    | assumption | intro _ | refine Dev.foldl_canon _ _ _ ?_ ?_ | refine Dev.foldl_canon_fst _ _ _ ?_ ?_
    | apply Dev.put_canon | apply Dev.bump_canon | apply Dev.raise_canon
    | (simp -proj only [canon_fst_mk, canon_snd_mk])
    | (simp -proj only [Dev.canon_mk, Tables.wf_mk, Radio.wf_mk, Vault.wf_mk]; refine ⟨?_, ?_, ?_, ?_, ?_⟩)
    | refine Dev.canon_regs ?_ | refine Dev.canon_cfg ?_ | refine Dev.canon_mem ?_ | refine Dev.canon_vault ?_
    | refine Dev.canon_rings ?_ | exact Dev.reset_rings | split

theorem execZeroiseComplete_canon (s : State) (h : s.dev.Canon) :
    ∃ d, execZeroiseComplete s = .next { s with dev := d } ∧ d.Canon := by
  refine ⟨_, rfl, ?_⟩
  try dsimp -proj only
  with_reducible repeat' first
    | assumption | intro _ | refine Dev.foldl_canon _ _ _ ?_ ?_ | refine Dev.foldl_canon_fst _ _ _ ?_ ?_
    | apply Dev.erased_canon | apply Dev.resign_canon | (simp -proj only [canon_fst_mk, canon_snd_mk])
    | (simp -proj only [Dev.canon_mk, Tables.wf_mk, Radio.wf_mk, Vault.wf_mk]; refine ⟨?_, ?_, ?_, ?_, ?_⟩)
    | refine Dev.canon_regs ?_ | refine Dev.canon_cfg ?_ | refine Dev.canon_mem ?_ | refine Dev.canon_vault ?_
    | refine Dev.canon_rings ?_ | exact Dev.reset_rings | split

theorem execRuntimeSelftestSlice_canon (fault : TestFault) (s : State) (h : s.dev.Canon) :
    ∃ d, execRuntimeSelftestSlice fault s = .next { s with dev := d } ∧ d.Canon := by
  refine ⟨_, rfl, ?_⟩
  try dsimp -proj only
  with_reducible repeat' first
    | assumption | apply Dev.runtimeTest_canon | split

theorem execOpeningEnd_canon (s : State) (h : s.dev.Canon) :
    ∃ d, execOpeningEnd s = .next { s with dev := d } ∧ d.Canon :=
  ⟨_, rfl, by simp [h]⟩

/-! ### Lanes -/

theorem execVote_canon (stage : Fin 5) (port : Fin 32) (outs : List (Option Nat)) (half0 : Option (Fin 4)) (s : State) (h : s.dev.Canon) :
    ∃ d, execVote stage port outs half0 s = .next { s with dev := d } ∧ d.Canon := by
  refine ⟨_, rfl, ?_⟩
  try dsimp -proj only
  with_reducible repeat' first
    | assumption | apply Dev.vote_canon | apply Dev.txUpd_canon | split

theorem execEndOfTempoMark_canon (marks : LaneMarks) (half0 : Option (Fin 4)) (s : State) (h : s.dev.Canon) :
    ∃ d, execEndOfTempoMark marks half0 s = .next { s with dev := d } ∧ d.Canon := by
  refine ⟨_, rfl, ?_⟩
  try dsimp -proj only
  with_reducible repeat' first
    | assumption | apply Dev.marks_canon | apply Dev.vote_canon | apply Dev.mark_canon | split

theorem execSramUe_canon (lane : Fin 4) (s : State) (h : s.dev.Canon) :
    ∃ d, execSramUe lane s = .next { s with dev := d } ∧ d.Canon :=
  ⟨_, rfl, by simp [h]⟩

theorem execQuarantineEnd_canon (lane : Fin 4) (pass : Bool) (s : State) (h : s.dev.Canon) :
    ∃ d, execQuarantineEnd lane pass s = .next { s with dev := d } ∧ d.Canon :=
  ⟨_, rfl, by simp [h]⟩

theorem execAdmissionCopyDone_canon (s : State) (h : s.dev.Canon) :
    ∃ d, execAdmissionCopyDone s = .next { s with dev := d } ∧ d.Canon := by
  refine ⟨_, rfl, ?_⟩
  try dsimp -proj only
  with_reducible repeat' first
    | assumption | apply Dev.copied_canon | split

theorem execAdmissionComplete_canon (s : State) (h : s.dev.Canon) :
    ∃ d, execAdmissionComplete s = .next { s with dev := d } ∧ d.Canon := by
  refine ⟨_, rfl, ?_⟩
  try dsimp -proj only
  with_reducible repeat' first
    | assumption | intro _ | refine Dev.foldl_canon _ _ _ ?_ ?_ | refine Dev.foldl_canon_fst _ _ _ ?_ ?_
    | apply Dev.setRole_canon | apply Dev.dryOver_canon | apply Dev.raise_canon | apply Dev.autoAdmit_canon
    | (simp -proj only [canon_fst_mk, canon_snd_mk])
    | (simp -proj only [Dev.canon_mk, Tables.wf_mk, Radio.wf_mk, Vault.wf_mk]; refine ⟨?_, ?_, ?_, ?_, ?_⟩)
    | refine Dev.canon_regs ?_ | refine Dev.canon_cfg ?_ | refine Dev.canon_mem ?_ | refine Dev.canon_vault ?_
    | refine Dev.canon_rings ?_ | exact Dev.reset_rings | split

theorem execDryEnd_canon (s : State) (h : s.dev.Canon) :
    ∃ d, execDryEnd s = .next { s with dev := d } ∧ d.Canon := by
  refine ⟨_, rfl, ?_⟩
  try dsimp -proj only
  with_reducible repeat' first
    | assumption | apply Dev.setRole_canon | apply Dev.dryOver_canon | apply Dev.raise_canon | split

/-! ### Startup -/

theorem execPowerUp_canon (testEn : Bool) (s : State) (h : s.dev.Canon) :
    ∃ d, execPowerUp testEn s = .next { s with dev := d } ∧ d.Canon :=
  ⟨_, rfl, by simp [h]⟩

theorem execResetNHigh_canon (qualified testEn : Bool) (s : State) (h : s.dev.Canon) :
    ∃ d, execResetNHigh qualified testEn s = .next { s with dev := d } ∧ d.Canon :=
  ⟨_, rfl, by simp [h]⟩

theorem execRailsUp_canon (pllCycles : Fin 80001) (s : State) (h : s.dev.Canon) :
    ∃ d, execRailsUp pllCycles s = .next { s with dev := d } ∧ d.Canon := by
  refine ⟨_, rfl, ?_⟩
  try dsimp -proj only
  with_reducible repeat' first
    | assumption | intro _ | refine Dev.foldl_canon _ _ _ ?_ ?_ | refine Dev.foldl_canon_fst _ _ _ ?_ ?_
    | apply Dev.put_canon | apply Dev.load_canon | (simp -proj only [canon_fst_mk, canon_snd_mk])
    | (simp -proj only [Dev.canon_mk, Tables.wf_mk, Radio.wf_mk, Vault.wf_mk]; refine ⟨?_, ?_, ?_, ?_, ?_⟩)
    | refine Dev.canon_regs ?_ | refine Dev.canon_cfg ?_ | refine Dev.canon_mem ?_ | refine Dev.canon_vault ?_
    | refine Dev.canon_rings ?_ | exact Dev.reset_rings | split

theorem execLoadComplete_canon (flaws : List (Fin 4096 × Bool)) (s : State) (h : s.dev.Canon) :
    ∃ d, execLoadComplete flaws s = .next { s with dev := d } ∧ d.Canon := by
  refine ⟨_, rfl, ?_⟩
  try dsimp -proj only
  with_reducible repeat' first
    | assumption | apply Dev.load_canon | apply Dev.setPhase_canon | split

theorem execSelftestSlice_canon (fault : Fin 9) (loc : BitVec 14) (ext : Bool) (cages : BitVec 2) (us : Nat) (s : State) (h : s.dev.Canon) :
    ∃ d, execSelftestSlice fault loc ext cages us s = .next { s with dev := d } ∧ d.Canon :=
  ⟨_, rfl, by simp [h]⟩

theorem execCopyComplete_canon (us : Nat) (s : State) (h : s.dev.Canon) :
    ∃ d, execCopyComplete us s = .next { s with dev := d } ∧ d.Canon := by
  refine ⟨_, rfl, ?_⟩
  try dsimp -proj only
  with_reducible repeat' first
    | assumption | apply Dev.copyImage_canon | apply Dev.setPhase_canon | apply Dev.itemFailed_canon
    | apply Dev.toSafe_canon | split

theorem execLaneStart_canon (s : State) (h : s.dev.Canon) :
    ∃ d, execLaneStart s = .next { s with dev := d } ∧ d.Canon :=
  ⟨_, rfl, by simp [h]⟩

theorem execStartupCalibration_canon (steps : CalRepeats) (temps : List Int) (trims : List (Fin 36 × Trim)) (s : State) (h : s.dev.Canon) :
    ∃ d, execStartupCalibration steps temps trims s = .next { s with dev := d } ∧ d.Canon := by
  refine ⟨_, rfl, ?_⟩
  try dsimp -proj only
  with_reducible repeat' first
    | assumption | apply Dev.startCalibrate_canon | apply Dev.erased_canon | apply Dev.put_canon
    | apply Dev.setPhase_canon | split

theorem execRelease_canon (ticks pwrupT : Nat) (s : State) (h : s.dev.Canon) :
    ∃ d, execRelease ticks pwrupT s = .next { s with dev := d } ∧ d.Canon := by
  refine ⟨_, rfl, ?_⟩
  try dsimp -proj only
  with_reducible repeat' first
    | assumption | intro _ | refine Dev.foldl_canon _ _ _ ?_ ?_ | refine Dev.foldl_canon_fst _ _ _ ?_ ?_
    | apply Dev.bankFree_canon | apply Dev.releaseNow_canon | (simp -proj only [canon_fst_mk, canon_snd_mk])
    | (simp -proj only [Dev.canon_mk, Tables.wf_mk, Radio.wf_mk, Vault.wf_mk]; refine ⟨?_, ?_, ?_, ?_, ?_⟩)
    | refine Dev.canon_regs ?_ | refine Dev.canon_cfg ?_ | refine Dev.canon_mem ?_ | refine Dev.canon_vault ?_
    | refine Dev.canon_rings ?_ | exact Dev.reset_rings | split

/-! ### Service -/

theorem execSvcPoll_canon (s : State) (h : s.dev.Canon) :
    ∃ d, execSvcPoll s = .next { s with dev := d } ∧ d.Canon :=
  ⟨_, rfl, by simp [h]⟩

theorem execSvcRequest_canon (bytes : List Byte) (s : State) (h : s.dev.Canon) :
    ∃ d, execSvcRequest bytes s = .next { s with dev := d } ∧ d.Canon :=
  ⟨_, rfl, by simp [h]⟩

theorem execSvcRead_canon (n : Nat) (s : State) (h : s.dev.Canon) :
    ∃ d, execSvcRead n s = .next { s with dev := d } ∧ d.Canon := by
  refine ⟨_, rfl, ?_⟩
  try dsimp -proj only
  with_reducible repeat' first
    | assumption | intro _ | refine Dev.foldl_canon _ _ _ ?_ ?_ | refine Dev.foldl_canon_fst _ _ _ ?_ ?_
    | apply Dev.emit_canon | apply Dev.put_canon | (simp -proj only [canon_fst_mk, canon_snd_mk])
    | (simp -proj only [Dev.canon_mk, Tables.wf_mk, Radio.wf_mk, Vault.wf_mk]; refine ⟨?_, ?_, ?_, ?_, ?_⟩)
    | refine Dev.canon_regs ?_ | refine Dev.canon_cfg ?_ | refine Dev.canon_mem ?_ | refine Dev.canon_vault ?_
    | refine Dev.canon_rings ?_ | exact Dev.reset_rings | split

theorem execSvcInfo_canon (s : State) (h : s.dev.Canon) :
    ∃ d, execSvcInfo s = .next { s with dev := d } ∧ d.Canon := by
  refine ⟨_, rfl, ?_⟩
  try dsimp -proj only
  with_reducible repeat' first
    | assumption | intro _ | refine Dev.foldl_canon _ _ _ ?_ ?_ | refine Dev.foldl_canon_fst _ _ _ ?_ ?_
    | apply Dev.svcRun_canon | apply Dev.svcRespond_canon | split

theorem execStageBegin_canon (s : State) (h : s.dev.Canon) :
    ∃ d, execStageBegin s = .next { s with dev := d } ∧ d.Canon := by
  refine ⟨_, rfl, ?_⟩
  try dsimp -proj only
  with_reducible repeat' first
    | assumption | apply Dev.svcRun_canon | apply Dev.stageBegin_canon | split

theorem execStageData_canon (s : State) (h : s.dev.Canon) :
    ∃ d, execStageData s = .next { s with dev := d } ∧ d.Canon := by
  refine ⟨_, rfl, ?_⟩
  try dsimp -proj only
  with_reducible repeat' first
    | assumption | apply Dev.svcRun_canon | apply Dev.stageData_canon | split

theorem execStageCommit_canon (s : State) (h : s.dev.Canon) :
    ∃ d, execStageCommit s = .next { s with dev := d } ∧ d.Canon := by
  refine ⟨_, rfl, ?_⟩
  try dsimp -proj only
  with_reducible repeat' first
    | assumption | intro _ | refine Dev.foldl_canon _ _ _ ?_ ?_ | refine Dev.foldl_canon_fst _ _ _ ?_ ?_
    | apply Dev.svcRun_canon | apply Dev.stageCommit_canon | split

theorem execStageAbort_canon (s : State) (h : s.dev.Canon) :
    ∃ d, execStageAbort s = .next { s with dev := d } ∧ d.Canon := by
  refine ⟨_, rfl, ?_⟩
  try dsimp -proj only
  with_reducible repeat' first
    | assumption | intro _ | refine Dev.foldl_canon _ _ _ ?_ ?_ | refine Dev.foldl_canon_fst _ _ _ ?_ ?_
    | apply Dev.svcRun_canon | apply Dev.stageAbort_canon | split

theorem execStagingIdleTimeout_canon (s : State) (h : s.dev.Canon) :
    ∃ d, execStagingIdleTimeout s = .next { s with dev := d } ∧ d.Canon :=
  ⟨_, rfl, by simp [h]⟩

theorem execSvcPromote_canon (s : State) (h : s.dev.Canon) :
    ∃ d, execSvcPromote s = .next { s with dev := d } ∧ d.Canon := by
  refine ⟨_, rfl, ?_⟩
  try dsimp -proj only
  with_reducible repeat' first
    | assumption | intro _ | refine Dev.foldl_canon _ _ _ ?_ ?_ | refine Dev.foldl_canon_fst _ _ _ ?_ ?_
    | apply Dev.svcRun_canon | apply Dev.promote_canon | (simp -proj only [canon_fst_mk, canon_snd_mk])
    | (simp -proj only [Dev.canon_mk, Tables.wf_mk, Radio.wf_mk, Vault.wf_mk]; refine ⟨?_, ?_, ?_, ?_, ?_⟩)
    | refine Dev.canon_regs ?_ | refine Dev.canon_cfg ?_ | refine Dev.canon_mem ?_ | refine Dev.canon_vault ?_
    | refine Dev.canon_rings ?_ | exact Dev.reset_rings | split

theorem execOwnerInit_canon (s : State) (h : s.dev.Canon) :
    ∃ d, execOwnerInit s = .next { s with dev := d } ∧ d.Canon := by
  refine ⟨_, rfl, ?_⟩
  try dsimp -proj only
  with_reducible repeat' first
    | assumption | apply Dev.svcRun_canon | apply Dev.ownerInit_canon | split

theorem execSelftest_canon (s : State) (h : s.dev.Canon) :
    ∃ d, execSelftest s = .next { s with dev := d } ∧ d.Canon := by
  refine ⟨_, rfl, ?_⟩
  try dsimp -proj only
  with_reducible repeat' first
    | assumption | intro _ | refine Dev.foldl_canon _ _ _ ?_ ?_ | refine Dev.foldl_canon_fst _ _ _ ?_ ?_
    | apply Dev.svcRun_canon | apply Dev.selfReport_canon | apply Dev.svcRespond_canon | split

theorem execPromote_canon (ring : Fin 8) (hseq : Nat) (s : State) (h : s.dev.Canon) :
    ∃ d, execPromote ring hseq s = .next { s with dev := d } ∧ d.Canon := by
  refine ⟨_, rfl, ?_⟩
  try dsimp -proj only
  with_reducible repeat' first
    | assumption | apply Dev.runRow_canon | apply Dev.cmdPromote_canon | split

theorem execPromoteVerifyDone_canon (s : State) (h : s.dev.Canon) :
    ∃ d, execPromoteVerifyDone s = .next { s with dev := d } ∧ d.Canon := by
  refine ⟨_, rfl, ?_⟩
  try dsimp -proj only
  with_reducible repeat' first
    | assumption | intro _ | refine Dev.foldl_canon _ _ _ ?_ ?_ | refine Dev.foldl_canon_fst _ _ _ ?_ ?_
    | apply Dev.promote_canon | apply Dev.setFwSlot_canon | apply Dev.updLast_canon | apply Dev.promoteStop_canon
    | (simp -proj only [canon_fst_mk, canon_snd_mk])
    | (simp -proj only [Dev.canon_mk, Tables.wf_mk, Radio.wf_mk, Vault.wf_mk]; refine ⟨?_, ?_, ?_, ?_, ?_⟩)
    | refine Dev.canon_regs ?_ | refine Dev.canon_cfg ?_ | refine Dev.canon_mem ?_ | refine Dev.canon_vault ?_
    | refine Dev.canon_rings ?_ | exact Dev.reset_rings | split

theorem execPromoteEntry_canon (s : State) (h : s.dev.Canon) :
    ∃ d, execPromoteEntry s = .next { s with dev := d } ∧ d.Canon := by
  refine ⟨_, rfl, ?_⟩
  try dsimp -proj only
  with_reducible repeat' first
    | assumption | intro _ | refine Dev.foldl_canon _ _ _ ?_ ?_ | refine Dev.foldl_canon_fst _ _ _ ?_ ?_
    | apply Dev.promote_canon | apply Dev.promoteStop_canon | apply Dev.put_canon
    | (simp -proj only [canon_fst_mk, canon_snd_mk])
    | (simp -proj only [Dev.canon_mk, Tables.wf_mk, Radio.wf_mk, Vault.wf_mk]; refine ⟨?_, ?_, ?_, ?_, ?_⟩)
    | refine Dev.canon_regs ?_ | refine Dev.canon_cfg ?_ | refine Dev.canon_mem ?_ | refine Dev.canon_vault ?_
    | refine Dev.canon_rings ?_ | exact Dev.reset_rings | split

theorem execPromoteRestart_canon (s : State) (h : s.dev.Canon) :
    ∃ d, execPromoteRestart s = .next { s with dev := d } ∧ d.Canon :=
  ⟨_, rfl, by dsimp only; repeat (split <;> try (simp [h]; done))⟩

theorem execPromoteReady_canon (s : State) (h : s.dev.Canon) :
    ∃ d, execPromoteReady s = .next { s with dev := d } ∧ d.Canon :=
  ⟨_, rfl, by dsimp only; split <;> simp [h]⟩

theorem execPromoteFail_canon (s : State) (h : s.dev.Canon) :
    ∃ d, execPromoteFail s = .next { s with dev := d } ∧ d.Canon := by
  refine ⟨_, rfl, ?_⟩
  try dsimp -proj only
  with_reducible repeat' first
    | assumption | intro _ | refine Dev.foldl_canon _ _ _ ?_ ?_ | refine Dev.foldl_canon_fst _ _ _ ?_ ?_
    | apply Dev.promote_canon | apply Dev.setFwSlot_canon | apply Dev.resign_canon
    | (simp -proj only [canon_fst_mk, canon_snd_mk])
    | (simp -proj only [Dev.canon_mk, Tables.wf_mk, Radio.wf_mk, Vault.wf_mk]; refine ⟨?_, ?_, ?_, ?_, ?_⟩)
    | refine Dev.canon_regs ?_ | refine Dev.canon_cfg ?_ | refine Dev.canon_mem ?_ | refine Dev.canon_vault ?_
    | refine Dev.canon_rings ?_ | exact Dev.reset_rings | split

theorem execUpdPolicy_canon (ring : Fin 8) (hseq : Nat) (s : State) (h : s.dev.Canon) :
    ∃ d, execUpdPolicy ring hseq s = .next { s with dev := d } ∧ d.Canon := by
  refine ⟨_, rfl, ?_⟩
  try dsimp -proj only
  with_reducible repeat' first
    | assumption | apply Dev.runRow_canon | apply Dev.cmdUpdPolicy_canon | split

theorem execUpdInfo_canon (ring : Fin 8) (hseq : Nat) (s : State) (h : s.dev.Canon) :
    ∃ d, execUpdInfo ring hseq s = .next { s with dev := d } ∧ d.Canon := by
  refine ⟨_, rfl, ?_⟩
  try dsimp -proj only
  with_reducible repeat' first
    | assumption | apply Dev.runRow_canon | apply Dev.cmdUpdInfo_canon | split

theorem execOwnerRekey_canon (ring : Fin 8) (hseq : Nat) (s : State) (h : s.dev.Canon) :
    ∃ d, execOwnerRekey ring hseq s = .next { s with dev := d } ∧ d.Canon := by
  refine ⟨_, rfl, ?_⟩
  try dsimp -proj only
  with_reducible repeat' first
    | assumption | apply Dev.runRow_canon | apply Dev.ownerRekey_canon | split

theorem execMotionQualify_canon (s : State) (h : s.dev.Canon) :
    ∃ d, execMotionQualify s = .next { s with dev := d } ∧ d.Canon :=
  ⟨_, rfl, by simp [h]⟩

theorem execMotionHoldExpiry_canon (s : State) (h : s.dev.Canon) :
    ∃ d, execMotionHoldExpiry s = .next { s with dev := d } ∧ d.Canon :=
  ⟨_, rfl, by simp [h]⟩

/-! ### HostRings -/

theorem execCommandEntry_canon (ring : Fin 8) (bytes : List Byte) (via : Option Nat) (s : State) (h : s.dev.Canon) :
    ∃ d, execCommandEntry ring bytes via s = .next { s with dev := d } ∧ d.Canon :=
  ⟨_, rfl, by simp [h]⟩

theorem execLatestStartPass_canon (ring : Fin 8) (hseq : Nat) (s : State) (h : s.dev.Canon) :
    ∃ d, execLatestStartPass ring hseq s = .next { s with dev := d } ∧ d.Canon :=
  ⟨_, rfl, by simp [h]⟩

theorem execCompletionWrite_canon (ring : Fin 8) (s : State) (h : s.dev.Canon) :
    ∃ d, execCompletionWrite ring s = .next { s with dev := d } ∧ d.Canon :=
  ⟨_, rfl, by dsimp only; split <;> simp [h]⟩

theorem execRingDmaError_canon (ring : Fin 8) (s : State) (h : s.dev.Canon) :
    ∃ d, execRingDmaError ring s = .next { s with dev := d } ∧ d.Canon :=
  ⟨_, rfl, by simp [h]⟩

theorem execNop_canon (ring : Fin 8) (hseq : Nat) (s : State) (h : s.dev.Canon) :
    ∃ d, execNop ring hseq s = .next { s with dev := d } ∧ d.Canon := by
  refine ⟨_, rfl, ?_⟩
  try dsimp -proj only
  with_reducible repeat' first
    | assumption | intro _ | refine Dev.foldl_canon _ _ _ ?_ ?_ | refine Dev.foldl_canon_fst _ _ _ ?_ ?_
    | apply Dev.runRow_canon | apply Dev.finish_canon | split

theorem execResync_canon (ring : Fin 8) (hseq : Nat) (s : State) (h : s.dev.Canon) :
    ∃ d, execResync ring hseq s = .next { s with dev := d } ∧ d.Canon := by
  refine ⟨_, rfl, ?_⟩
  try dsimp -proj only
  with_reducible repeat' first
    | assumption | apply Dev.runRow_canon | apply Dev.cmdResync_canon | split

theorem execMsixPost_canon (vector : Fin 64) (canPost : Bool) (s : State) (h : s.dev.Canon) :
    ∃ d, execMsixPost vector canPost s = .next { s with dev := d } ∧ d.Canon :=
  ⟨_, rfl, by simp [h]⟩

theorem execMsixGapExpiry_canon (vector : Fin 64) (canPost : Bool) (s : State) (h : s.dev.Canon) :
    ∃ d, execMsixGapExpiry vector canPost s = .next { s with dev := d } ∧ d.Canon :=
  ⟨_, rfl, by simp [h]⟩

theorem execEventRecordSend_canon (source : Fin 64) (s : State) (h : s.dev.Canon) :
    ∃ d, execEventRecordSend source s = .next { s with dev := d } ∧ d.Canon :=
  ⟨_, rfl, by simp [h]⟩

/-! ### RegCommands -/

theorem execRegWriteGeneric_canon (addr : BitVec 20) (be : BitVec 4) (data : BitVec 32) (s : State) (h : s.dev.Canon) :
    ∃ d, execRegWriteGeneric addr be data s = .next { s with dev := d } ∧ d.Canon :=
  ⟨_, rfl, by simp [h]⟩

theorem execRcRead_canon (addr : BitVec 20) (s : State) (h : s.dev.Canon) :
    ∃ d, execRcRead addr s = .next { s with dev := d } ∧ d.Canon :=
  ⟨_, rfl, by simp [h]⟩

theorem execPairLoStage_canon (addr : BitVec 20) (be : BitVec 4) (data : BitVec 32) (s : State) (h : s.dev.Canon) :
    ∃ d, execPairLoStage addr be data s = .next { s with dev := d } ∧ d.Canon :=
  ⟨_, rfl, by simp [h]⟩

theorem execPairHiCommit_canon (addr : BitVec 20) (be : BitVec 4) (data : BitVec 32) (s : State) (h : s.dev.Canon) :
    ∃ d, execPairHiCommit addr be data s = .next { s with dev := d } ∧ d.Canon :=
  ⟨_, rfl, by simp [h]⟩

theorem execIrqPendClear_canon (page : BitVec 8) (value : BitVec 32) (s : State) (h : s.dev.Canon) :
    ∃ d, execIrqPendClear page value s = .next { s with dev := d } ∧ d.Canon :=
  ⟨_, rfl, by simp [h]⟩

theorem execSoftReset_canon (page : BitVec 8) (value : BitVec 32) (s : State) (h : s.dev.Canon) :
    ∃ d, execSoftReset page value s = .next { s with dev := d } ∧ d.Canon :=
  ⟨_, rfl, by simp [h]⟩

theorem execSoftResetDone_canon (page : BitVec 8) (s : State) (h : s.dev.Canon) :
    ∃ d, execSoftResetDone page s = .next { s with dev := d } ∧ d.Canon :=
  ⟨_, rfl, by simp [h]⟩

theorem execFreeze_canon (page : BitVec 8) (value : BitVec 32) (s : State) (h : s.dev.Canon) :
    ∃ d, execFreeze page value s = .next { s with dev := d } ∧ d.Canon :=
  ⟨_, rfl, by simp [h]⟩

theorem execRegRead_canon (ring : Fin 8) (hseq : Nat) (s : State) (h : s.dev.Canon) :
    ∃ d, execRegRead ring hseq s = .next { s with dev := d } ∧ d.Canon := by
  refine ⟨_, rfl, ?_⟩
  try dsimp -proj only
  with_reducible repeat' first
    | assumption | apply Dev.runRow_canon | apply Dev.cmdRegRead_canon | split

theorem execRegWrite_canon (ring : Fin 8) (hseq : Nat) (s : State) (h : s.dev.Canon) :
    ∃ d, execRegWrite ring hseq s = .next { s with dev := d } ∧ d.Canon := by
  refine ⟨_, rfl, ?_⟩
  try dsimp -proj only
  with_reducible repeat' first
    | assumption | apply Dev.runRow_canon | apply Dev.cmdRegWrite_canon | split

theorem execResignGo_canon (value : BitVec 32) (s : State) (h : s.dev.Canon) :
    ∃ d, execResignGo value s = .next { s with dev := d } ∧ d.Canon :=
  ⟨_, rfl, by simp [h]⟩

theorem execTargetIdle_canon (value : BitVec 32) (s : State) (h : s.dev.Canon) :
    ∃ d, execTargetIdle value s = .next { s with dev := d } ∧ d.Canon :=
  ⟨_, rfl, by simp [h]⟩

theorem execTargetRun_canon (value : BitVec 32) (s : State) (h : s.dev.Canon) :
    ∃ d, execTargetRun value s = .next { s with dev := d } ∧ d.Canon :=
  ⟨_, rfl, by simp [h]⟩

theorem execTargetSleep_canon (value : BitVec 32) (s : State) (h : s.dev.Canon) :
    ∃ d, execTargetSleep value s = .next { s with dev := d } ∧ d.Canon :=
  ⟨_, rfl, by simp [h]⟩

theorem execArm_canon (value : BitVec 32) (s : State) (h : s.dev.Canon) :
    ∃ d, execArm value s = .next { s with dev := d } ∧ d.Canon :=
  ⟨_, rfl, by simp [h]⟩

theorem execConfirm_canon (testEn : Bool) (value : BitVec 32) (s : State) (h : s.dev.Canon) :
    ∃ d, execConfirm testEn value s = .next { s with dev := d } ∧ d.Canon :=
  ⟨_, rfl, by simp [h]⟩

theorem execSqDoorbell_canon (n : Fin 8) (value : BitVec 32) (s : State) (h : s.dev.Canon) :
    ∃ d, execSqDoorbell n value s = .next { s with dev := d } ∧ d.Canon :=
  ⟨_, rfl, by simp [h]⟩

theorem execCqDoorbell_canon (n : Fin 8) (value : BitVec 32) (s : State) (h : s.dev.Canon) :
    ∃ d, execCqDoorbell n value s = .next { s with dev := d } ∧ d.Canon :=
  ⟨_, rfl, by simp [h]⟩

theorem execRingEnable_canon (n : Fin 8) (value : BitVec 32) (s : State) (h : s.dev.Canon) :
    ∃ d, execRingEnable n value s = .next { s with dev := d } ∧ d.Canon :=
  ⟨_, rfl, by simp [h]⟩

theorem execRingDisable_canon (n : Fin 8) (value : BitVec 32) (s : State) (h : s.dev.Canon) :
    ∃ d, execRingDisable n value s = .next { s with dev := d } ∧ d.Canon :=
  ⟨_, rfl, by simp [h]⟩

theorem execCqBaseWrite_canon (n : Fin 8) (value : BitVec 32) (s : State) (h : s.dev.Canon) :
    ∃ d, execCqBaseWrite n value s = .next { s with dev := d } ∧ d.Canon :=
  ⟨_, rfl, by simp [h]⟩

theorem execSoftSet_canon (value : BitVec 32) (s : State) (h : s.dev.Canon) :
    ∃ d, execSoftSet value s = .next { s with dev := d } ∧ d.Canon :=
  ⟨_, rfl, by simp [h]⟩

theorem execAdmitReq_canon (value : BitVec 32) (s : State) (h : s.dev.Canon) :
    ∃ d, execAdmitReq value s = .next { s with dev := d } ∧ d.Canon :=
  ⟨_, rfl, by simp [h]⟩

theorem execDryStart_canon (value : BitVec 32) (s : State) (h : s.dev.Canon) :
    ∃ d, execDryStart value s = .next { s with dev := d } ∧ d.Canon :=
  ⟨_, rfl, by simp [h]⟩

theorem execDryAbort_canon (value : BitVec 32) (s : State) (h : s.dev.Canon) :
    ∃ d, execDryAbort value s = .next { s with dev := d } ∧ d.Canon :=
  ⟨_, rfl, by simp [h]⟩

theorem execPortServiceChange_canon (g : Fin 4) (ctrl : Bool) (value : BitVec 32) (s : State) (h : s.dev.Canon) :
    ∃ d, execPortServiceChange g ctrl value s = .next { s with dev := d } ∧ d.Canon :=
  ⟨_, rfl, by simp [h]⟩

theorem execRfLimitWrite_canon (value : BitVec 32) (s : State) (h : s.dev.Canon) :
    ∃ d, execRfLimitWrite value s = .next { s with dev := d } ∧ d.Canon :=
  ⟨_, rfl, by simp [h]⟩

theorem execDraftReload_canon (value : BitVec 32) (s : State) (h : s.dev.Canon) :
    ∃ d, execDraftReload value s = .next { s with dev := d } ∧ d.Canon :=
  ⟨_, rfl, by simp [h]⟩

theorem execLselWrite_canon (value : BitVec 32) (s : State) (h : s.dev.Canon) :
    ∃ d, execLselWrite value s = .next { s with dev := d } ∧ d.Canon :=
  ⟨_, rfl, by simp [h]⟩

theorem execListenCommit_canon (value : BitVec 32) (s : State) (h : s.dev.Canon) :
    ∃ d, execListenCommit value s = .next { s with dev := d } ∧ d.Canon :=
  ⟨_, rfl, by simp [h]⟩

theorem execListenLoad_canon (value : BitVec 32) (s : State) (h : s.dev.Canon) :
    ∃ d, execListenLoad value s = .next { s with dev := d } ∧ d.Canon :=
  ⟨_, rfl, by simp [h]⟩

theorem execRxrConsWrite_canon (n : Fin 4) (value : BitVec 32) (s : State) (h : s.dev.Canon) :
    ∃ d, execRxrConsWrite n value s = .next { s with dev := d } ∧ d.Canon :=
  ⟨_, rfl, by simp [h]⟩

theorem execRxrBaseWrite_canon (n : Fin 4) (value : BitVec 32) (s : State) (h : s.dev.Canon) :
    ∃ d, execRxrBaseWrite n value s = .next { s with dev := d } ∧ d.Canon :=
  ⟨_, rfl, by simp [h]⟩

theorem execSetSelWrite_canon (value : BitVec 32) (s : State) (h : s.dev.Canon) :
    ∃ d, execSetSelWrite value s = .next { s with dev := d } ∧ d.Canon :=
  ⟨_, rfl, by simp [h]⟩

theorem execSetDataAccess_canon (write : Bool) (value : BitVec 32) (s : State) (h : s.dev.Canon) :
    ∃ d, execSetDataAccess write value s = .next { s with dev := d } ∧ d.Canon :=
  ⟨_, rfl, by simp [h]⟩

theorem execSetCommit_canon (value : BitVec 32) (s : State) (h : s.dev.Canon) :
    ∃ d, execSetCommit value s = .next { s with dev := d } ∧ d.Canon :=
  ⟨_, rfl, by simp [h]⟩

theorem execSetLoad_canon (value : BitVec 32) (s : State) (h : s.dev.Canon) :
    ∃ d, execSetLoad value s = .next { s with dev := d } ∧ d.Canon :=
  ⟨_, rfl, by simp [h]⟩

theorem execProfDataWrite_canon (value : BitVec 32) (s : State) (h : s.dev.Canon) :
    ∃ d, execProfDataWrite value s = .next { s with dev := d } ∧ d.Canon :=
  ⟨_, rfl, by simp [h]⟩

theorem execPanSelWrite_canon (g : Fin 4) (value : BitVec 32) (s : State) (h : s.dev.Canon) :
    ∃ d, execPanSelWrite g value s = .next { s with dev := d } ∧ d.Canon :=
  ⟨_, rfl, by simp [h]⟩

theorem execPanCommit_canon (g : Fin 4) (value : BitVec 32) (s : State) (h : s.dev.Canon) :
    ∃ d, execPanCommit g value s = .next { s with dev := d } ∧ d.Canon :=
  ⟨_, rfl, by simp [h]⟩

theorem execPanLoad_canon (g : Fin 4) (value : BitVec 32) (s : State) (h : s.dev.Canon) :
    ∃ d, execPanLoad g value s = .next { s with dev := d } ∧ d.Canon :=
  ⟨_, rfl, by simp [h]⟩

theorem execPanSecWrite_canon (p : Fin 128) (value : BitVec 32) (s : State) (h : s.dev.Canon) :
    ∃ d, execPanSecWrite p value s = .next { s with dev := d } ∧ d.Canon :=
  ⟨_, rfl, by simp [h]⟩

theorem execScrubEnWrite_canon (value : BitVec 32) (s : State) (h : s.dev.Canon) :
    ∃ d, execScrubEnWrite value s = .next { s with dev := d } ∧ d.Canon :=
  ⟨_, rfl, by simp [h]⟩

theorem execTimStart_canon (value : BitVec 32) (s : State) (h : s.dev.Canon) :
    ∃ d, execTimStart value s = .next { s with dev := d } ∧ d.Canon :=
  ⟨_, rfl, by simp [h]⟩

theorem execTimStop_canon (value : BitVec 32) (s : State) (h : s.dev.Canon) :
    ∃ d, execTimStop value s = .next { s with dev := d } ∧ d.Canon :=
  ⟨_, rfl, by simp [h]⟩

theorem execCountWrite_canon (n : Fin 16) (value : BitVec 32) (s : State) (h : s.dev.Canon) :
    ∃ d, execCountWrite n value s = .next { s with dev := d } ∧ d.Canon :=
  ⟨_, rfl, by simp [h]⟩

theorem execReloadWrite_canon (n : Fin 16) (value : BitVec 32) (s : State) (h : s.dev.Canon) :
    ∃ d, execReloadWrite n value s = .next { s with dev := d } ∧ d.Canon :=
  ⟨_, rfl, by simp [h]⟩

theorem execPrescWrite_canon (n : Fin 16) (value : BitVec 32) (s : State) (h : s.dev.Canon) :
    ∃ d, execPrescWrite n value s = .next { s with dev := d } ∧ d.Canon :=
  ⟨_, rfl, by simp [h]⟩

theorem execCcrRead_canon (n : Fin 16) (c : Fin 4) (s : State) (h : s.dev.Canon) :
    ∃ d, execCcrRead n c s = .next { s with dev := d } ∧ d.Canon :=
  ⟨_, rfl, by simp [h]⟩

theorem execSystimeWrite_canon (value : BitVec 32) (s : State) (h : s.dev.Canon) :
    ∃ d, execSystimeWrite value s = .next { s with dev := d } ∧ d.Canon :=
  ⟨_, rfl, by simp [h]⟩

theorem execEvcSrcWrite_canon (k : Fin 64) (value : BitVec 32) (s : State) (h : s.dev.Canon) :
    ∃ d, execEvcSrcWrite k value s = .next { s with dev := d } ∧ d.Canon :=
  ⟨_, rfl, by simp [h]⟩

theorem execEvcClear_canon (k : Fin 64) (value : BitVec 32) (s : State) (h : s.dev.Canon) :
    ∃ d, execEvcClear k value s = .next { s with dev := d } ∧ d.Canon :=
  ⟨_, rfl, by simp [h]⟩

theorem execGpioSet_canon (value : BitVec 32) (s : State) (h : s.dev.Canon) :
    ∃ d, execGpioSet value s = .next { s with dev := d } ∧ d.Canon :=
  ⟨_, rfl, by simp [h]⟩

theorem execGpioClr_canon (value : BitVec 32) (s : State) (h : s.dev.Canon) :
    ∃ d, execGpioClr value s = .next { s with dev := d } ∧ d.Canon :=
  ⟨_, rfl, by simp [h]⟩

theorem execGpioEdge_canon (j : Fin 16) (rising : Bool) (s : State) (h : s.dev.Canon) :
    ∃ d, execGpioEdge j rising s = .next { s with dev := d } ∧ d.Canon :=
  ⟨_, rfl, by simp [h]⟩

theorem execSleepCapture_canon (src : Fin 7) (rising : Bool) (tick : Nat) (s : State) (h : s.dev.Canon) :
    ∃ d, execSleepCapture src rising tick s = .next { s with dev := d } ∧ d.Canon := by
  refine ⟨_, rfl, ?_⟩
  try dsimp -proj only
  with_reducible repeat' first
    | assumption | intro _ | refine Dev.foldl_canon _ _ _ ?_ ?_ | refine Dev.foldl_canon_fst _ _ _ ?_ ?_
    | apply Dev.sleepEdge_canon | apply Dev.wakeBy_canon | apply Dev.motionEdge_canon
    | (simp -proj only [canon_fst_mk, canon_snd_mk])
    | (simp -proj only [Dev.canon_mk, Tables.wf_mk, Radio.wf_mk, Vault.wf_mk]; refine ⟨?_, ?_, ?_, ?_, ?_⟩)
    | refine Dev.canon_regs ?_ | refine Dev.canon_cfg ?_ | refine Dev.canon_mem ?_ | refine Dev.canon_vault ?_
    | refine Dev.canon_rings ?_ | exact Dev.reset_rings | split

/-! ### SvcCmd -/

theorem execSvcCmd_canon (bytes : List Byte) (s : State) (h : s.dev.Canon) :
    ∃ d, execSvcCmd bytes s = .next { s with dev := d } ∧ d.Canon := by
  refine ⟨_, rfl, ?_⟩
  try dsimp -proj only
  with_reducible repeat' first
    | assumption | intro _ | refine Dev.foldl_canon _ _ _ ?_ ?_ | refine Dev.foldl_canon_fst _ _ _ ?_ ?_
    | apply Dev.svcRun_canon | apply Dev.svcCmd_canon | split

/-! ### Boundary -/

theorem execTempoBoundary_canon (tj : BitVec 8) (vin : BitVec 16) (vbak : BitVec 10) (hwLate : Bool) (s : State) (h : s.dev.Canon) :
    ∃ d, execTempoBoundary tj vin vbak hwLate s = .next { s with dev := d } ∧ d.Canon := by
  refine ⟨_, rfl, ?_⟩
  try dsimp -proj only
  with_reducible repeat' first
    | assumption | apply Dev.slicesNow_canon | apply Dev.sysAdvance_canon | apply Dev.aonTicks_canon
    | apply Dev.timCycles_canon | apply Dev.ppsFall_canon | apply Dev.boundaryWork_canon | split

theorem execGuaranteedSlice_canon (rank : Fin 6) (errs : List LineError) (fault : TestFault) (s : State) (h : s.dev.Canon) :
    ∃ d, execGuaranteedSlice rank errs fault s = .next { s with dev := d } ∧ d.Canon := by
  refine ⟨_, rfl, ?_⟩
  try dsimp -proj only
  with_reducible repeat' first
    | assumption | intro _ | refine Dev.foldl_canon _ _ _ ?_ ?_ | refine Dev.foldl_canon_fst _ _ _ ?_ ?_
    | apply Dev.guaranteed_canon | (simp -proj only [canon_fst_mk, canon_snd_mk])
    | (simp -proj only [Dev.canon_mk, Tables.wf_mk, Radio.wf_mk, Vault.wf_mk]; refine ⟨?_, ?_, ?_, ?_, ?_⟩)
    | refine Dev.canon_regs ?_ | refine Dev.canon_cfg ?_ | refine Dev.canon_mem ?_ | refine Dev.canon_vault ?_
    | refine Dev.canon_rings ?_ | exact Dev.reset_rings | split

/-! ### TableReads -/

theorem execCommandBegin_canon (ring : Fin 8) (hseq : Reads Nat) (s : State) (h : s.dev.Canon) :
    ∃ d, execCommandBegin ring hseq s = .next { s with dev := d } ∧ d.Canon := by
  refine ⟨_, rfl, ?_⟩
  try dsimp -proj only
  with_reducible repeat' first
    | assumption | apply Dev.begin_canon | split

end Sys2Proof.Machine
end

