-- ==== Sys2Proof/Laws/Record.lean ====
section
/-! SUPPORT. The save record's bytes (R97, R99): fields of concatenated bytes, the range of a CRC-32, and that what a resignation
seals reads back as a valid record. -/

namespace Sys2Proof.Machine
open Sys2Proof

theorem beField_append_left (x y : List Byte) (i n : Nat) (h : i + n ≤ x.length) : beField (x ++ y) i n = beField x i n := by
  unfold beField
  congr 1
  refine List.map_congr_left fun k hk => ?_
  rw [List.getD_append _ _ _ _ (by have := List.mem_range.mp hk; omega)]

theorem beField_append_right (x y : List Byte) (i n : Nat) (h : x.length ≤ i) : beField (x ++ y) i n = beField y (i - x.length) n := by
  unfold beField
  congr 1
  refine List.map_congr_left fun k _ => ?_
  rw [List.getD_append_right _ _ _ _ (by omega), show i + k - x.length = i - x.length + k by omega]

theorem beField_lt (b : List Byte) (i n : Nat) : beField b i n < 256 ^ n := by
  unfold beField
  induction n with
  | zero => simp
  | succ n ih =>
    rw [List.range_succ, List.map_append, List.foldl_append, pow_succ]
    have h : (b.getD (i + n) 0).toNat < 256 := (b.getD (i + n) 0).isLt
    simp only [List.map_cons, List.map_nil, List.foldl_cons, List.foldl_nil]
    omega

theorem beBytes_length (n v : Nat) : (beBytes n v).length = n := by simp [beBytes]

theorem beField_beBytes (v : Nat) (h : v < 2 ^ 32) : beField (beBytes 4 v) 0 4 = v := by
  simp only [beField, beBytes, List.range_succ, List.range_zero, List.nil_append, List.cons_append, List.map_cons, List.map_nil,
    List.getD_cons_zero, List.getD_cons_succ, List.foldl_cons, List.foldl_nil, BitVec.toNat_ofNat]
  norm_num
  omega

theorem crcByte_lt (c : Nat) (b : Byte) (h : c < 2 ^ 32) : crcByte c b.toNat < 2 ^ 32 := by
  have hb : c ^^^ b.toNat < 2 ^ 32 := Nat.xor_lt_two_pow h (lt_trans b.isLt (by norm_num))
  unfold crcByte
  generalize c ^^^ b.toNat = x at hb
  induction List.range 8 generalizing x with
  | nil => exact hb
  | cons _ _ ih =>
    refine ih _ ?_
    dsimp only
    split
    · exact Nat.xor_lt_two_pow (by omega) (by norm_num)
    · omega

theorem crc32_lt (l : List Byte) : crc32 l < 2 ^ 32 := by
  have h : ∀ (l : List Byte) (c : Nat), c < 2 ^ 32 → l.foldl (fun c b => crcByte c b.toNat) c < 2 ^ 32 := by
    intro l
    induction l with
    | nil => exact fun _ hc => hc
    | cons b l ih => exact fun c hc => ih _ (crcByte_lt c b hc)
  exact Nat.xor_lt_two_pow (h l _ (by norm_num)) (by norm_num)

theorem length_flatMap_range (n k : Nat) (f : Nat → List Byte) (h : ∀ i, (f i).length = k) : ((List.range n).flatMap f).length = n * k := by
  simp [List.length_flatMap, h]

theorem Rec.body_length (r : Rec) : r.body.length = 0x6060 := by
  unfold Rec.body
  simp only [List.length_append, beBytes_length, List.length_replicate]
  rw [length_flatMap_range 8 4 _ (fun i => by simp [beBytes_length]), length_flatMap_range 64 8 _ (fun i => by simp [beBytes_length]),
    length_flatMap_range 32 240 _ (fun i => by rw [length_flatMap_range 60 4 _ (fun j => beBytes_length _ _)]),
    length_flatMap_range 4096 4 _ (fun i => beBytes_length _ _)]

/-- What a resignation seals reads back as a valid record, whatever its fields hold (R97, R99). -/
theorem Rec.read_bytes (r : Rec) : (Rec.read r.bytes).isSome = true := by
  have hl := r.body_length
  have hb : r.bytes.length = 0x6064 := by unfold Rec.bytes; rw [List.length_append, hl, beBytes_length]
  obtain ⟨rest, hr⟩ : ∃ rest, r.bytes = beBytes 4 0x51524553 ++ (beBytes 2 0x0001 ++ (beBytes 1 r.reason ++ (beBytes 1 r.flags ++ (beBytes 4 r.seq
      ++ (beBytes 4 0x6064 ++ rest))))) := ⟨_, by unfold Rec.bytes Rec.body; simp only [List.append_assoc]; rfl⟩
  have h0 : beField r.bytes 0 4 = 0x51524553 := by
    rw [hr, beField_append_left _ _ _ _ (by simp [beBytes_length])]; exact beField_beBytes _ (by norm_num)
  have h4 : beField r.bytes 4 2 = 0x0001 := by
    rw [hr, beField_append_right _ _ _ _ (by simp [beBytes_length]), beField_append_left _ _ _ _ (by simp [beBytes_length])]
    simp only [beBytes_length]; decide
  have h12 : beField r.bytes 12 4 = 0x6064 := by
    rw [hr]
    iterate 5 rw [beField_append_right _ _ _ _ (by simp only [beBytes_length]; omega)]
    rw [beField_append_left _ _ _ _ (by simp only [beBytes_length]; omega)]
    simp only [beBytes_length]; exact beField_beBytes _ (by norm_num)
  have hc : beFields 4 1 (r.bytes.drop 0x6060) = [crc32 (r.bytes.take 0x6060)] := by
    unfold Rec.bytes
    rw [List.drop_left' hl, List.take_left' hl]
    simp only [beFields]
    rw [List.take_of_length_le (by rw [beBytes_length]), beField_beBytes _ (crc32_lt _)]
  unfold Rec.read
  rw [if_pos ⟨h0, h4, h12, hb, hc⟩]
  rfl

/-- A valid record's always-on count fits its 48 bits (R99). -/
theorem Rec.read_aon (b : List Byte) (r : Rec) (h : Rec.read b = some r) : r.aon < 2 ^ 48 := by
  unfold Rec.read at h
  split at h
  · cases h; exact lt_of_lt_of_eq (beField_lt b 0x18 6) (by norm_num)
  · cases h

end Sys2Proof.Machine
end

