-- ==== Sys2Proof/Laws/Regs.lean ====
section
/-! SUPPORT. Bit fields and the register file: what reads after a write of a field, and what stays. -/

namespace Sys2Proof.Machine

/-! ### Bit fields -/

theorem bits_lt (w hi lo : Nat) : bits w hi lo < 2 ^ (hi + 1 - lo) := Nat.mod_lt _ (Nat.two_pow_pos _)

theorem bits_eq_testBit (w hi lo i : Nat) : (bits w hi lo).testBit i = (decide (i < hi + 1 - lo) && w.testBit (lo + i)) := by
  unfold bits
  rw [Nat.testBit_mod_two_pow, Nat.testBit_div_two_pow, Nat.add_comm i]

/-- A number split at a field: what lies above it, the field, and what lies below. -/
theorem split_field (w hi lo : Nat) (h : lo ≤ hi) :
    w = w / 2 ^ (hi + 1) * 2 ^ (hi + 1) + bits w hi lo * 2 ^ lo + w % 2 ^ lo := by
  have e : 2 ^ (hi + 1) = 2 ^ lo * 2 ^ (hi + 1 - lo) := by rw [← Nat.pow_add]; congr 1; omega
  have a := Nat.div_add_mod w (2 ^ lo)
  have b := Nat.div_add_mod (w / 2 ^ lo) (2 ^ (hi + 1 - lo))
  rw [Nat.div_div_eq_div_mul, ← e] at b
  unfold bits
  have c : w / 2 ^ (hi + 1) * 2 ^ (hi + 1) = 2 ^ lo * (2 ^ (hi + 1 - lo) * (w / 2 ^ (hi + 1))) := by
    rw [← Nat.mul_assoc, ← e, Nat.mul_comm]
  rw [c, Nat.mul_comm (_ % _), ← Nat.mul_add, b, a]

theorem withBits_eq (w hi lo n : Nat) (h : lo ≤ hi) :
    withBits w hi lo n = w / 2 ^ (hi + 1) * 2 ^ (hi + 1) + n % 2 ^ (hi + 1 - lo) * 2 ^ lo + w % 2 ^ lo := by
  unfold withBits
  have s := split_field w hi lo h
  generalize w / 2 ^ (hi + 1) * 2 ^ (hi + 1) = x at *
  generalize bits w hi lo * 2 ^ lo = y at *
  omega

/-- Each bit of a number whose field is replaced. -/
theorem withBits_testBit (w hi lo n i : Nat) (h : lo ≤ hi) :
    (withBits w hi lo n).testBit i = if lo ≤ i ∧ i ≤ hi then n.testBit (i - lo) else w.testBit i := by
  have hm : n % 2 ^ (hi + 1 - lo) * 2 ^ lo + w % 2 ^ lo < 2 ^ (hi + 1) := by
    have a := Nat.mod_lt n (Nat.two_pow_pos (hi + 1 - lo))
    have b := Nat.mod_lt w (Nat.two_pow_pos lo)
    have e : 2 ^ (hi + 1) = 2 ^ (hi + 1 - lo) * 2 ^ lo := by rw [← Nat.pow_add]; congr 1; omega
    rw [e]
    calc n % 2 ^ (hi + 1 - lo) * 2 ^ lo + w % 2 ^ lo < n % 2 ^ (hi + 1 - lo) * 2 ^ lo + 2 ^ lo := by omega
      _ = (n % 2 ^ (hi + 1 - lo) + 1) * 2 ^ lo := by rw [Nat.add_mul]; omega
      _ ≤ _ := Nat.mul_le_mul_right _ a
  rw [withBits_eq w hi lo n h, Nat.add_assoc, Nat.mul_comm _ (2 ^ (hi + 1)), Nat.testBit_two_pow_mul_add _ hm]
  split
  · rename_i hi'
    rw [Nat.mul_comm _ (2 ^ lo), Nat.testBit_two_pow_mul_add _ (Nat.mod_lt w (Nat.two_pow_pos lo))]
    split
    · rename_i hl
      rw [if_neg (by omega), Nat.testBit_mod_two_pow]; simp [hl]
    · rename_i hl
      rw [if_pos (by omega), Nat.testBit_mod_two_pow]
      simp [show i - lo < hi + 1 - lo by omega]
  · rename_i hi'
    rw [if_neg (by omega), Nat.testBit_div_two_pow]
    congr 1; omega

theorem bits_withBits (w hi lo n : Nat) (h : lo ≤ hi) : bits (withBits w hi lo n) hi lo = n % 2 ^ (hi + 1 - lo) := by
  apply Nat.eq_of_testBit_eq
  intro i
  rw [bits_eq_testBit, withBits_testBit _ _ _ _ _ h, Nat.testBit_mod_two_pow]
  by_cases c : i < hi + 1 - lo
  · rw [if_pos (by omega)]; simp
  · simp [c]

theorem bits_withBits_other (w hi lo n hi' lo' : Nat) (h : lo ≤ hi) (hd : hi < lo' ∨ hi' < lo) :
    bits (withBits w hi lo n) hi' lo' = bits w hi' lo' := by
  apply Nat.eq_of_testBit_eq
  intro i
  rw [bits_eq_testBit, bits_eq_testBit, withBits_testBit _ _ _ _ _ h]
  by_cases c : i < hi' + 1 - lo'
  · rw [if_neg (by omega)]
  · simp [c]

theorem withBits_lt (w hi lo n k : Nat) (h : lo ≤ hi) (hk : hi < k) (hw : w < 2 ^ k) : withBits w hi lo n < 2 ^ k := by
  apply Nat.lt_pow_two_of_testBit
  intro i hi'
  rw [withBits_testBit _ _ _ _ _ h, if_neg (by omega)]
  exact Nat.testBit_lt_two_pow (Nat.lt_of_lt_of_le hw (Nat.pow_le_pow_right (by omega) hi'))

/-! ### The register file -/

theorem Dev.rd_lt (d : Dev) (k : Nat) : d.rd k < 2 ^ 32 := BitVec.isLt _

theorem Dev.rd_wr (d : Dev) (h : d.Canon) (k v k' : Nat) :
    (d.wr k v).rd k' = if k' = k then v % 2 ^ 32 else d.rd k' := by
  unfold Dev.rd Dev.wr
  rw [SMap.get_set _ _ h.regs]
  split <;> simp

theorem Dev.rd_put (d : Dev) (h : d.Canon) (f : Fld) (n k : Nat) :
    (d.put f n).rd k = if k = f.addr then withBits (d.rd f.addr) f.hi f.lo n % 2 ^ 32 else d.rd k :=
  Dev.rd_wr d h _ _ _

/-- A field put reads back, to its width. -/
theorem Dev.get_put (d : Dev) (h : d.Canon) (f : Fld) (hf : f.lo ≤ f.hi) (hb : f.hi < 32) (n : Nat) :
    (d.put f n).get f = n % 2 ^ (f.hi + 1 - f.lo) := by
  unfold Dev.get
  rw [Dev.rd_put d h, if_pos rfl, Nat.mod_eq_of_lt (withBits_lt _ _ _ _ _ hf hb (d.rd_lt _)), bits_withBits _ _ _ _ hf]

/-- A field that shares no bit with the one put stays. -/
theorem Dev.get_put_other (d : Dev) (h : d.Canon) (f g : Fld) (hf : f.lo ≤ f.hi) (hb : f.hi < 32) (n : Nat)
    (hd : g.addr ≠ f.addr ∨ f.hi < g.lo ∨ g.hi < f.lo) : (d.put f n).get g = d.get g := by
  unfold Dev.get
  rw [Dev.rd_put d h]
  split
  · rename_i e
    rw [Nat.mod_eq_of_lt (withBits_lt _ _ _ _ _ hf hb (d.rd_lt _)), bits_withBits_other _ _ _ _ _ _ hf, e]
    cases hd with
    | inl c => exact absurd e c
    | inr c => exact c
  · rfl

/-! ### Steps that touch registers only -/

theorem Dev.OnlyRegs.refl (ks : List Nat) (d : Dev) : Dev.OnlyRegs ks d d := ⟨⟨d.regs, d.heldEvents, rfl⟩, fun _ _ _ => rfl⟩

theorem Dev.OnlyRegs.trans {ks : List Nat} {a b c : Dev} (h1 : a.OnlyRegs ks b) (h2 : b.OnlyRegs ks c) : a.OnlyRegs ks c := by
  obtain ⟨⟨r1, e1, rfl⟩, k1⟩ := h1
  obtain ⟨⟨r2, e2, rfl⟩, k2⟩ := h2
  exact ⟨⟨r2, e2, rfl⟩, fun k hk h7 => (k2 k hk h7).trans (k1 k hk h7)⟩

theorem Dev.OnlyRegs.mono {ks qs : List Nat} {a b : Dev} (h : a.OnlyRegs ks b) (hs : ∀ p ∈ ks, p ∈ qs) : a.OnlyRegs qs b :=
  ⟨h.1, fun k hk => h.2 k (fun c => hk (hs _ c))⟩

theorem Dev.OnlyRegs.kept {ks : List Nat} {a b : Dev} (h : a.OnlyRegs ks b) : a.regsKept ks b := h.2

/-- A field outside the keys that a step touches reads as before. -/
theorem Dev.OnlyRegs.get {ks : List Nat} {a b : Dev} (h : a.OnlyRegs ks b) (f : Fld) (hf : f.addr ∉ ks) (h7 : keyPage f.addr ≠ 7) :
    b.get f = a.get f := by
  unfold Dev.get; rw [h.2 _ hf h7]

theorem Dev.wr_only (d : Dev) (h : d.Canon) (k v : Nat) (ks : List Nat) (hk : k ∈ ks) : d.OnlyRegs ks (d.wr k v) :=
  ⟨⟨_, d.heldEvents, rfl⟩, fun k' h' _ => by rw [Dev.rd_wr d h, if_neg]; rintro rfl; exact h' hk⟩

theorem Dev.wr_only7 (d : Dev) (h : d.Canon) (k v : Nat) (ks : List Nat) (hk : keyPage k = 7) : d.OnlyRegs ks (d.wr k v) :=
  ⟨⟨_, d.heldEvents, rfl⟩, fun k' _ h' => by rw [Dev.rd_wr d h, if_neg]; rintro rfl; exact h' hk⟩

theorem Dev.put_only (d : Dev) (h : d.Canon) (f : Fld) (n : Nat) (ks : List Nat) (hk : f.addr ∈ ks) :
    d.OnlyRegs ks (d.put f n) := Dev.wr_only d h _ _ _ hk

theorem Dev.put_only7 (d : Dev) (h : d.Canon) (f : Fld) (n : Nat) (ks : List Nat) (hk : keyPage f.addr = 7) :
    d.OnlyRegs ks (d.put f n) := Dev.wr_only7 d h _ _ _ hk

theorem Dev.bump_only (d : Dev) (h : d.Canon) (f : Fld) (n : Nat) (ks : List Nat) (hk : f.addr ∈ ks) :
    d.OnlyRegs ks (d.bump f n) := Dev.put_only d h _ _ _ hk

theorem Dev.peak_only (d : Dev) (h : d.Canon) (f : Fld) (n : Nat) (ks : List Nat) (hk : f.addr ∈ ks) :
    d.OnlyRegs ks (d.peak f n) := by
  unfold Dev.peak; split
  · exact Dev.put_only d h _ _ _ hk
  · exact .refl _ _

theorem Dev.putPair_only (d : Dev) (h : d.Canon) (lo hi : Fld) (v : Nat) (ks : List Nat)
    (hl : lo.addr ∈ ks) (hh : hi.addr ∈ ks) : d.OnlyRegs ks (d.putPair lo hi v) :=
  (Dev.put_only d h _ _ _ hl).trans (Dev.put_only _ (by simp [h]) _ _ _ hh)

theorem Dev.evcAdd_only (d : Dev) (h : d.Canon) (k : Nat) (hk : k < 64) (n : Nat) (ks : List Nat) : d.OnlyRegs ks (d.evcAdd k n).1 := by
  have a1 : keyPage (F.EVC_COUNT_LO_COUNT k).addr = 7 := by
    simp only [F.EVC_COUNT_LO_COUNT, R.EVC_COUNT_LO, keyPage, keyAddr]; omega
  have a2 : keyPage (F.EVC_COUNT_HI_COUNT k).addr = 7 := by
    simp only [F.EVC_COUNT_HI_COUNT, R.EVC_COUNT_HI, keyPage, keyAddr]; omega
  have p1 : d.OnlyRegs ks (d.putPair (F.EVC_COUNT_LO_COUNT k) (F.EVC_COUNT_HI_COUNT k) ((d.evcCount k + n) % 2 ^ 48)) :=
    (Dev.put_only7 d h _ _ _ a1).trans (Dev.put_only7 _ (by simp [h]) _ _ _ a2)
  unfold Dev.evcAdd
  dsimp only
  split
  · exact p1
  · refine p1.trans (Dev.put_only7 _ (by simp [h]) _ _ _ ?_)
    split
    · exact (by decide : keyPage R.EVC_OVF_A = 7)
    · exact (by decide : keyPage R.EVC_OVF_B = 7)

theorem Dev.evtBase_only (d : Dev) (h : d.Canon) (id n : Nat) (ks : List Nat) : d.OnlyRegs ks (d.evtBase id n).1 := by
  unfold Dev.evtBase
  split
  · have key : ∀ (l : List Nat) (x : Dev × Bool), (∀ k ∈ l, k < 64) → x.1.Canon → d.OnlyRegs ks x.1 →
        d.OnlyRegs ks (l.foldl (fun (x : Dev × Bool) k =>
          if x.1.get (F.EVC_SRC_ID k) = id then let y := x.1.evcAdd k n; (y.1, x.2 || y.2) else x) x).1 := by
      intro l
      induction l with
      | nil => exact fun x _ _ hx => hx
      | cons k t ih =>
        intro x hl hc hx
        refine ih _ (fun k hk => hl k (.tail _ hk)) ?_ ?_
        · dsimp only; split
          · exact Dev.evcAdd_canon _ _ _ hc
          · exact hc
        · dsimp only; split
          · exact hx.trans (Dev.evcAdd_only _ hc _ (hl k (.head _)) _ _)
          · exact hx
    exact key _ _ (fun k hk => by simpa using hk) h (.refl _ _)
  · exact .refl _ _

/-- An event counts in the registers of the EVC page and nowhere else. -/
theorem Dev.evt_only (d : Dev) (h : d.Canon) (id n : Nat) (ks : List Nat) : d.OnlyRegs ks (d.evt id n) := by
  have b := Dev.evtBase_only d h id n ks
  unfold Dev.evt
  dsimp only
  split
  · have c := b.trans (Dev.put_only7 (d.evtBase id n).1 (by simp [h]) (H.rawBit 0x07 0) 1 ks (by decide))
    split
    · exact c.trans (Dev.evtBase_only _ (by simp [h]) _ _ _)
    · exact c
  · exact b

/-- Raising a bit of a page's IRQ_RAW touches that register, the event counters and the held events. -/
theorem Dev.raise_only (d : Dev) (h : d.Canon) (p b : Nat) (ks : List Nat) (a : (H.rawBit p b).addr ∈ ks) :
    d.OnlyRegs ks (d.raise p b) := by
  unfold Dev.raise
  split
  · split
    · exact .refl _ _
    · exact ⟨⟨d.regs, _, rfl⟩, fun _ _ _ => rfl⟩
  · split
    · exact Dev.put_only d h _ _ _ a
    · dsimp only
      split
      · exact (Dev.put_only d h _ _ _ a).trans (Dev.evt_only _ (by simp [h]) _ _ _)
      · exact Dev.put_only d h _ _ _ a

/-- Outside the PROMOTE pause a raised bit is set. -/
theorem Dev.raise_sets (d : Dev) (h : d.Canon) (p b : Nat) (hp : keyPage (H.rawBit p b).addr ≠ 7) (hb : b < 32) (hq : d.paused = false) :
    (d.raise p b).is (H.rawBit p b) = true := by
  have s : (d.put (H.rawBit p b) 1).get (H.rawBit p b) = 1 := by
    rw [Dev.get_put d h _ (Nat.le_refl _) hb]; simp [H.rawBit, Nat.add_sub_cancel_left]
  have e : ∀ id, ((d.put (H.rawBit p b) 1).evt id 1).get (H.rawBit p b) = 1 := by
    intro id
    rw [(Dev.evt_only (d.put (H.rawBit p b) 1) (by simp [h]) id 1 []).get _ (by simp) hp, s]
  unfold Dev.paused at hq
  unfold Dev.raise
  rw [hq]
  dsimp only
  simp only [Bool.false_eq_true, if_false]
  unfold Dev.is
  split
  · rw [s]; rfl
  · split
    · rw [e]; rfl
    · rw [s]; rfl

/-- A rejection touches its page's error record and IRQ_RAW. -/
theorem Dev.reject_only (d : Dev) (h : d.Canon) (p c a v : Nat) (ks : List Nat) (hs : ∀ k ∈ errKeys p, k ∈ ks) :
    d.OnlyRegs ks (d.reject p c a v) := by
  have k10 := hs (p * 0x1000 + 0x010) (by simp [errKeys])
  have k1C := hs (p * 0x1000 + 0x01C) (by simp [errKeys])
  have k20 := hs (p * 0x1000 + 0x020) (by simp [errKeys])
  have k24 := hs (p * 0x1000 + 0x024) (by simp [errKeys])
  unfold Dev.reject
  dsimp only
  have c1 := Dev.bump_canon d (H.errCount p) 1 h
  have s1 := Dev.bump_only d h (H.errCount p) 1 ks k1C
  generalize d.bump (H.errCount p) 1 = d1 at *
  have c2 := Dev.put_canon d1 (H.errMore p) (b2n (d.get (H.errCode p) != 0)) c1
  have s2 := s1.trans (Dev.put_only d1 c1 (H.errMore p) (b2n (d.get (H.errCode p) != 0)) ks k1C)
  generalize d1.put (H.errMore p) _ = d2 at *
  have c3 := Dev.put_canon d2 (H.errCode p) c c2
  have s3 := s2.trans (Dev.put_only d2 c2 (H.errCode p) c ks k1C)
  generalize d2.put (H.errCode p) _ = d3 at *
  have c4 := Dev.put_canon d3 (H.errAddr p) a c3
  have s4 := s3.trans (Dev.put_only d3 c3 (H.errAddr p) a ks k20)
  generalize d3.put (H.errAddr p) _ = d4 at *
  have c5 := Dev.put_canon d4 (H.errData p) v c4
  have s5 := s4.trans (Dev.put_only d4 c4 (H.errData p) v ks k24)
  exact s5.trans (Dev.raise_only _ c5 p 31 ks k10)

end Sys2Proof.Machine
end

