-- ==== Sys2Proof/WellFormed.lean ====
section
/-! DEFINITION. Which commands the outside world can send: the operands that a width, a length or a form of the spec bounds. The
meanings are total and do not ask for it. -/

namespace Sys2Proof

/-- An IPv6 address is 128 bits wide. -/
def wfIp (a : Nat) : Bool := decide (a < 2 ^ 128)

/-- The VID of a tag, 0 to 4,095. -/
def wfTag : Option Nat → Bool
  | none => true
  | some v => decide (v < 4096)

/-- Lines of table memory that read in error: at most one entry a line. -/
def wfErrs (l : List LineError) : Bool :=
  l.all (fun e => decide (e.line < 0x1000000)) && (l.map (fun e => e.line)).Nodup

/-- A temperature that TEMP of a chain can hold, °C. -/
def wfTemp (t : Int) : Bool := decide (-128 ≤ t) && decide (t ≤ 127)

def wfTemps (n : Nat) (l : List Int) : Bool := l.length == n && l.all wfTemp

/-- The Brioz Link session that carries an entry: 4 × port + session. -/
def wfVia : Option Nat → Bool
  | none => true
  | some n => decide (n < 8)

/-- A reading of a delivery record: 16 bits, signed. -/
def wfReading (x : Int) : Bool := decide (-32768 ≤ x) && decide (x ≤ 32767)

/-- A packet: 128-bit addresses, the fields of the IPv6 header, and at least that header. -/
def IpPacket.wf (p : IpPacket) : Bool :=
  wfIp p.src && wfIp p.dst && decide (p.dscp < 64) && decide (p.hopLimit < 256) && decide (40 ≤ p.bytes.length)

/-- A trim: an entry of a table, or of a spare's sector tables, and the codes. -/
def Trim.wf (t : Trim) : Bool := decide (t.entry < 512) && decide (t.bias < 256) && decide (t.gain < 256) && decide (t.offset < 256)

/-- A master's data set: the widths of the fields of an Announce message. -/
def PtpMaster.wf (m : PtpMaster) : Bool :=
  decide (m.priority1 < 256) && decide (m.clockClass < 256) && decide (m.accuracy < 256) && decide (m.variance < 65536)
    && decide (m.priority2 < 256) && decide (m.gmId < 2 ^ 64) && decide (m.steps < 65536)

/-- A completed exchange with a master: the widths of its time stamps and corrections. -/
def PtpExchange.wf (x : PtpExchange) : Bool :=
  wfTag x.tag && decide (x.sent < 2 ^ 80) && decide (x.arrived < 2 ^ 80) && decide (x.asked < 2 ^ 80) && decide (x.answered < 2 ^ 80)
    && decide (x.syncCorr.natAbs < 2 ^ 63) && decide (x.respCorr.natAbs < 2 ^ 63)

/-- A command that can be sent. -/
def Instr.wf : Instr → Bool
  | .tempoBoundary _ _ _ _ => true
  | .guaranteedSlice _ errs _ => wfErrs errs
  | .scrubWriteBack => true
  | .vinLow => true
  | .vinLowCleared => true
  | .vinHigh => true
  | .vinHighCleared => true
  | .vbakLow => true
  | .vbakLowCleared => true
  | .vbakAbsent => true
  | .vbakAbsentCleared => true
  | .sag => true
  | .saveComplete w _ => decide (w.written ≤ 65536) && (w.flaws ++ w.again).all (fun x => decide (x.1 < 65536))
  | .resignGo _ => true
  | .thermalShutdown => true
  | .bankMeasure _ _ => true
  | .targetIdle _ => true
  | .idleEntry => true
  | .targetRun _ => true
  | .runEntry => true
  | .targetSleep _ => true
  | .sleepEntry => true
  | .sleepRequestTimeout => true
  | .wake _ _ _ _ => true
  | .wakeTimerExpiry => true
  | .wakeComplete _ _ => true
  | .refDeviationWindow _ => true
  | .refStopped => true
  | .pllUnlock => true
  | .slowClockStopped => true
  | .powerUp _ => true
  | .railsUp _ => true
  | .loadComplete _ => true
  | .selftestSlice _ _ _ _ _ => true
  | .copyComplete _ => true
  | .laneStart => true
  | .startupCalibration steps temps trims =>
    (steps.fails ++ steps.again).all (fun x => decide (x.2 < 66)) && wfTemps 36 temps && trims.all (fun x => x.2.wf)
  | .release _ _ => true
  | .resetNLow => true
  | .resetNHigh _ _ => true
  | .runtimeSelftestSlice _ => true
  | .arm _ => true
  | .confirm _ _ => true
  | .zeroiseComplete => true
  | .openingEnd => true
  | .regWriteGeneric _ _ _ => true
  | .rcRead _ => true
  | .pairLoStage _ _ _ => true
  | .pairHiCommit _ _ _ => true
  | .irqPendClear _ _ => true
  | .softReset _ _ => true
  | .softResetDone _ => true
  | .freeze _ _ => true
  | .bar2Read off _ errs => decide (off < 0x4000000) && off % 4 == 0 && wfErrs errs
  | .bar2Write off bytes _ value errs => decide (off < 0x4000000) && decide (0 < bytes) && decide (bytes ≤ 8) && decide (value < 2 ^ 64) && wfErrs errs
  | .sqDoorbell _ _ => true
  | .cqDoorbell _ _ => true
  | .ringEnable _ _ => true
  | .ringDisable _ _ => true
  | .cqBaseWrite _ _ => true
  | .commandEntry _ bytes via => bytes.length == 64 && wfVia via
  | .commandBegin _ hseq => decide (hseq.of < 65536) && wfErrs hseq.errs
  | .latestStartPass _ hseq => decide (hseq < 65536)
  | .completionWrite _ => true
  | .ringDmaError _ => true
  | .nop _ hseq => decide (hseq < 65536)
  | .regRead _ hseq => decide (hseq < 65536)
  | .regWrite _ hseq => decide (hseq < 65536)
  | .resync _ hseq => decide (hseq < 65536)
  | .msixPost _ _ => true
  | .msixGapExpiry _ _ => true
  | .eventRecordSend _ => true
  | .softSet _ => true
  | .vote _ _ outs _ => outs.length == 4
  | .sramUe _ => true
  | .endOfTempoMark m _ => m.sigs.length == 4 && m.ce.length == 4
  | .quarantineEnd _ _ => true
  | .admitReq _ => true
  | .admissionCopyDone => true
  | .admissionComplete => true
  | .dryStart _ => true
  | .dryAbort _ => true
  | .dryEnd => true
  | .portServiceChange _ _ _ => true
  | .chainLock _ => true
  | .rxLoUnlock _ => true
  | .lockFail _ => true
  | .slotCommand _ => true
  | .delayLineFill _ => true
  | .txRelease _ power _ => decide (power.length ≤ 8)
  | .txEnd _ => true
  | .txUnlockAbort _ => true
  | .paProtect _ => true
  | .maskViolation _ _ samples => decide (256 ≤ samples.length) && decide (samples.length ≤ 2048) && samples.all (fun x => wfReading x.1 && wfReading x.2)
  | .coexGrantLoss => true
  | .blankPin _ _ => true
  | .blankExtExpiry _ => true
  | .rfLimitWrite _ => true
  | .step5Check _ => true
  | .fcntReserveDone _ _ => true
  | .fcntReserveRetry _ => true
  | .occWindowStart => true
  | .vaultCommit _ hseq => decide (hseq < 65536)
  | .vaultBurnDone => true
  | .draftReload _ => true
  | .calDue _ temps => wfTemps 9 temps
  | .calStep _ _ found => wfTemp found.temp && found.trims.all Trim.wf
  | .castlingSettled _ => true
  | .swapPoint _ _ => true
  | .castlingReturn _ _ => true
  | .calRequest _ hseq => decide (hseq < 65536)
  | .preambleDetect _ _ _ => true
  | .syncFound _ strength snr cfo _ _ => wfReading strength && wfReading snr && wfReading cfo
  | .syncTimeout _ => true
  | .mergeWindowClose _ snr => wfReading snr
  | .phrInvalid _ f => decide (f.bytes.length < 2048)
  | .frameCheck _ _ _ _ bytes => decide (bytes.length < 2048)
  | .contextAbandon _ => true
  | .gainStepDown _ => true
  | .lselWrite _ => true
  | .listenCommit _ => true
  | .listenLoad _ => true
  | .rxRecordWrite _ => true
  | .rxrConsWrite _ _ => true
  | .rxrBaseWrite _ _ => true
  | .rxRingTimeout _ => true
  | .rxRingDmaError _ => true
  | .uplinkPipeline _ errs => wfErrs errs
  | .txRaw _ hseq => decide (hseq < 65536)
  | .setSelWrite _ => true
  | .setDataAccess _ _ => true
  | .setCommit _ => true
  | .setLoad _ => true
  | .profDataWrite _ => true
  | .downlinkAdmission => true
  | .frameSelection _ => true
  | .channelAccess id => wfErrs id.errs
  | .minuteBinRoll => true
  | .backoffExpiry _ power _ => decide (power.length ≤ 8)
  | .lbtNewRound _ => true
  | .beaconDue _ _ => true
  | .beaconSkip _ => true
  | .associationResponse _ _ power _ => decide (power.length ≤ 8)
  | .ackSend _ _ _ => true
  | .ackWaitExpiry _ => true
  | .peerAbsent _ => true
  | .peerAdoptable _ => true
  | .peerAdopt _ hseq => decide (hseq < 65536)
  | .macSend _ hseq => decide (hseq < 65536)
  | .nodeRelease _ hseq => decide (hseq < 65536)
  | .nodeTiming _ hseq => decide (hseq < 65536)
  | .nodeScan _ hseq => decide (hseq < 65536)
  | .floodSend _ hseq => decide (hseq < 65536)
  | .floodRelay _ => true
  | .panSelWrite _ _ => true
  | .panCommit _ _ => true
  | .panLoad _ _ => true
  | .keyLoad _ hseq => decide (hseq < 65536)
  | .keyErase _ hseq => decide (hseq < 65536)
  | .keyBind _ hseq => decide (hseq < 65536)
  | .keyInfo _ hseq => decide (hseq < 65536)
  | .ownerLock _ hseq => decide (hseq < 65536)
  | .ownerRekey _ hseq => decide (hseq < 65536)
  | .panSecWrite _ _ => true
  | .dirLoad _ hseq => decide (hseq < 65536)
  | .dirLoadBatch errs => wfErrs errs
  | .dirRemove _ hseq => decide (hseq < 65536)
  | .dirFind _ hseq => decide (hseq < 65536)
  | .fwdFlush _ hseq => decide (hseq < 65536)
  | .tmemClearLine _ hseq => decide (hseq < 65536)
  | .scrubSlice _ errs => wfErrs errs
  | .scrubEnWrite _ => true
  | .cellScan => true
  | .timingClearSlice => true
  | .telemSnapshot => true
  | .telemWriteSlice _ => true
  | .telemDatagram _ num => wfErrs num.errs
  | .sweepVisit _ n => wfErrs n.errs
  | .qschFlush _ hseq => decide (hseq < 65536)
  | .egressService _ => true
  | .linkChange _ _ _ => true
  | .moduleInsert _ => true
  | .moduleRemove _ => true
  | .vsfpOvercurrent _ => true
  | .bhlModuleRead _ hseq bytes => decide (hseq < 65536) && decide (bytes.length ≤ 16)
  | .neighborSolicitation _ tag target => wfTag tag && wfIp target
  | .echoRequest _ tag target => wfTag tag && wfIp target
  | .routerAdvertisement _ tag _ => wfTag tag
  | .downlinkPacket _ tag packet => wfTag tag && packet.wf
  | .reasmTimeout => true
  | .openSession _ addr udp tag bytes => wfIp addr && decide (udp < 65536) && wfTag tag && decide (bytes.length < 65528)
  | .closeSession _ addr udp tag bytes => wfIp addr && decide (udp < 65536) && wfTag tag && decide (bytes.length < 65528)
  | .keepalive _ addr udp tag bytes => wfIp addr && decide (udp < 65536) && wfTag tag && decide (bytes.length < 65528)
  | .brzCmd _ addr udp tag bytes => wfIp addr && decide (udp < 65536) && wfTag tag && decide (bytes.length < 65528)
  | .hdata _ addr udp tag bytes => wfIp addr && decide (udp < 65536) && wfTag tag && decide (bytes.length < 65528)
  | .hdataWrite errs => wfErrs errs
  | .sessionIdleTimeout _ _ => true
  | .keepaliveSend _ _ => true
  | .datagramSend _ _ _ => true
  | .ptpExchange x => x.wf
  | .ptpAnnounce a => wfTag a.tag && a.master.wf
  | .ptpSyncTimeout => true
  | .announceTimeout => true
  | .ppsInEdge => true
  | .ppsOutSecond => true
  | .pcieReset _ => true
  | .countClock _ => true
  | .timStart _ => true
  | .timStop _ => true
  | .countWrite _ _ => true
  | .reloadWrite _ _ => true
  | .prescWrite _ _ => true
  | .capture _ _ => true
  | .sleepCapture _ _ _ => true
  | .ccrRead _ _ => true
  | .debugHalt _ => true
  | .systimeWrite _ => true
  | .evcSrcWrite _ _ => true
  | .evcClear _ _ => true
  | .gpioEdge _ _ => true
  | .gpioSet _ => true
  | .gpioClr _ => true
  | .svcPoll => true
  | .svcRequest _ => true
  | .svcRead _ => true
  | .svcInfo => true
  | .stageBegin => true
  | .stageData => true
  | .stageCommit => true
  | .stageAbort => true
  | .stagingIdleTimeout => true
  | .svcPromote => true
  | .ownerInit => true
  | .selftest => true
  | .svcCmd bytes => decide (bytes.length ≤ 16)
  | .promote _ hseq => decide (hseq < 65536)
  | .promoteVerifyDone => true
  | .promoteEntry => true
  | .promoteRestart => true
  | .promoteReady => true
  | .promoteFail => true
  | .updPolicy _ hseq => decide (hseq < 65536)
  | .updInfo _ hseq => decide (hseq < 65536)
  | .motionQualify => true
  | .motionHoldExpiry => true
  | .pawnLoad _ hseq => decide (hseq < 65536)
  | .pawnSeal _ hseq => decide (hseq < 65536)
  | .pawnStart _ hseq => decide (hseq < 65536)
  | .pawnStop _ hseq => decide (hseq < 65536)
  | .pawnChain _ hseq => decide (hseq < 65536)
  | .pawnClear _ hseq => decide (hseq < 65536)
  | .pawnSetup => true
  | .pawnSend _ => true
  | .pawnRetryTimeout _ _ => true
  | .pawnStallTimeout _ _ => true
  | .bankCharged => true
  | .pcieLinkUp _ _ => true

end Sys2Proof
end

