-- ==== Sys2Proof/Tests/Slice0.lean ====
section
/-! SUPPORT. The model's own tests: ill-formed commands that the check refuses, single commands on small states, and for each
statement with hypotheses a state that meets them. -/

namespace Sys2Proof.Tests
open Sys2Proof Sys2Proof.Machine
-- One test after another: a thread for each would take more memory than the check allows.
set_option Elab.async false

/-- The device after reset with its PCI Express link up. -/
def hosted : State := { State.reset with dev := (Dev.reset.put F.PCIE_LINK_UP 1).put F.CLK_STAT_REF_OK 1 }

/-- The device with its link up, in another phase of its power-up or power state. -/
def atPhase (p : Phase) : State := { hosted with dev := { hosted.dev with pw := { hosted.dev.pw with phase := p } } }

/-- A canonical state, each of its stores by evaluation. -/
theorem canonical (s : State) (h1 : SMap.wf resetReg s.dev.regs = true := by decide) (h2 : SMap.wf resetReg s.dev.cfg = true := by decide)
    (h3 : SMap.wf (fun _ => 0#36) s.dev.tab.mem = true := by decide) (h4 : SMap.wf (fun _ => 0#32) s.dev.ra.vault.words = true := by decide)
    (h5 : s.dev.rings.length = 8 := by decide) : s.Inv := ⟨h1, h2, h3, h4, h5⟩
/-- A register write that is taken, by evaluation. -/
theorem taken (d : Dev) (a w : Nat) (h1 : d.hostOpen = true := by decide) (h2 : d.paused = false := by decide)
    (h3 : d.writeCode a w true = 0 := by decide) : d.accepts a w := ⟨h1, h2, h3⟩

theorem test_reset_queue : State.reset.pending = [] := rfl
theorem test_reset_canonical : Dev.reset.Canon := canonical State.reset

/-! ### Ill-formed commands -/

theorem test_wf_hseq : [Instr.commandBegin 0 ⟨65536, []⟩, .latestStartPass 0 65536, .nop 0 65536, .regRead 0 65536, .regWrite 0 65536,
    .resync 0 65536, .vaultCommit 0 65536, .calRequest 0 65536, .txRaw 0 65536, .peerAdopt 0 65536, .macSend 0 65536,
    .nodeRelease 0 65536, .nodeTiming 0 65536, .nodeScan 0 65536, .floodSend 0 65536, .keyLoad 0 65536, .keyErase 0 65536,
    .keyBind 0 65536, .keyInfo 0 65536, .ownerLock 0 65536, .ownerRekey 0 65536, .dirLoad 0 65536, .dirRemove 0 65536,
    .dirFind 0 65536, .fwdFlush 0 65536, .tmemClearLine 0 65536, .qschFlush 0 65536, .bhlModuleRead 0 65536 [], .promote 0 65536,
    .updPolicy 0 65536, .updInfo 0 65536, .pawnLoad 0 65536, .pawnSeal 0 65536, .pawnStart 0 65536, .pawnStop 0 65536,
    .pawnChain 0 65536, .pawnClear 0 65536].all (fun c => !c.wf) = true := by decide

theorem test_wf_errs : [Instr.guaranteedSlice 1 [⟨0x1000000, []⟩] ⟨0, 0⟩, .uplinkPipeline 0 [⟨7, []⟩, ⟨7, []⟩],
    .commandBegin 0 ⟨0, [⟨0x1000000, []⟩]⟩, .channelAccess ⟨0, [⟨0x1000000, []⟩]⟩, .telemDatagram 0 ⟨0, [⟨0x1000000, []⟩]⟩,
    .sweepVisit 0 ⟨0, [⟨0x1000000, []⟩]⟩, .dirLoadBatch [⟨0x1000000, []⟩], .scrubSlice 1 [⟨0x1000000, []⟩], .hdataWrite [⟨0x1000000, []⟩]].all (fun c => !c.wf) = true := by
  decide

theorem test_wf_bar2 : [Instr.bar2Read 0x4000000 true [], .bar2Read 2 true [], .bar2Write 0x4000000 8 true 0 [],
    .bar2Write 0 9 true 0 [], .bar2Write 0 0 true 0 [], .bar2Write 0 8 true (2 ^ 64) [],
    .bar2Write 0 8 true 0 [⟨0x1000000, []⟩]].all (fun c => !c.wf) = true := by decide

theorem test_wf_lengths : [Instr.commandEntry 0 [0] none, .commandEntry 0 (List.replicate 64 0) (some 8), .vote 0 0 [] none,
    .endOfTempoMark ⟨[none], [0, 0, 0, 0]⟩ none, .endOfTempoMark ⟨[none, none, none, none], []⟩ none, .bhlModuleRead 0 0 (List.replicate 17 0), .svcCmd (List.replicate 17 0)].all (fun c => !c.wf) = true := by
  decide

theorem test_wf_calibration : [Instr.startupCalibration ⟨[], []⟩ [] [], .startupCalibration ⟨[(0, 66)], []⟩ (List.replicate 36 0) [], .calDue 0 [],
    .calStep 0 true ⟨0, 0, [⟨512, 0, 0, 0, true⟩]⟩, .calStep 0 true ⟨128, 0, []⟩].all (fun c => !c.wf) = true := by decide

theorem test_wf_reception : [Instr.syncFound 0 40000 0 0 ⟨0, 0⟩ 0, .mergeWindowClose 0 40000].all (fun c => !c.wf) = true
    ∧ (Instr.phrInvalid 0 ⟨0, List.replicate 2048 0⟩).wf = false := ⟨by decide, by decide +kernel⟩

theorem test_wf_monitor : (Instr.maskViolation 0 0 [(0, 0)]).wf = false ∧ (Instr.maskViolation 0 0 ((40000, 0) :: List.replicate 255 (0, 0))).wf = false
    ∧ (Instr.saveComplete ⟨65537, [], []⟩ true).wf = false ∧ (Instr.saveComplete ⟨0, [(65536, 0)], []⟩ true).wf = false :=
  by and_intros <;> decide +kernel

theorem test_wf_network : [Instr.neighborSolicitation 0 (some 4096) 0, .neighborSolicitation 0 none (2 ^ 128), .echoRequest 0 (some 4096) 0,
    .routerAdvertisement 0 (some 4096) 0, .openSession 0 (2 ^ 128) 0 none [], .closeSession 0 0 65536 none [],
    .keepalive 0 0 0 (some 4096) [], .brzCmd 0 0 65536 none [], .hdata 0 (2 ^ 128) 0 none [], .ptpExchange ⟨some 4096, true, 0, 0, 0, 0, 0, 0⟩,
    .ptpExchange ⟨none, true, 2 ^ 80, 0, 0, 0, 0, 0⟩].all (fun c => !c.wf) = true := by
  decide

/-! ### States that meet the statements' hypotheses -/

theorem reset_inv : State.reset.Inv := test_reset_canonical
theorem hosted_inv : hosted.Inv :=
  canonical _
theorem atPhase_inv (p : Phase) : (atPhase p).Inv := ⟨hosted_inv.regs, hosted_inv.cfg, hosted_inv.mem, hosted_inv.vault, hosted_inv.rings⟩

theorem wit_IdleStepPassesOneCycle : State.reset.Inv ∧ State.reset.pending = [] ∧ State.reset.dev.awake = true
    ∧ State.reset.dev.cycle + 1 < 100000 ∧ State.reset.dev.bh.slew = 0 :=
  ⟨reset_inv, rfl, by and_intros <;> decide⟩

theorem wit_StepKeepsInv : State.reset.Inv ∧ step State.reset = .next { State.reset with dev := State.reset.dev.tick } := ⟨reset_inv, rfl⟩

theorem wit_SupplyConditionSetsItsFlag : State.reset.Inv ∧ State.reset.dev.watched = true ∧ State.reset.dev.paused = false
    ∧ State.reset.dev.is F.PWR_FLAGS_VIN_LOW = false ∧ State.reset.dev.is F.PWR_FLAGS_VBAK_LOW = false
    ∧ State.reset.dev.is F.PWR_FLAGS_VIN_HIGH = false :=
  ⟨reset_inv, by and_intros <;> decide⟩

theorem wit_SupplyConditionEnds : State.reset.Inv ∧ State.reset.dev.watched = true ∧ State.reset.dev.pw.vinPresent = true := ⟨reset_inv, by decide, by decide⟩

/-- STANDBY fed by VBAK only. -/
def standby : State := { atPhase .standby with dev := { (atPhase .standby).dev with pw := { (atPhase .standby).dev.pw with vinPresent := false } } }

theorem wit_StandbyFallsToOff : standby.dev.pw.phase = .standby ∧ standby.dev.pw.vinPresent = false := ⟨rfl, rfl⟩

theorem wit_TriggersResign : (State.reset.dev.awake = true) ∧ (atPhase .sleep).dev.pw.phase = .sleep := ⟨by decide, rfl⟩

theorem wit_TriggerBeforeReleaseAbandons : (atPhase .copy).dev.poweringUp = true ∧ (atPhase .copy).dev.pw.saving = none := ⟨by decide, rfl⟩

theorem wit_FurtherTriggersIgnored : (atPhase .resigning).dev.pw.phase = .resigning := rfl

/-- A save under way, with its record sealed. -/
def saving : State := { State.reset with dev := State.reset.dev.resign 0x02 }

theorem wit_SaveCompletes : saving.dev.pw.phase = .resigning ∧ saving.dev.pw.saving = some (State.reset.dev.sealRecord 0x02).bytes
    ∧ saving.dev.pw.records.length = 2 ∧ poke [1, 2, 3] [] = [1, 2, 3] ∧ poke [1, 2, 3] [(1, 9)] ≠ [1, 2, 3] := ⟨rfl, rfl, rfl, by decide, by decide⟩

theorem wit_SlowClockFault : State.reset.Inv ∧ State.reset.dev.awake = true ∧ State.reset.dev.paused = false ∧ (atPhase .copy).Inv
    ∧ (atPhase .copy).dev.poweringUp = true ∧ (atPhase .copy).dev.is F.CLK_STAT_REF_OK = true ∧ (atPhase .copy).dev.paused = false
    ∧ (atPhase .safe).dev.pw.phase = .safe :=
  ⟨reset_inv, by decide, by decide, atPhase_inv _, by decide, by decide, by decide, rfl⟩

/-- A device whose transmit grants are held after a deviation. -/
def txHeld : State := { State.reset with dev := State.reset.dev.put F.CLK_STAT_TX_HELD 1 }

theorem wit_ReferenceDeviationWindow : State.reset.Inv ∧ State.reset.dev.awake = true ∧ State.reset.dev.paused = false
    ∧ (State.reset.dev.get F.CLK_DEV_LIMIT_PPM * 1000 : Int) < (1000000 : BitVec 32).toInt.natAbs
    ∧ ((0 : BitVec 32).toInt.natAbs : Int) ≤ txHeld.dev.get F.CLK_DEV_LIMIT_PPM * 1000 ∧ txHeld.dev.is F.CLK_STAT_TX_HELD = true
    ∧ txHeld.dev.pw.goodWindows < 2 :=
  ⟨reset_inv, by and_intros <;> decide⟩

/-- A measurement of the bank falls due; or none has been made in this start. -/
def bankDue : State := { hosted with dev := { hosted.dev with tempo := 14400000, pw := { hosted.dev.pw with bankT := some 0 } } }
def bankStart : State := { atPhase .load with dev := { (atPhase .load).dev with pw := { (atPhase .load).dev.pw with bankT := none } } }

theorem wit_BankMeasured : bankDue.Inv ∧ bankDue.dev.awake = true ∧ bankDue.dev.paused = false ∧ bankDue.dev.pw.bankT = some 0 ∧ 0 + 14400000 ≤ bankDue.dev.tempo
    ∧ bankStart.Inv ∧ bankStart.dev.poweringUp = true ∧ bankStart.dev.pw.bankT = none ∧ bankStart.dev.paused = false :=
  ⟨canonical _, by decide, by decide, rfl, by decide, canonical _, by decide, rfl, by decide⟩

theorem wit_RejectedWriteIsRecorded : hosted.Inv ∧ hosted.dev.hostOpen = true ∧ hosted.dev.paused = false
    ∧ hosted.dev.writeCode (0x17040 : BitVec 20).toNat (5 : BitVec 32).toNat (allBytes 15) ≠ 0
    ∧ hosted.dev.writeCode (0x08042 : BitVec 20).toNat (5 : BitVec 32).toNat (allBytes 15) ≠ 0 :=
  ⟨hosted_inv, by and_intros <;> decide⟩

/-- The servo is locked. -/
def ptpLocked : State := { hosted with dev := hosted.dev.put F.PTP_SERVO_LOCKED 1 }

theorem wit_SystimeWriteSteps : hosted.Inv ∧ hosted.dev.hostOpen = true ∧ hosted.dev.paused = false ∧ 0x08 ∉ hosted.dev.resetting
    ∧ hosted.dev.is F.PTP_SERVO_LOCKED = false ∧ hosted.dev.stagedLo R.TIM_SYSTIME_LO = 0 ∧ ptpLocked.dev.is F.PTP_SERVO_LOCKED = true :=
  ⟨hosted_inv, by and_intros <;> decide⟩

/-- After reset, with one page enabled. -/
def pageOn (p : Nat) : State := { hosted with dev := hosted.dev.put (H.enable p) 1 }

/-- Unit 0 counts. -/
def timRun : State := { State.reset with dev := (pageOn 0x08).dev.wr R.TIM_RUN 1 }

theorem wit_CountClockAdvances : timRun.Inv ∧ timRun.dev.awake = true ∧ timRun.dev.timRunning (0 : Fin 16) = true :=
  ⟨canonical _, by decide, by decide⟩

/-- Channel 0 of unit 0 captures rising edges of CAPT_0. -/
def capturing : State := { hosted with dev := hosted.dev.wr (R.TIM_CH_CFG 0) 0x21 }
/-- The same, with a capture not yet read. -/
def captured : State := { hosted with dev := (hosted.dev.wr (R.TIM_CH_CFG 0) 0x21).wr (R.TIM_FLAGS 0) 1 }

theorem wit_CaptureTakesTheCount : State.reset.Inv ∧ capturing.Inv ∧ captured.Inv ∧ capturing.dev.awake = true
    ∧ capturing.dev.captures 0 0 0 true = true ∧ bit (capturing.dev.rd (R.TIM_FLAGS 0)) 0 = false
    ∧ captured.dev.captures 0 0 0 true = true ∧ bit (captured.dev.rd (R.TIM_FLAGS 0)) 0 = true
    ∧ State.reset.dev.captures 0 0 0 true = false :=
  ⟨reset_inv, canonical _, canonical _, by and_intros <;> decide⟩

theorem wit_CcrReadConsumes : capturing.Inv ∧ hosted.Inv ∧ capturing.dev.hostOpen = true ∧ capturing.dev.paused = false
    ∧ chMode (capturing.dev.rd (R.TIM_CH_CFG 0)) 0 = 1 ∧ chMode (hosted.dev.rd (R.TIM_CH_CFG 0)) 0 ≠ 1 :=
  ⟨wit_CaptureTakesTheCount.2.1, hosted_inv, by and_intros <;> decide⟩

theorem wit_TimerRegistersAct : (pageOn 8).Inv ∧ (pageOn 8).dev.accepts R.TIM_START (rowWord 1 0 0)
    ∧ (pageOn 8).dev.accepts R.TIM_STOP (rowWord 1 0 0) ∧ (pageOn 8).dev.accepts (R.TIM_COUNT_HI 15) (rowWord 1 0 0)
    ∧ (pageOn 8).dev.stagedLo (R.TIM_COUNT_LO 15) = 0 ∧ (pageOn 8).dev.accepts (R.TIM_RELOAD_HI 0) (rowWord 1 0 0)
    ∧ (pageOn 8).dev.accepts (R.TIM_CFG 15) (rowWord 0x1FFFF 0 0) :=
  ⟨canonical _, taken _ _ _, taken _ _ _, taken _ _ _, by decide, taken _ _ _, taken _ _ _⟩

theorem wit_EventCounterSource : hosted.Inv ∧ hosted.dev.accepts (R.EVC_SRC 63) (rowWord 0x3FF 0 (2 ^ 31))
    ∧ hosted.dev.accepts (R.EVC_SRC 0) (rowWord 1 (2 ^ 31) 0) :=
  ⟨hosted_inv, taken _ _ _, taken _ _ _⟩

theorem wit_GpioActs : hosted.Inv ∧ hosted.dev.accepts R.GPIO_SET (rowWord 0xFFFF 0 0)
    ∧ hosted.dev.accepts R.GPIO_CLR (rowWord 1 0 0) ∧ hosted.dev.awake = true ∧ hosted.dev.paused = false :=
  ⟨hosted_inv, taken _ _ _, taken _ _ _, by decide, by decide⟩

/-- Asleep, with channel 0 of unit 0 capturing rising edges of CAPT_0. -/
def asleepCapturing : State := { atPhase .sleep with dev := (atPhase .sleep).dev.wr (R.TIM_CH_CFG 0) 0x21 }

theorem wit_SleepCaptureKeepsTheFirst : asleepCapturing.Inv ∧ asleepCapturing.dev.pw.phase = .sleep
    ∧ asleepCapturing.dev.captures 0 0 0 true = true :=
  ⟨canonical _, by decide, by decide⟩

theorem wit_DebugHaltWithAccess : ({ State.reset with dev := State.reset.dev.put F.BIST_TEST_ACCESS 1 } : State).dev.is F.BIST_TEST_ACCESS = true
    ∧ State.reset.dev.is F.BIST_TEST_ACCESS = false := by decide

/-- A canonical device after reset with register a written to v, and pages enabled. -/
def withRegs (l : List (Nat × Nat)) : State := { hosted with dev := l.foldl (fun d x => d.wr x.1 x.2) hosted.dev }
/-- A state with fields of its registers put to values. -/
def withFlds (s : State) (l : List (Fld × Nat)) : State := { s with dev := l.foldl (fun d x => d.put x.1 x.2) s.dev }
/-- An entry of ring 0 with HSEQ 1, an opcode and parameters. -/
def entryOf (op : Nat) (params : List Byte) : Entry :=
  { hseq := 1, tag := 7, opcode := op, flags := 0, byte7 := 0, latestStart := 0, params := (List.range 48).map (fun k => params.getD k 0) }
/-- A state with that command begun on ring 0. -/
def running (s : State) (op : Nat) (params : List Byte) : State :=
  { s with dev := { s.dev with inflight := [{ ring := 0, e := entryOf op params, begun := true, ran := false, issued := false, sess := none }] } }

theorem wit_PowerUpBegins : (atPhase .standby).dev.pins.resetN = true ∧ (atPhase .standby).dev.pw.phase ∈ [Phase.off, .standby, .resetHold]
    ∧ (atPhase .resetHold).dev.pw.phase = .resetHold ∧ State.reset.dev.pw.phase ≠ .resetHold := by decide

/-- The Copy phase with no image. -/
def blank : State := { atPhase .copy with dev := (atPhase .copy).dev.setFwSlot 0 FwSlot.empty }

theorem wit_PowerUpPhasesAdvance : (atPhase .rails).Inv ∧ (atPhase .load).Inv ∧ (atPhase .copy).Inv ∧ (atPhase .laneStart).Inv
    ∧ (atPhase .load).dev.pw.eraseMark = false ∧ (atPhase .copy).dev.newestSlot = some 0
    ∧ (atPhase .copy).dev.fw.slots.length = 2 ∧ blank.dev.newestSlot = none :=
  ⟨atPhase_inv _, atPhase_inv _, atPhase_inv _, atPhase_inv _, by and_intros <;> decide⟩

theorem wit_BankChargedRaisesPwrGood : (atPhase .load).Inv
    ∧ ∀ p ∈ [Phase.load, .selftest, .copy, .laneStart, .calibration, .releaseWait, .safe, .resetHold], (atPhase p).dev.pw.phase = p :=
  ⟨atPhase_inv _, by decide⟩

/-- At a slice of the self-test, with a fault met in this run or none, in the first run of an item or its retry. -/
def atSelftest (item slice : Nat) (retry : Bool) (f : Option (Nat × Nat)) : State :=
  { atPhase .selftest with dev := { (atPhase .selftest).dev with pw := { (atPhase .selftest).dev.pw with selfItem := item, selfSlice := slice, selfRetry := retry, selfFault := f } } }

theorem wit_SelftestSliceDecides : (atSelftest 7 3 false none).Inv ∧ (atSelftest 7 3 false none).dev.pw.phase = .selftest
    ∧ (atSelftest 0 0 false none).dev.selfLast 0 = false ∧ (atSelftest 7 3 false none).dev.selfLast 0 = true
    ∧ (atSelftest 7 3 false none).dev.selfFound 0 0 = none ∧ (atSelftest 7 3 true (some (2, 5))).dev.selfFound 0 0 = some (2, 5)
    ∧ (atSelftest 7 3 true (some (2, 5))).dev.selfLast 0 = true :=
  ⟨canonical _, by and_intros <;> decide⟩

theorem wit_StartupCalibrationReports : (atPhase .calibration).Inv ∧ (atPhase .calibration).dev.pw.phase = .calibration
    ∧ [((35 : Fin 36), 4)].find? (fun f => f.1 == 35) = some (35, 4) ∧ (atPhase .calibration).dev.pw.eraseMark = false :=
  ⟨atPhase_inv _, rfl, by decide, by decide⟩

/-- The wait for release with the bank ready, and a valid record in slot 1. -/
def releasable : State := { atPhase .releaseWait with dev := (atPhase .releaseWait).dev.put F.PWR_FLAGS_BANK_READY 1 }
def withRecord (b : List Byte) : State := { releasable with dev := { releasable.dev with pw := { releasable.dev.pw with records := [[], b] } } }

theorem withRecord_newest (b : List Byte) (r : Rec) (h : Rec.read b = some r) : (withRecord b).dev.newestRec = some 1 ∧ (withRecord b).dev.recAt 1 = some r := by
  have h0 : (withRecord b).dev.recAt 0 = none := by simp [withRecord, Dev.recAt, Rec.read, beField]
  have h1 : (withRecord b).dev.recAt 1 = Rec.read b := rfl
  exact ⟨by simp [Dev.newestRec, h0, h1, h], h1.trans h⟩

theorem wit_ReleaseBeginsTempoZero : releasable.Inv ∧ releasable.dev.pw.phase = .releaseWait ∧ releasable.dev.is F.PWR_FLAGS_BANK_READY = true
    ∧ releasable.dev.newestRec = none ∧ ∃ b r, (withRecord b).dev.newestRec = some 1 ∧ (withRecord b).dev.recAt 1 = some r ∧ r.aon < 2 ^ 48 :=
  have ⟨_, hr⟩ := Option.isSome_iff_exists.mp (Rec.read_bytes (State.reset.dev.sealRecord 2))
  ⟨canonical _, rfl, by decide, by decide, _, _, (withRecord_newest _ _ hr).1, (withRecord_newest _ _ hr).2, Rec.read_aon _ _ hr⟩

/-- A state with a transition under way, TARGET as written, and the tempo count given. -/
def inTransition (p : Phase) (t : Trans) (target tempo : Nat) : State :=
  let d := (atPhase p).dev.put F.PWR_MODE_TARGET target
  { hosted with dev := { d with tempo := tempo, pw := { d.pw with trans := t } } }

theorem wit_TargetBeginsTransition : hosted.Inv ∧ hosted.dev.pw.trans = .none ∧ hosted.dev.accepts R.PWR_MODE (rowWord 0x100 1 2)
    ∧ hosted.dev.pw.phase = .run ∧ (atPhase .idle).dev.accepts R.PWR_MODE (rowWord 0 0 3) ∧ (atPhase .idle).Inv
    ∧ hosted.dev.accepts R.PWR_MODE (rowWord 0 2 1) :=
  ⟨hosted_inv, rfl, taken _ _ _, rfl, taken _ _ _, atPhase_inv _, taken _ _ _⟩

theorem wit_TransitionsEnd : (inTransition .run .toIdle 1 0).Inv ∧ (inTransition .run .toIdle 1 0).dev.pw.trans = .toIdle
    ∧ (inTransition .run .toIdle 1 0).dev.ra.txs = [] ∧ (inTransition .idle .toSleep 2 0).dev.rx.ctxs = [] ∧ (inTransition .run .toIdle 1 0).dev.get F.PWR_MODE_TARGET = 1
    ∧ (inTransition .idle .toRun 0 0).dev.get F.PWR_MODE_TARGET = 0 ∧ (inTransition .idle .toSleep 2 0).dev.sleepReady = true :=
  ⟨canonical _, rfl, rfl, rfl, by and_intros <;> decide⟩

/-- A command in flight keeps the device from SLEEP. -/
def busyForSleep : State := running (inTransition .idle .toSleep 2 400) 0 []

theorem wit_SleepRequestGivenUp : busyForSleep.Inv ∧ busyForSleep.dev.paused = false ∧ busyForSleep.dev.sleepReady = false
    ∧ busyForSleep.dev.pw.trans = .toSleep ∧ busyForSleep.dev.pw.sleepAskedAt + 400 ≤ busyForSleep.dev.tempo :=
  ⟨canonical _, by decide, by decide, rfl, by decide⟩

/-- Asleep with every wake source enabled, and GPIO_0 rising among them. -/
def asleepArmed : State := { atPhase .sleep with dev := ((((atPhase .sleep).dev.wr R.PWR_WAKE_EN 0x1F).wr R.GPIO_WAKE 1).wr R.GPIO_RISE 1).put F.PWR_WAKE_TIMER_LO_TICKS 9 }

theorem wit_WakeSourcesWake : asleepArmed.Inv ∧ asleepArmed.dev.pw.phase = .sleep ∧ bit (asleepArmed.dev.rd R.PWR_WAKE_EN) 0 = true
    ∧ bit (asleepArmed.dev.rd R.PWR_WAKE_EN) 4 = true ∧ asleepArmed.dev.gpioSleepSeen 0 true = true
    ∧ asleepArmed.dev.getPair F.PWR_WAKE_TIMER_LO_TICKS F.PWR_WAKE_TIMER_HI_TICKS ≠ 0 ∧ asleepArmed.dev.pw.trans ≠ .waking :=
  ⟨canonical _, rfl, by and_intros <;> decide⟩

theorem wit_WakeMakesUp : (inTransition .sleep .waking 2 0).Inv ∧ (inTransition .sleep .waking 2 0).dev.pw.phase = .sleep
    ∧ (inTransition .sleep .waking 2 0).dev.pw.trans = .waking ∧ (inTransition .sleep .waking 2 0).dev.get F.PWR_MODE_WAKE_TO ≤ 1 :=
  ⟨canonical _, rfl, rfl, by decide⟩

theorem wit_ResignGoResigns : hosted.Inv ∧ hosted.dev.accepts R.PWR_RESIGN (rowWord 0 1 0) :=
  ⟨hosted_inv, by and_intros <;> decide⟩

/-- ARM has been written in this tempo, with TEST_EN high; and an erasure under way. -/
def armed : State := { hosted with dev := { hosted.dev with pins := { hosted.dev.pins with testEn := true }, pw := { hosted.dev.pw with armedAt := some 0 } } }
def erasing : State := { State.reset with dev := { State.reset.dev with pw := { State.reset.dev.pw with erasing := true } } }

theorem wit_ZeroisationErases : hosted.Inv ∧ hosted.dev.accepts R.BIST_TEST (rowWord 0 1 0) ∧ armed.Inv
    ∧ Dev.accepts { armed.dev with pins := { armed.dev.pins with testEn := true } } R.BIST_TEST (rowWord 0 2 0)
    ∧ erasing.dev.pw.erasing = true ∧ erasing.dev.released = true :=
  ⟨hosted_inv, taken _ _ _, canonical _, taken _ _ _, rfl, by decide⟩

/-- The runtime self-test is enabled, and its slice of this tempo is still to be done. -/
def selftesting : State :=
  { State.reset with dev := { State.reset.dev.put F.BIST_RUNTIME_EN 1 with bg := { State.reset.dev.bg with due := [[], [], [], [], [], [1]], overrun := none } } }

theorem wit_RuntimeSelftestSliceCounts : selftesting.Inv ∧ selftesting.dev.ln.linkOut.length = 4 ∧ selftesting.dev.awake = true ∧ selftesting.dev.paused = false
    ∧ selftesting.dev.jobEnabled 5 = true ∧ 0 < selftesting.dev.bgLeft 5 0 :=
  ⟨canonical _, rfl, by and_intros <;> decide⟩

theorem wit_OpeningEndsOnce : (inTransition .run .none 0 4000).Inv ∧ (inTransition .run .none 0 4000).dev.awake = true
    ∧ (inTransition .run .none 0 4000).dev.paused = false ∧ 4000 ≤ (inTransition .run .none 0 4000).dev.tempo
    ∧ (inTransition .run .none 0 4000).dev.pw.openEnded = false :=
  ⟨canonical _, by decide, by decide, by decide, rfl⟩

theorem wit_RegistersAct : hosted.Inv ∧ (R.GPIO_DIR ∈ plainRegs) ∧ hosted.dev.accepts R.GPIO_DIR 0xFFFF
    ∧ (findReg (R.GPIO_DIR / 0x1000) (R.GPIO_DIR % 0x1000)).isSome = true ∧ pageAssigned 0x04 = true
    ∧ hosted.dev.frozen = [] ∧ pairLo R.PWR_WAKE_TIMER_LO = true ∧ hosted.dev.accepts R.PWR_WAKE_TIMER_LO 5
    ∧ hosted.dev.accepts R.PWR_WAKE_TIMER_HI 15 ∧ hosted.dev.accepts (H.irqPend 0x04) 0x80000001
    ∧ hosted.dev.accepts (H.ctrl 0x09) (rowWord 1 2 0) ∧ hosted.dev.is (H.freeze 0x03) = false
    ∧ (5 : BitVec 32).getLsbD 2 = true ∧ hosted.dev.accepts (H.ctrl 0x03) (rowWord 5 0 2) :=
  ⟨hosted_inv, by decide, taken _ _ _, by decide, by decide, rfl, by decide, taken _ _ _, taken _ _ _, taken _ _ _, taken _ _ _, by decide, by decide, taken _ _ _⟩

theorem wit_RegistersAct_resetting : (0x09 : Nat) ∈ ({ State.reset with dev := { State.reset.dev with resetting := [0x09] } } : State).dev.resetting := by decide

/-- HOST is enabled and ring 0 runs, with one entry announced; and with a command accepted that has not begun. -/
def ringOn : State := withRegs [(H.ctrl 5, 1), (R.HOST_RING_CFG 0, 1), (R.HOST_SQ_DB 0, 1)]
def accepted (op flags : Nat) : State :=
  { ringOn with dev := { ringOn.dev with inflight := [{ ring := 0, e := { entryOf op [] with flags := flags }, begun := false, ran := false, issued := false, sess := none }] } }
/-- A completion waits on ring 0. -/
def waitingOne : State :=
  { ringOn with dev := { ringOn.dev with rings := ⟨[], [⟨⟨1, 7, 1, 0, 0, 0, []⟩, true, none⟩], false, false⟩ :: ringOn.dev.rings.drop 1 } }

theorem wit_RingsAct : ringOn.Inv ∧ ringOn.dev.accepts (R.HOST_SQ_DB 0) (rowWord 2 0 0) ∧ ringOn.dev.accepts (R.HOST_CQ_DB 0) (rowWord 0 0 0)
    ∧ (pageOn 5).dev.accepts (R.HOST_RING_CFG 7) (rowWord 0 1 0) ∧ ringOn.dev.accepts (R.HOST_RING_CFG 0) (rowWord 0 0 1)
    ∧ (pageOn 5).dev.accepts (R.HOST_CQ_BASE_HI 7) (rowWord 0 0 0) ∧ ringOn.dev.hostOpen = true ∧ ringOn.dev.paused = false ∧ ringOn.dev.fetching 0 = true
    ∧ ringOn.dev.turnOf 0 = true ∧ (ringOn.dev.ring 0).dead = false ∧ (withRegs [(R.HOST_RING_CFG 0, 0)]).dev.ringIdle 0 = true
    ∧ ringOn.dev.inflight.length < 512 ∧ (Entry.ofBytes [0, 1]).hseq = (ringOn.dev.lastHseq 0 + 1) % 65536
    ∧ (Entry.ofBytes [0, 2]).hseq ≠ (ringOn.dev.lastHseq 0 + 1) % 65536 ∧ ringOn.dev.ringEn 0 = true ∧ ringOn.dev.ringPcie 0 = true :=
  ⟨canonical _, taken _ _ _, taken _ _ _, taken _ _ _, taken _ _ _, taken _ _ _, by decide, by decide, by decide, by decide, rfl, by and_intros <;> decide⟩

theorem wit_RingsAct_begin : (accepted 0 0).Inv ∧ ((accepted 0 0).dev.cmdOf 0 1).isSome = true
    ∧ (accepted 0 0).dev.inflight.find? (fun c => c.ring == 0 && c.e.hseq == 1 && !c.begun) = (accepted 0 0).dev.cmdOf 0 1
    ∧ ((accepted 0 0).dev.cmdOf 0 1).all (fun c => (accepted 0 0).dev.mayBegin c && !(accepted 0 0).dev.tooLate c.e && opcodes.contains c.e.opcode) = true
    ∧ ({ accepted 0 2 with dev := { (accepted 0 2).dev with systime := 2 ^ 32 } } : State).dev.tooLate { entryOf 0 [] with flags := 2 } = true
    ∧ 0xFFFF ∉ opcodes :=
  ⟨canonical _, by and_intros <;> decide⟩

theorem wit_RingsAct_completion : waitingOne.Inv ∧ (waitingOne.dev.ring 0).waiting = [⟨⟨1, 7, 1, 0, 0, 0, []⟩, true, none⟩] ∧ waitingOne.dev.ringPcie 0 = true
    ∧ (waitingOne.dev.ring 0).dead = false ∧ waitingOne.dev.cqUsed 0 < 4096 :=
  ⟨canonical _, rfl, by decide, rfl, by decide⟩

/-- A completion is held on ring 1, and RESYNC of it has begun on ring 0. -/
def resyncing : State :=
  let s := running (withRegs [(R.HOST_RING_STATE 1, 0)]) 0x0003 [1, 0, 0]
  { s with dev := { s.dev with rings := s.dev.rings.take 1 ++ ⟨[⟨0, 7, 1, 0, 0, 0, []⟩], [], false, false⟩ :: s.dev.rings.drop 2 } }

theorem wit_HostCommandsComplete : (running State.reset 0 []).Inv ∧ (running State.reset 0 []).dev.cmdFor 0 1 0 = some (entryOf 0 [])
    ∧ (running State.reset 1 [0, 0, 0x90, 0x48, 1]).dev.cmdFor 0 1 1 = some (entryOf 1 [0, 0, 0x90, 0x48, 1]) ∧ regCmdCode (entryOf 1 [0, 0, 0, 0, 9]) ≠ 0
    ∧ (running State.reset 2 [0, 0, 0x10, 0x4C, 1]).dev.cmdFor 0 1 2 = some (entryOf 2 [0, 0, 0x10, 0x4C, 1])
    ∧ resyncing.Inv ∧ resyncing.dev.cmdFor 0 1 3 = some (entryOf 3 [1, 0, 0]) ∧ (entryOf 3 [1, 0, 0]).p1 0 = 1 ∧ 7 < (entryOf 3 [8]).p1 0
    ∧ (resyncing.dev.ring 1).held = [⟨0, 7, 1, 0, 0, 0, []⟩] ∧ resyncing.dev.lastDseq 1 = 0 ∧ resyncing.dev.ringPcie 1 = true ∧ resyncing.dev.cqUsed 1 < 4096 :=
  ⟨canonical _, rfl, rfl, by decide, rfl, canonical _, rfl, by decide, by decide, rfl, by and_intros <;> decide⟩

theorem wit_HostCommandsComplete_registers : (entryOf 1 (beBytes 4 R.GPIO_DIR ++ [1])).p4 0 ∈ plainRegs ∧ (entryOf 1 (beBytes 4 R.GPIO_DIR ++ [1])).p1 4 = 1
    ∧ (findReg (R.GPIO_DIR / 0x1000) (R.GPIO_DIR % 0x1000)).isSome = true ∧ State.reset.dev.writeCode R.GPIO_DIR 0xFFFF true = 0
    ∧ State.reset.dev.writeCode R.GPIO_DIR 0x10000 true ≠ 0 :=
  by and_intros <;> decide

/-- Source 63, IRQ.SOFT, is asserted and enabled, with its vector and the link up. -/
def irqDue : State := withFlds (withRegs [(H.irqMask 6, 1), (H.irqRaw 6, 1), (R.IRQ_EN_B, 0x80000000), (R.IRQ_VEC 63, 5), (0x6000 + 0x800 + 16 * 5 + 12, 0)]) [(F.PCIE_LINK_UP, 1)]
def irqSubscribed : State :=
  { irqDue with dev := { irqDue.dev.wr R.IRQ_BRZ_EN_B 0x80000000 with sessions := [⟨0, 0, 0, 0, 0, 0, 1, [], [], 0, 0, 0, 0, false, 0, 0⟩] } }

theorem wit_InterruptsAreDelivered : irqDue.Inv ∧ irqDue.dev.awake = true ∧ irqDue.dev.vectorDue 5 ≠ [] ∧ irqDue.dev.vectorDue 6 = [] ∧ irqDue.dev.gaps = []
    ∧ irqDue.dev.is F.PCIE_LINK_UP = true ∧ irqDue.dev.vectorMasked 5 = false ∧ irqSubscribed.dev.dueSource 63 = true
    ∧ bit (irqSubscribed.dev.rd R.IRQ_BRZ_EN_B) (63 % 32) = true ∧ irqSubscribed.dev.sessions.any (fun u => bit u.evSub 0) = true
    ∧ irqSubscribed.dev.bh.evSent = [] ∧ hosted.dev.accepts R.IRQ_SOFT (rowWord 0 1 0) :=
  ⟨canonical _, by decide, by decide, by decide, rfl, by decide, by decide, by decide, by decide, by decide, rfl, taken _ _ _⟩

/-- Shares of the background jobs for one tempo: one unit of each, two of job 2. -/
def jobsDue (s : State) : State := { s with dev := { s.dev with bg := { s.dev.bg with due := [[1], [1], [1, 1, 1, 1], [1], [1], [1]], overrun := none } } }
/-- The scrub stands at its last line, of a whole pass. -/
def scrubLast : State :=
  let s := jobsDue (withRegs [(H.ctrl 0x21, 1), (R.TMEM_SCRUB_CFG, 0x80000000), (R.TMEM_SCRUB_STAT, 0xFFFFFF)])
  { s with dev := { s.dev with tab := { s.dev.tab with passWhole := true } } }

theorem wit_TableMemoryActs : scrubLast.Inv ∧ (pageOn 0x21).dev.accepts R.TMEM_SCRUB_CFG (rowWord 0x80080000 0 0) ∧ scrubLast.dev.awake = true ∧ scrubLast.dev.paused = false ∧ 1 ≤ scrubLast.dev.bgLeft 1 0
    ∧ scrubLast.dev.is F.TMEM_SCRUB_CFG_EN = true ∧ scrubLast.dev.get F.TMEM_SCRUB_STAT_POS = 0xFFFFFF ∧ scrubLast.dev.lineBad 0xFFFFFF = false
    ∧ scrubLast.dev.hostOpen = true ∧ scrubLast.dev.wordOpen (scrubLast.dev.barWord 0 % 2 ^ 26) = false
    ∧ scrubLast.dev.lineBad (0x02800000 / 4) = false ∧ scrubLast.dev.tab.store.cells = []
    ∧ scrubLast.dev.tab.passWhole = true ∧ inHostRegion (2 ^ 26 - 1) 1 = true ∧ inHostRegion 0 1 = false
    ∧ (running State.reset 0x0520 (beBytes 4 0xFFFFFF)).dev.cmdFor 0 1 0x0520 = some (entryOf 0x0520 (beBytes 4 0xFFFFFF))
    ∧ (entryOf 0x0520 (beBytes 4 0xFFFFFF)).p4 0 = 0xFFFFFF :=
  ⟨canonical _, taken _ _ _, by and_intros <;> decide⟩

/-- Telemetry is on with a record queued; and entry 0 is valid while a timing clear stands at 0. -/
def telemOn : State :=
  let s := withFlds (pageOn 0x21) [(F.TMEM_TELEM_CFG_EN, 1)]
  jobsDue { s with dev := { s.dev with tab := { s.dev.tab with telemQueue := [[1, 2, 3, 4]] } } }
def clearingOne : State :=
  let s := withFlds (pageOn 0x20) [(F.DIR_TCLEAR_ACTIVE, 1)]
  { s with dev := s.dev.setMem 0 (2 ^ 35) }

theorem wit_TableMemoryActs_jobs : telemOn.Inv ∧ telemOn.dev.awake = true ∧ telemOn.dev.is F.TMEM_TELEM_CFG_EN = true ∧ 1 ≤ telemOn.dev.bgLeft 3 0
    ∧ telemOn.dev.get F.TMEM_TELEM_SEQ_SEQ = 0 ∧ clearingOne.Inv ∧ clearingOne.dev.is F.DIR_TCLEAR_ACTIVE = true
    ∧ clearingOne.dev.get F.DIR_TCLEAR_NEXT = 0 ∧ clearingOne.dev.tab.clearFrom ≤ clearingOne.dev.tempo
    ∧ (jobsDue (withFlds (pageOn 0x27) [(F.FWD_CFG_SWEEP_EN 3, 1)])).dev.is (F.FWD_CFG_SWEEP_EN 3) = true
    ∧ (jobsDue (withFlds (pageOn 0x27) [(F.FWD_CFG_SWEEP_EN 3, 1)])).dev.enabled 0x27 = true ∧ 1 ≤ (jobsDue (pageOn 0x27)).dev.bgLeft 2 3 :=
  ⟨canonical _, by decide, by decide, by decide, by decide, canonical _, by and_intros <;> decide⟩

/-- One load of 2,049 records is under way. -/
def loadingDir : State :=
  { pageOn 0x20 with dev := { (pageOn 0x20).dev with tab := { (pageOn 0x20).dev.tab with loads := [⟨.ring 0 1, 0x03E00000, 2049, 0, 0, 0, 0, 0, 0⟩] } } }

theorem wit_DirectoryActs : (running (pageOn 0x20) 0x0500 (beBytes 4 0x03E00000 ++ [0, 1])).Inv
    ∧ (running (pageOn 0x20) 0x0500 (beBytes 4 0x03E00000 ++ [0, 1])).dev.cmdFor 0 1 0x0500 = some (entryOf 0x0500 (beBytes 4 0x03E00000 ++ [0, 1]))
    ∧ inHostRegion ((entryOf 0x0500 (beBytes 4 0x03E00000 ++ [0, 1])).p4 0) 4 = true ∧ (pageOn 0x20).dev.enabled 0x20 = true ∧ State.reset.dev.enabled 0x20 = false
    ∧ (running (pageOn 0x20) 0x0500 (beBytes 4 0x03E00000 ++ [0, 1])).dev.tab.loads = [] ∧ loadingDir.Inv ∧ loadingDir.dev.tab.loads ≠ [] ∧ loadingDir.dev.paused = false
    ∧ (running (pageOn 0x20) 0x0501 []).dev.validEntry 0 = none
    ∧ ((running (pageOn 0x20) 0x0502 []).dev.lookupExt 0 0).1 = none ∧ (running (pageOn 0x24) 0x0510 [0]).dev.enabled 0x24 = true :=
  ⟨canonical _, rfl, by decide, by decide, by decide, rfl, canonical _, by and_intros <;> decide⟩

/-- Roles of the four lanes, with the lanes' page enabled. -/
def rolesAre (r0 r1 r2 r3 : Nat) : State :=
  withRegs [(H.ctrl 4, 1), (R.LANE_ROLES, r0 + 16 * r1 + 256 * r2 + 4096 * r3)]
def admittingLane : State :=
  { rolesAre 0 0 2 1 with dev := { (rolesAre 0 0 2 1).dev.put F.LANE_CFG_AUTO_ADMIT 0 with ln := { (rolesAre 0 0 2 1).dev.ln with copy := some (2, 0), copied := true } } }
def dryLane : State :=
  { rolesAre 0 0 0 3 with dev := { (rolesAre 0 0 0 3).dev with ln := { (rolesAre 0 0 0 3).dev.ln with dry := some 3, shadow := true } } }

theorem wit_LanesAct : (rolesAre 0 0 0 1).Inv ∧ (rolesAre 0 0 1 5).dev.accepts R.LANE_ADMIT (rowWord 0 1 0) ∧ (rolesAre 0 0 0 1).dev.lanesRun = true ∧ (rolesAre 0 0 0 1).dev.paused = false ∧ (rolesAre 0 0 0 1).dev.ln.dry = none
    ∧ ((rolesAre 0 0 0 1).dev.ballot [some 1, some 1, some 1]).dropped = [] ∧ ((rolesAre 0 0 0 1).dev.ballot [some 1, some 1, some 1]).passed = some 1
    ∧ ((rolesAre 0 0 0 1).dev.ballot [some 1, some 2, some 1]).dropped = [1] ∧ 2 ≤ (rolesAre 0 0 0 1).dev.live.length ∧ outOf [some 1, some 2] 1 = some 2
    ∧ (rolesAre 0 0 0 1).dev.awake = true ∧ (rolesAre 0 0 0 1).dev.lanesUp = true ∧ (rolesAre 0 0 0 1).dev.ln.lateMark = false ∧ (rolesAre 0 0 0 1).dev.ln.marked = false
    ∧ (rolesAre 0 0 0 1).dev.ln.quarEnd.getD 2 0 ≤ (rolesAre 0 0 4 1).dev.tempo ∧ (withFlds (rolesAre 0 0 4 1) [(F.LANE_CFG_AUTO_ADMIT, 0)]).dev.is F.LANE_CFG_AUTO_ADMIT = false
    ∧ (rolesAre 0 0 0 1).dev.role 0 = 0 ∧ (rolesAre 0 0 4 1).dev.role 2 = 4
    ∧ (rolesAre 0 0 1 5).dev.admitChoice = some 2 ∧ (rolesAre 0 0 1 5).dev.live ≠ [] :=
  ⟨canonical _, taken _ _ _, by and_intros <;> decide⟩

theorem wit_LanesAct_dry : admittingLane.Inv ∧ admittingLane.dev.lanesUp = true ∧ admittingLane.dev.ln.copied = true ∧ admittingLane.dev.is F.LANE_CFG_AUTO_ADMIT = false
    ∧ dryLane.Inv ∧ dryLane.dev.awake = true ∧ dryLane.dev.paused = false ∧ dryLane.dev.get F.LANE_DRY_LEFT_TEMPOS = 0
    ∧ (rolesAre 0 0 0 1).dev.accepts R.LANE_DRY_CTRL (rowWord 0x03000001 (2 ^ 31) (2 ^ 30))
    ∧ (dryLane.dev.put F.LANE_DRY_RESULT_STATE 1).accepts R.LANE_DRY_CTRL (rowWord 1 (2 ^ 30) (2 ^ 31)) :=
  ⟨canonical _, by decide, rfl, by decide, canonical _, by decide, by decide, by decide, taken _ _ _, taken _ _ _⟩

/-- Generation 0 of the vault is in force, with one slot of group 1 from 433.05 to 434.79 MHz, 30 dBm, channels of 100 kHz from 433.15 MHz. -/
def vaulted (s : State) : State :=
  { s with dev := { s.dev with ra := { s.dev.ra with vault := { s.dev.ra.vault with used := 1, inForce := some 0, words := [(1, 0xC0010078), (2, 433050000), (3, 434790000), (4, 433150000), (5, 100000), (7, 0xFFFF), (8, 0x00780000), (10, 655360000)] } } } }
/-- A listen entry of group 1 is staged, and a PAN descriptor of group 1. -/
def listenStaged : State :=
  withRegs [(R.RXP_LSEL, 0x10), (R.RXP_LDATA 0, 0x1000), (R.RXP_LDATA 1, 433150000), (R.RXP_LDATA 3, 1 + 16 * 2 ^ 8 + 8 * 2 ^ 16 + 16 * 2 ^ 22)]
def panStaged : State :=
  vaulted (withRegs [(R.MAC_PAN_DATA 1 0, 0x01000000), (R.MAC_PAN_DATA 1 1, 433150000), (R.MAC_PAN_DATA 1 2, 0x10000000)])
def filterStaged : State := { hosted with dev := { hosted.dev with ra := { hosted.dev.ra with staging := 1 :: List.replicate 63 0 } } }

theorem wit_StagedTablesAct : listenStaged.Inv ∧ panStaged.Inv ∧ hosted.dev.accepts R.RXP_LSEL (rowWord 0x3F 0 0)
    ∧ listenStaged.dev.accepts R.RXP_LCTRL (rowWord 0 1 0) ∧ hosted.dev.accepts R.RXP_LCTRL (rowWord 0 2 0)
    ∧ hosted.dev.accepts (R.RXP_RXR_CONS 3) (rowWord 0 0 0) ∧ hosted.dev.accepts (R.RXP_RXR_BASE_HI 3) (rowWord 0xFFFFFFFF 0 0)
    ∧ hosted.dev.accepts R.TXP_SET_SEL (rowWord 0x5307000F 0 0) ∧ hosted.dev.accepts R.TXP_SET_DATA (rowWord 0x3FFFF 0 0)
    ∧ filterStaged.dev.accepts R.TXP_SET_CTRL (rowWord 0 1 0) ∧ hosted.dev.accepts R.TXP_SET_CTRL (rowWord 0 2 0) :=
  ⟨canonical _, canonical _, taken _ _ _, taken _ _ _, taken _ _ _, taken _ _ _, taken _ _ _, taken _ _ _, taken _ _ _, taken _ _ _, taken _ _ _⟩

theorem wit_StagedTablesAct_pans : hosted.dev.accepts R.TXP_PROF_DATA (rowWord 0x108FF 0 0) ∧ hosted.dev.accepts (R.MAC_PAN_SEL 3) (rowWord 127 0 0)
    ∧ panStaged.dev.accepts (R.MAC_PAN_CTRL 1) (rowWord 0 1 0) ∧ hosted.dev.accepts (R.MAC_PAN_CTRL 0) (rowWord 0 2 0)
    ∧ hosted.dev.ra.panPending.length = 4 ∧ hosted.dev.accepts (R.SEC_PAN_SEC 127) (rowWord 0x771 0 0) :=
  ⟨taken _ _ _, taken _ _ _, taken _ _ _, taken _ _ _, rfl, taken _ _ _⟩

/-- A transmission of TX_RAW by the command of ring 0, on port 8, at one stage; and a device that carries it: group 1's port 0 in service and locked,
TXP enabled, and the vault's slot of 433 MHz in force. -/
def rawAt (st : TxStage) : Tx :=
  { Tx.blank with id := 1, src := .ring 0 1, kind := .raw, stage := st, port := 8, phy := 0x10, freq := 433150000, filling := true, cells := 1, chain := 8,
                  profile := some 0, load := 1 }
def txRegs : List (Nat × Nat) := [(H.ctrl 0x11, 1), (H.ctrl 0x16, 1), (R.RFG_PORT_EN 1, 1), (R.RFG_LOCK 1, 0x10001), (R.RFG_CHAIN_STATE 1, 3)]
def carrying (regs : List (Nat × Nat)) (t : Tx) : State :=
  running (vaulted { withRegs regs with dev := { (withRegs regs).dev with ra := { State.reset.dev.ra with txs := [t] } } }) 0x0300 []

theorem none_displaced (regs : List (Nat × Nat)) (t : Tx) (h : t.stage ≠ .displaced) : noneDisplaced (carrying regs t).dev t :=
  fun _ hu _ => List.mem_singleton.mp hu ▸ h
theorem carrying_raw (regs : List (Nat × Nat)) (st : TxStage) (h : st ≠ .displaced) : rawTx (carrying regs (rawAt st)).dev (rawAt st) 0 1 :=
  ⟨rfl, rfl, rfl, rfl, rfl, none_displaced regs _ h⟩

theorem carrying_inv (st : TxStage) : (carrying txRegs (rawAt st)).Inv :=
  have h : (carrying txRegs (rawAt .slot)).Inv := canonical _
  ⟨h.regs, h.cfg, h.mem, h.vault, h.rings⟩

theorem wit_LanesAct_vote : (carrying txRegs (rawAt .granted)).dev.noGrants = false
    ∧ (carrying txRegs (rawAt .granted)).dev.ra.txs.find? (fun t => t.port == 8 && t.stage == .granted) = some (rawAt .granted) := ⟨by decide, by decide⟩

theorem wit_RadioPortsAct_service : (withRegs [(H.ctrl 0x11, 1)]).Inv ∧ (withRegs [(H.ctrl 0x11, 1)]).dev.enabled 0x11 = true
    ∧ (withRegs [(H.ctrl 0x11, 1)]).dev.accepts (R.RFG_PORT_EN 1) (rowWord 0xFF 0 0) ∧ (withRegs [(H.ctrl 0x11, 1)]).dev.get (F.RFG_PORT_EN_EN 1) = 0
    ∧ (withRegs [(H.ctrl 0x11, 1)]).dev.chainOf 8 = 0 ∧ (withRegs [(H.ctrl 0x11, 1)]).dev.chainState 1 0 ≠ 5 :=
  ⟨canonical _, by decide, taken _ _ _, by and_intros <;> decide⟩

theorem wit_RadioPortsAct_slot : (carrying txRegs (rawAt .voted)).dev.paused = false ∧ (carrying txRegs (rawAt .voted)).dev.slotTx 8 = none
    ∧ (carrying txRegs (rawAt .voted)).dev.ra.txs.find? (fun t => t.port == 8 && t.stage == .voted) = some (rawAt .voted)
    ∧ (carrying txRegs (rawAt .voted)).dev.inService 8 = true ∧ (carrying [] (rawAt .voted)).dev.inService 8 = false
    ∧ (carrying txRegs (rawAt .voted)).dev.portLost 8 = false ∧ (carrying txRegs (rawAt .voted)).dev.rangeOn 1 433150000 = true
    ∧ bit ((carrying txRegs (rawAt .voted)).dev.get (F.RFG_PORT_FAULT_PA 1)) 0 = false
    ∧ (carrying txRegs (rawAt .slot)).dev.slotTx 8 = some (rawAt .slot) :=
  by and_intros <;> decide

/-- The same, with the port's chain on the frame's channel. -/
def onChannel (regs : List (Nat × Nat)) (t : Tx) : State := { carrying regs t with dev := (carrying regs t).dev.tune 8 433150000 }

theorem wit_RadioPortsAct_release : (onChannel txRegs (rawAt .slot)).dev.slotTx 8 = some (rawAt .slot) ∧ (onChannel txRegs (rawAt .slot)).dev.tunedFor (rawAt .slot) = true
    ∧ (rawAt .slot).due ≤ (onChannel txRegs (rawAt .slot)).dev.sysNs + (onChannel txRegs (rawAt .slot)).dev.turnaroundNs (rawAt .slot)
    ∧ (rawAt .slot).planned ≤ (onChannel txRegs (rawAt .slot)).dev.monoUs + ((onChannel txRegs (rawAt .slot)).dev.turnaroundNs (rawAt .slot) + 999) / 1000
    ∧ (onChannel txRegs (rawAt .slot)).dev.ra.vault.inForce = some (rawAt .slot).vgen ∧ (onChannel txRegs (rawAt .slot)).dev.covered (rawAt .slot) = false
    ∧ (rawAt .slot).filling = true ∧ (rawAt .slot).latest = 0
    ∧ ({ (onChannel txRegs { rawAt .slot with latest := 1 }).dev with systime := 2 ^ 33 } : Dev).sysNs = 2 :=
  by and_intros <;> decide +kernel

theorem wit_RadioPortsAct_onAir : (carrying txRegs (rawAt .onAir)).dev.airTx 8 = some (rawAt .onAir) ∧ (rawAt .onAir).chain < 32
    ∧ rawTx (carrying txRegs (rawAt .onAir)).dev (rawAt .onAir) 0 1
    ∧ (rawAt .onAir).rampStart < ({ (carrying txRegs (rawAt .onAir)).dev with systime := 2 ^ 33 } : Dev).sysNs
    ∧ (rawAt .onAir).vslot < (carrying txRegs (rawAt .onAir)).dev.ra.dutyEnded.length
    ∧ (carrying [(H.ctrl 0x0A, 1), (R.COEX_CFG, 0xFFFFFFFF)] (rawAt .onAir)).dev.ra.txs.filter
        (fun t => t.stage == .onAir && (carrying [(H.ctrl 0x0A, 1), (R.COEX_CFG, 0xFFFFFFFF)] (rawAt .onAir)).dev.covered t) = [rawAt .onAir]
    ∧ (carrying [(H.ctrl 0x0A, 1), (R.COEX_CFG, 0xFFFFFFFF)] (rawAt .onAir)).dev.is F.COEX_CFG_ABORT_ON_LOSS = true :=
  ⟨by decide, by decide, carrying_raw _ _ (by decide), by and_intros <;> decide⟩

/-- On air under a profile that asks for one violating window (or counts only), and a mask of one segment, 20 dB down at the centre bin. -/
def maskedAt (profile : Nat) : Tx := { rawAt .onAir with profile := some profile, mask := [segWord 40 0 0] }
def tone (amp : Int) : List (Int × Int) := List.replicate 256 (amp, 0)

theorem wit_RadioPortsAct_mask : (carrying txRegs (maskedAt 0x10000)).dev.slotTx 8 = some (maskedAt 0x10000) ∧ (maskedAt 0x10000).filling = true
    ∧ bits ((maskedAt 0x10000).profile.getD 0) 19 16 = 1 ∧ bit ((maskedAt 0x110000).profile.getD 0) 20 = true ∧ bit ((maskedAt 0x10000).profile.getD 0) 20 = false
    ∧ runViolates (maskedAt 0x10000).mask (tone 0) 1 = false ∧ runViolates (maskedAt 0x10000).mask (tone 32768) 1 = true :=
  ⟨by decide, rfl, by and_intros <;> decide +kernel⟩

theorem wit_RadioPortsAct_budget : (carrying txRegs (rawAt .budgetHeld)).dev.accepts R.VAULT_RF_LIMIT (rowWord 6000 0 0)
    ∧ (carrying txRegs (rawAt .budgetHeld)).dev.heldList .budgetHeld = [rawAt .budgetHeld]
    ∧ (carrying ((R.VAULT_RF_LIMIT, 0) :: txRegs) (rawAt .budgetHeld)).dev.get F.VAULT_RF_LIMIT_LIMIT_MW = 0 :=
  ⟨taken _ _ _, by decide, by decide⟩

theorem wit_RadioPortsAct_step5 : (carrying txRegs (rawAt .step5)).dev.noGrants = false
    ∧ passesStep5 (carrying txRegs (rawAt .step5)).dev (rawAt .step5) 0 0 0 15 false [] :=
  ⟨by decide, by unfold passesStep5; and_intros <;> decide +kernel⟩

theorem wit_RadioPortsAct_blank : State.reset.dev.ra.blankExt.length = 4 ∧ State.reset.dev.ra.blankTail.length = 4 := ⟨rfl, rfl⟩

/-- An owner key is installed, and VAULT_COMMIT of generation 0 runs; a burn is under way. -/
def owned (s : State) : State := { s with dev := { s.dev with ks := { s.dev.ks with owner := some [] } } }
def burning : State :=
  { State.reset with dev := { State.reset.dev with ra := { State.reset.dev.ra with vault := { State.reset.dev.ra.vault with burn := some ⟨.ring 0 1, 0, [], false⟩ } } } }

theorem wit_VaultAndCalibrationAct_vault : (running hosted 0x0200 []).Inv ∧ (running hosted 0x0200 []).dev.cmdFor 0 1 0x0200 = some (entryOf 0x0200 [])
    ∧ (running hosted 0x0200 []).dev.ks.owner = none ∧ (owned (running hosted 0x0200 [])).dev.ks.owner = some []
    ∧ (owned (running hosted 0x0200 [])).dev.ks.lock = false ∧ (owned (running hosted 0x0200 [])).dev.is F.PWR_FLAGS_VIN_LOW = false
    ∧ (owned (running hosted 0x0200 [])).dev.is F.PWR_FLAGS_VBAK_LOW = false
    ∧ (((entryOf 0x0200 []).params.drop 1).take 15 ++ (entryOf 0x0200 []).params.drop 32).all (fun b => b == 0) = true
    ∧ (owned (running hosted 0x0200 [])).dev.draftLoosens = none
    ∧ (owned (running hosted 0x0200 [])).dev.ra.vault.used < 8 ∧ (entryOf 0x0200 []).p1 0 = (owned (running hosted 0x0200 [])).dev.ra.vault.used
    ∧ burning.dev.ra.vault.burn = some ⟨.ring 0 1, 0, [], false⟩ ∧ hosted.dev.accepts R.VAULT_DRAFT_CTRL (rowWord 0 1 0) :=
  ⟨canonical _, by decide, rfl, rfl, rfl, by decide, by decide, by decide, by decide, by decide, by decide, rfl, taken _ _ _⟩

theorem wit_VaultAndCalibrationAct_draft : (owned (running State.reset 0x0200 [])).dev.draftRange = none := by decide +kernel

theorem wit_VaultAndCalibrationAct_occ : (carrying txRegs (rawAt .occHeld5)).dev.heldList .occHeld = [] ∧ (carrying txRegs (rawAt .occHeld5)).dev.heldList .occHeld5 = [rawAt .occHeld5]
    ∧ (carrying txRegs (rawAt .occHeld5)).dev.occLater (rawAt .occHeld5) = true
    ∧ passesStep5 (carrying txRegs (rawAt .occHeld5)).dev (rawAt .occHeld5) 0 0 0 15 false [] :=
  ⟨by decide, by decide, by decide, by unfold passesStep5; and_intros <;> decide +kernel⟩

/-- Calibration runs in group 1, whose sequencer stands at a state with a chain and steps left. -/
def calibrating (st chain left : Nat) (c : CalGroup) : State :=
  withFlds { withRegs [(H.ctrl 0x14, 1), (R.CAL_CFG, 0x000F0000), (H.ctrl 0x11, 1), (R.RFG_PORT_EN 1, 1)] with
      dev := { (withRegs [(H.ctrl 0x14, 1), (R.CAL_CFG, 0x000F0000), (H.ctrl 0x11, 1), (R.RFG_PORT_EN 1, 1)]).dev with
        tempo := 2 ^ 24, cal := [CalGroup.reset, c, CalGroup.reset, CalGroup.reset] } }
    [(F.CAL_GSTAT_STATE 1, st), (F.CAL_GSTAT_CHAIN 1, chain), (F.CAL_GSTAT_STEPS_LEFT 1, left)]

theorem calibrating_inv : (calibrating 2 0 1 CalGroup.reset).Inv ∧ (calibrating 0 15 0 CalGroup.reset).Inv ∧ (calibrating 1 0 0 CalGroup.reset).Inv
    ∧ (calibrating 4 0 0 CalGroup.reset).Inv ∧ (calibrating 3 0 0 CalGroup.reset).Inv :=
  ⟨canonical _, canonical _, canonical _, canonical _, canonical _⟩

theorem wit_VaultAndCalibrationAct_due : (calibrating 0 15 0 { CalGroup.reset with on := true }).dev.calRuns 1 = true
    ∧ (calibrating 0 15 0 { CalGroup.reset with on := true }).dev.calChain 1 = 0xF ∧ (calibrating 0 15 0 { CalGroup.reset with on := true }).dev.calState 1 = 0
    ∧ (calibrating 0 15 0 { CalGroup.reset with on := true }).dev.calChoose 1 [] = (0, true)
    ∧ (calibrating 0 15 0 { CalGroup.reset with on := true }).dev.spareCovers 1 0 = true
    ∧ (calibrating 0 15 0 { CalGroup.reset with on := true }).dev.get F.CAL_ROUND_TEMPOS / 9 ≤ (calibrating 0 15 0 { CalGroup.reset with on := true }).dev.tempo
    ∧ (calibrating 0 15 0 CalGroup.reset).dev.cal.length = 4 ∧ (calibrating 0 15 0 CalGroup.reset).dev.ra.synth.length = 36
    ∧ (calibrating 0 15 0 CalGroup.reset).dev.paused = false :=
  by and_intros <;> decide

theorem wit_VaultAndCalibrationAct_steps : (calibrating 2 0 28 CalGroup.reset).dev.calRuns 1 = true ∧ (calibrating 2 0 28 CalGroup.reset).dev.calChain 1 = 0
    ∧ (calibrating 2 0 28 CalGroup.reset).dev.calState 1 = 2 ∧ (calibrating 2 0 28 CalGroup.reset).dev.get (F.CAL_GSTAT_STEPS_LEFT 1) = 28
    ∧ (calItems 1 0).getD ((calItems 1 0).length - 28) 5 < 4
    ∧ (calibrating 2 0 28 CalGroup.reset).dev.rfLoad ≤ (calibrating 2 0 28 CalGroup.reset).dev.get F.VAULT_RF_LIMIT_LIMIT_MW
    ∧ ((calibrating 1 0 0 { CalGroup.reset with settled := true }).dev.calg 1).settled = true
    ∧ (calibrating 1 0 0 CalGroup.reset).dev.onAirTx 8 = none ∧ (calibrating 4 0 0 CalGroup.reset).dev.calState 1 = 4
    ∧ (calibrating 3 0 0 CalGroup.reset).dev.get (F.CAL_GSTAT_STEPS_LEFT 1) = 0 ∧ ((calibrating 3 0 0 CalGroup.reset).dev.calg 1).req = none :=
  by and_intros <;> decide

theorem wit_VaultAndCalibrationAct_request : (running (calibrating 0 15 0 CalGroup.reset) 0x0210 [1, 0, 1]).dev.cmdFor 0 1 0x0210 = some (entryOf 0x0210 [1, 0, 1])
    ∧ (entryOf 0x0210 [4]).p1 0 = 4 ∧ (entryOf 0x0210 [1, 0, 1]).p1 0 = 1 ∧ (entryOf 0x0210 [1, 0, 1]).p2 1 = 1 ∧ (entryOf 0x0210 [1, 0, 1]).zeroFrom 3 = true :=
  by and_intros <;> decide

/-- Group 1 receives on port 8 by listen entry 0 of one channel, with a context in reception there or none. -/
def rxRegs : List (Nat × Nat) :=
  [(H.ctrl 0x15, 1), (H.ctrl 0x11, 1), (R.RFG_PORT_EN 1, 3), (R.RFG_LOCK 1, 0x30003), (listenKey 1 0 0, 0xC0031004), (listenKey 1 0 1, 433150000), (listenKey 1 0 3, 1)]
def receiving (regs : List (Nat × Nat)) (l : List Ctx) : State :=
  { withRegs (rxRegs ++ regs) with dev := { (withRegs (rxRegs ++ regs)).dev with rx := { State.reset.dev.rx with ctxs := l, nextCtx := 9 } } }
def someLatch : Latch := { strength := -100, snr := 8, cfo := 0, time := 0, tempo := 0, cycle := 0, mono := 0, errs := 0, alt := false }
def ctxAt (id port deliver : Nat) (l : Option Latch) (window : Bool) : Ctx :=
  { id := id, port := port, group := 1, entry := 0, chan := 0, words := [0xC0031004 + 2 ^ 28 * deliver, 433150000, 0, 0x1001, 0x904E, 0, 0], latch := l, window := window,
    members := [(port, -100)], weights := [], snr := 0, chain := 8, combined := false, straddle := false, blanked := false, lost := [] }

theorem receiving_inv (l : List Ctx) : (receiving [] l).Inv :=
  have h : (receiving [] []).Inv := canonical _
  ⟨h.regs, h.cfg, h.mem, h.vault, h.rings⟩

theorem wit_ReceptionActs_preamble : (receiving [] []).dev.sentry 8 0 0 = true ∧ State.reset.dev.sentry 8 0 0 = false
    ∧ (receiving [] []).dev.poolGrants 1 = true ∧ (receiving [] []).dev.ctx 9 = none
    ∧ (receiving [(F.RXP_POOL_CFG_CAP 1 |>.addr, 0)] []).dev.sentry 8 0 0 = true ∧ (receiving [(F.RXP_POOL_CFG_CAP 1 |>.addr, 0)] []).dev.poolGrants 1 = false
    ∧ (receiving [] []).dev.paused = false :=
  by and_intros <;> decide

theorem wit_ReceptionActs_word : (receiving [] [ctxAt 1 8 0 none false]).dev.ctx 1 = some (ctxAt 1 8 0 none false) ∧ (ctxAt 1 8 0 none false).syncErr = 4
    ∧ (receiving [] [ctxAt 1 8 0 none false]).dev.sameFrame (ctxAt 1 8 0 none false) (latched (receiving [] [ctxAt 1 8 0 none false]).dev (-100) 8 0 0 false) = []
    ∧ (receiving [] [ctxAt 1 8 0 none false, ctxAt 2 9 0 (some someLatch) false]).dev.sameFrame (ctxAt 1 8 0 none false)
        (latched (receiving [] [ctxAt 1 8 0 none false, ctxAt 2 9 0 (some someLatch) false]).dev (-100) 8 0 0 false) = [ctxAt 2 9 0 (some someLatch) false]
    ∧ (receiving [] [ctxAt 1 8 0 (some someLatch) true, ctxAt 2 9 0 (some someLatch) false]).dev.sameFrame (ctxAt 1 8 0 (some someLatch) true) someLatch
        = [ctxAt 2 9 0 (some someLatch) false]
    ∧ strongest [ctxAt 1 8 0 (some someLatch) true, ctxAt 2 9 0 (some someLatch) false] = [ctxAt 1 8 0 (some someLatch) true, ctxAt 2 9 0 (some someLatch) false] :=
  by and_intros <;> decide

theorem wit_ReceptionActs_check : (ctxAt 1 8 0 (some someLatch) false).deliver = 0 ∧ (ctxAt 1 8 1 (some someLatch) false).deliver = 1
    ∧ (ctxAt 1 8 1 (some someLatch) false).latch.isSome = true ∧ MacFrame.blank.cmdKnown = true ∧ MacFrame.blank.ftype = 1
    ∧ (receiving [] [ctxAt 1 8 1 (some someLatch) false]).dev.ringFor 1 = none
    ∧ (receiving [(R.RXP_RXR_CFG 3, 0x201)] []).dev.ringFor 1 = some 3 ∧ (receiving [(R.RXP_RXR_CFG 3, 0x001F0001)] []).dev.rxRoom 3 = true
    ∧ ((receiving [(R.RXP_RXR_CFG 3, 0x201)] []).dev.rxRing 3).backlog = [] ∧ (receiving [] []).dev.cellsFit false (cellsFor 64) = true
    ∧ State.reset.dev.rx.rings.length = 4 ∧ State.reset.dev.rx.queues.length = 4 ∧ State.reset.dev.rx.parked = [] ∧ State.reset.dev.rx.gain.length = 36
    ∧ (ctxAt 1 8 0 none false).members.all (fun m => (receiving [] []).dev.portBlanked m.1 || !(receiving [] []).dev.inService m.1) = false
    ∧ (ctxAt 1 16 0 none false).members.all (fun m => (receiving [] []).dev.portBlanked m.1 || !(receiving [] []).dev.inService m.1) = true :=
  by and_intros <;> decide

/-- The octets of a frame as they come off the air, with their FCS: a data frame, or a MAC command. -/
def airOf (ftype : Nat) (cmd : Option Nat) : List Byte :=
  let b := MacFrame.octets { MacFrame.blank with ftype := ftype, dst := .short 0, src := .short 1, panId := 7, version := 2, cmd := cmd, payload := [5] } []
  b ++ fcsOf false b

theorem wit_ReceptionActs_air : (receiving [] []).dev.hears 8 = true ∧ (ctxAt 1 8 0 none false).matched 0x904E = some (0, false) ∧ (ctxAt 1 8 0 none false).matched 0x6FB1 = none
    ∧ (ctxAt 1 8 0 (some someLatch) false).frameLen (0x1000 + (airOf 1 none).length) (airOf 1 none) = some (airOf 1 none).length
    ∧ (ctxAt 1 8 0 (some someLatch) false).frameLen 0x1000 [] = none
    ∧ (ctxAt 1 8 0 (some someLatch) false).checks (0x1000 + (airOf 1 none).length) (airOf 1 none) = true
    ∧ (ctxAt 1 8 0 (some someLatch) false).checks 0x1005 [1, 2, 3, 4, 5] = false
    ∧ sunPhr false false (airOf 1 none).length = 0x1000 + (airOf 1 none).length ∧ sunPhr false false 5 = 0x1005
    ∧ (ctxAt 1 8 0 (some someLatch) false).plainBytes 0x1000 (airOf 1 none) = airOf 1 none ∧ (ctxAt 1 8 0 (some someLatch) false).fcs4 0x1000 = false
    ∧ (MacFrame.ofOctets ((airOf 1 none).take ((airOf 1 none).length - 2))).any (fun m => m.cmdKnown && m.ftype == 1 && m.src == .short 1 && m.panId == 7) = true
    ∧ (MacFrame.ofOctets ((airOf 3 (some 9)).take ((airOf 3 (some 9)).length - 2))).any (fun m => !m.cmdKnown) = true ∧ MacFrame.ofOctets [0x07, 0, 0] = none
    ∧ (receiving [(R.RXP_RXR_CFG 3, 0x201)] []).dev.rxWaits ((ctxAt 1 8 1 (some someLatch) false).toFrame 0 true 0 MacFrame.blank []) 1 = false :=
  by and_intros <;> decide +kernel

/-- Receive ring 0 has a waiting record, and one written since its record bit was last set. -/
def rxBacklog (cfg : Nat) : State :=
  { withRegs [(R.RXP_RXR_CFG 0, cfg), (R.RXP_RXR_IRQ 0, 0x00640004)] with
    dev := { (withRegs [(R.RXP_RXR_CFG 0, cfg), (R.RXP_RXR_IRQ 0, 0x00640004)]).dev with
      rx := { State.reset.dev.rx with rings := ⟨1, [⟨[], [], 1⟩], 1⟩ :: State.reset.dev.rx.rings.drop 1 } } }

theorem wit_ReceptionActs_rings : (rxBacklog 1).Inv ∧ ((rxBacklog 1).dev.rxRing 0).backlog = [⟨[], [], 1⟩] ∧ (rxBacklog 1).dev.rxRoom 0 = true
    ∧ (rxBacklog 0).dev.rxRoom 0 = false ∧ ((rxBacklog 1).dev.rxRing 0).since = 1 ∧ 0 < (rxBacklog 1).dev.get (F.RXP_RXR_IRQ_TIMEOUT_US 0)
    ∧ (rxBacklog 1).dev.rxPcie 0 = true ∧ (rxBacklog 1).dev.is (F.RXP_RXR_CFG_EN 0) = true :=
  ⟨canonical _, rfl, by decide, by decide, rfl, by and_intros <;> decide⟩

/-- A frame from short address 1 of PAN 0 stands in group 1's queue, and the directory holds that node at entry 1, or does not enable the PAN. -/
def uplinkFrom : RxFrame :=
  { group := 1, port := 8, entry := 0, chan := 0, phy := 0x10, latch := someLatch, members := [], lq := 0, device := 8, combined := false, straddle := false, blanked := false,
    ok := true, fec := 0, bytes := [], no := 0, freq := 433150000,
    frame := { MacFrame.blank with ftype := 0, ackReq := true, seq := 5, panId := 7, dst := .short 0, src := .short 1 } }
def uplinked (regs : List (Nat × Nat)) : State :=
  let s := withRegs (rxRegs ++ regs)
  { s with dev := ({ s.dev with rx := { s.dev.rx with queues := [[], [uplinkFrom], [], []] }, tab := { s.dev.tab with blockMap := [⟨0, 0, 0, 1⟩] } } : Dev).setMem 4 (2 ^ 35) }
def panRegs : List (Nat × Nat) := [(H.ctrl 0x20, 1), (R.MAC_PAN_DATA 0 0 + 2 ^ 20, 0x81010007), (R.MAC_PAN_DATA 0 2 + 2 ^ 20, 0x10000000)]

theorem wit_ReceptionActs_uplink : (uplinked panRegs).Inv ∧ (uplinked panRegs).dev.rx.queues.getD 1 [] = [uplinkFrom] ∧ (uplinked panRegs).dev.panOf 1 7 = some 0
    ∧ (uplinked []).dev.panOf 1 7 = none ∧ (uplinked panRegs).dev.enabled 0x20 = true ∧ (uplinked panRegs).dev.validEntry (0 * 65536 + 1) = some 1
    ∧ (uplinked panRegs).dev.get (F.SEC_PAN_SEC_MIN_LEVEL 0) = 0 ∧ (uplinked panRegs).dev.enabled (0x24 + 1) = false ∧ (uplinked panRegs).dev.ra.txs = []
    ∧ (uplinked panRegs).dev.awake = true ∧ (uplinked panRegs).dev.paused = false :=
  ⟨canonical _, by and_intros <;> decide +kernel⟩

/-- Frames at their stages: one for no node, a data frame for a node, an acknowledgment and an Association Response. -/
def bcastAt (st : TxStage) : Tx := { rawAt st with src := .none, kind := .flood }
def dataAt (st : TxStage) : Tx := { rawAt st with kind := .data, dest := some 1, pan := some 0, hop := some 1, timed := true, be := 1, nb := 1 }
def fixedAt (k : TxKind) : Tx := { rawAt .step5 with src := .none, kind := k }

theorem wit_MediumAccessActs_access : (carrying txRegs (bcastAt .step4)).dev.tx 1 = some (bcastAt .step4) ∧ (carrying txRegs (bcastAt .step4)).dev.noGrants = false
    ∧ dutyRoom (carrying txRegs (bcastAt .step4)).dev { bcastAt .step4 with airtime := (carrying txRegs (bcastAt .step4)).dev.predictUs (bcastAt .step4) } 0 0 []
    ∧ (carrying ((R.MAC_DUTY_CFG 1, 0xFFFFFFFF) :: txRegs) (bcastAt .step4)).dev.ra.vault.inForce = some 0
    ∧ ((carrying ((R.MAC_DUTY_CFG 1, 0xFFFFFFFF) :: txRegs) (bcastAt .step4)).dev.slotRec 0 0).budgetUs
        < (carrying ((R.MAC_DUTY_CFG 1, 0xFFFFFFFF) :: txRegs) (bcastAt .step4)).dev.get (F.MAC_DUTY_CFG_ACK_RESERVE 1) * 360000
    ∧ nodeTx (carrying txRegs (dataAt .step4)).dev (dataAt .step4) 0 1 ∧ (dataAt .step4).sent = false ∧ (carrying txRegs (dataAt .step4)).dev.panEn (1 / 65536) = false :=
  ⟨rfl, by decide, ⟨rfl, by and_intros <;> decide +kernel⟩, rfl, by decide, ⟨rfl, rfl, rfl, rfl, none_displaced _ _ (by decide)⟩, rfl, by decide⟩

/-- Node 1 of PAN 0 stands at entry 1, in group 1; heard or not, and with its window's anchor where it has one. -/
def noded (t : Tx) (w : Nat) : State :=
  let s := carrying (txRegs ++ rxRegs ++ [(H.ctrl 0x20, 1), (R.MAC_PAN_DATA 0 0 + 2 ^ 20, 0x81010007), (R.MAC_PAN_DATA 0 2 + 2 ^ 20, 0x10000000),
    (R.MAC_PAN_DATA 0 3 + 2 ^ 20, 0x03E803E8)]) t
  { s with dev := ((({ s.dev with tab := { s.dev.tab with blockMap := [⟨0, 0, 0, 1⟩] } } : Dev).setMem 4 (2 ^ 35)).setMem 7 0x1000).setMem (timingAddr 1 + 1) w }

theorem noded_keeps (w : Nat) (h1 : (noded (dataAt .step4) w).dev.panEn (1 / 65536) = true)
    (h2 : (noded (dataAt .step4) w).dev.enabled (0x24 + (noded (dataAt .step4) w).dev.panGroup (1 / 65536)) = false)
    (h3 : (noded (dataAt .step4) w).dev.is F.DIR_TCLEAR_ACTIVE = false)
    (h5 : (noded (dataAt .step4) w).dev.panCheckin (1 / 65536) = 0) :
    ((noded (dataAt .step4) w).dev.nextHop 1).1 = (noded (dataAt .step4) w).dev ∧ ((noded (dataAt .step4) w).dev.adriftCheck 1 1).1 = (noded (dataAt .step4) w).dev := by
  generalize (noded (dataAt .step4) w).dev = d at *
  constructor
  · simp [Dev.nextHop, Dev.fwdLookup, h1, h2]
  · simp [Dev.adriftCheck, Dev.touchTiming, h3, h5]

theorem wit_MediumAccessActs_node : (noded (dataAt .step4) 0).Inv ∧ ((noded (dataAt .step4) 0).dev.nextHop 1).1 = (noded (dataAt .step4) 0).dev
    ∧ ((noded (dataAt .step4) 0).dev.adriftCheck 1 1).1 = (noded (dataAt .step4) 0).dev
    ∧ ((noded (dataAt .step4) 0).dev.nextHop 1).2.map (fun x => (x.handle, x.entry, x.path)) = some (1, 1, ⟨1, 0, 0, 0⟩) ∧ (noded (dataAt .step4) 0).dev.eHeard 1 = false :=
  have h := noded_keeps 0 (by decide +kernel) (by decide +kernel) (by decide +kernel) (by decide +kernel)
  ⟨canonical _, h.1, h.2, by decide +kernel, by decide +kernel⟩

theorem wit_MediumAccessActs_window : ((noded (dataAt .step4) 0xC0).dev.nextHop 1).1 = (noded (dataAt .step4) 0xC0).dev
    ∧ ((noded (dataAt .step4) 0xC0).dev.adriftCheck 1 1).1 = (noded (dataAt .step4) 0xC0).dev
    ∧ (noded (dataAt .step4) 0xC0).dev.eHeard 1 = true ∧ (noded (dataAt .step4) 0xC0).dev.pathUsable 1 ⟨1, 0, 0, 0⟩ = true
    ∧ (noded (dataAt .step4) 0xC0).dev.panWakePeriod 0 ≠ 0 ∧ isPawnBlock (dataAt .step4) = false
    ∧ ((noded (dataAt .step4) 0xC0).dev.pickWindow { (noded (dataAt .step4) 0xC0).dev.onPath (dataAt .step4) ⟨1, 1, ⟨1, 0, 0, 0⟩⟩ with port := (dataAt .step4).port } 1 0).any
        (fun w => decide ((noded (dataAt .step4) 0xC0).dev.monoUs + 250 < w.planned)) = true :=
  have h := noded_keeps 0xC0 (by decide +kernel) (by decide +kernel) (by decide +kernel) (by decide +kernel)
  ⟨h.1, h.2, by decide +kernel, by decide +kernel, by decide +kernel, rfl, by decide +kernel⟩

theorem wit_MediumAccessActs_bins : (inTransition .run .none 0 240000).dev.tempo % 240000 = 0
    ∧ (inTransition .run .none 0 240000).dev.ra.rolledT < (inTransition .run .none 0 240000).dev.tempo ∧ (inTransition .run .none 0 240000).dev.awake = true
    ∧ State.reset.dev.ra.rolledT = State.reset.dev.tempo := ⟨by decide, by decide, by decide, rfl⟩

/-- A backoff on a chain that is tuned, with a slot that asks for listen-before-talk or not. -/
def backedOff (f : Nat) : State := { carrying txRegs { rawAt .backoff with nb := 1 } with dev := (carrying txRegs { rawAt .backoff with nb := 1 }).dev.tune 8 f }

theorem wit_MediumAccessActs_backoff : (backedOff 433150000).dev.tx 1 = some { rawAt .backoff with nb := 1 } ∧ (backedOff 0).dev.slotTx 8 = none
    ∧ (backedOff 0).dev.inService 8 = true ∧ (backedOff 0).dev.portLost 8 = false ∧ (backedOff 0).dev.rangeOn 1 433150000 = true
    ∧ bit ((backedOff 0).dev.get (F.RFG_PORT_FAULT_PA 1)) 0 = false ∧ (backedOff 0).dev.ra.synth.length = 36 ∧ (backedOff 0).dev.chainOf 8 = 0
    ∧ (backedOff 0).dev.synthAt (deviceChain 1 0) ≠ 433150000 ∧ (backedOff 433150000).dev.synthAt (deviceChain 1 0) = 433150000
    ∧ (backedOff 433150000).dev.txLocked 1 0 = true ∧ (backedOff 433150000).dev.covered (rawAt .backoff) = false
    ∧ ((backedOff 433150000).dev.slotInForce 0).isSome = true ∧ 1 + 1 ≤ (backedOff 433150000).dev.get (F.MAC_LBT_MAX_BACKOFFS 1)
    ∧ (noded (dataAt .backoff) 0xC0).dev.validEntry 1 = some 1 ∧ (noded (dataAt .newRound) 0).dev.validEntry 1 = some 1
    ∧ ((noded (dataAt .newRound) 0).dev.pickWindow (dataAt .newRound) 1 1).isNone = true
    ∧ (rawAt .newRound).readyT ≤ (carrying txRegs (rawAt .newRound)).dev.tempo
    ∧ (carrying txRegs { rawAt .newRound with readyT := 1000000 }).dev.tempo < 1000000
    ∧ (backedOff 433150000).dev.blankedOutside 1 = false
    ∧ dutyRoom (carrying txRegs (rawAt .newRound)).dev (rawAt .newRound) 0 0 [] :=
  by and_intros <;> decide +kernel

theorem wit_MediumAccessActs_ackWait : (0 : Nat) < (carrying txRegs (dataAt .ackWait)).dev.get (F.MAC_ACK_MAX_RETRIES 1)
    ∧ (carrying txRegs (dataAt .ackWait)).dev.get (F.MAC_ACK_MAX_RETRIES 1) ≤ 15 ∧ nodeTx (carrying txRegs (dataAt .ackWait)).dev (dataAt .ackWait) 0 1 :=
  ⟨by decide, by decide, rfl, rfl, rfl, rfl, none_displaced _ _ (by decide)⟩

theorem wit_MediumAccessActs_fixed : (carrying txRegs (fixedAt .ack)).dev.ra.txs.find? (fun t => t.port == 8 && t.kind == .ack && t.stage == .step5) = some (fixedAt .ack)
    ∧ (carrying txRegs (fixedAt .assocResp)).dev.ra.txs.find? (fun t => t.port == 8 && t.kind == .assocResp && t.stage == .step5) = some (fixedAt .assocResp)
    ∧ noneDisplaced (carrying txRegs (fixedAt .ack)).dev (fixedAt .ack) ∧ noneDisplaced (carrying txRegs (fixedAt .assocResp)).dev (fixedAt .assocResp)
    ∧ sendsNow (carrying txRegs (fixedAt .ack)).dev (fixedAt .ack) ⟨[], true⟩ 0 0 0 15 false []
    ∧ sendsNow (carrying txRegs (fixedAt .assocResp)).dev (fixedAt .assocResp) ⟨[some (-400)], true⟩ 0 0 0 15 false [] :=
  ⟨by decide, by decide, none_displaced _ _ (by decide), none_displaced _ _ (by decide),
    by unfold sendsNow lanesVote; and_intros <;> decide +kernel,
    by unfold sendsNow lanesVote; and_intros <;> decide +kernel⟩

/-- PAN 0 sends beacons every 400 tempos on port 8, and one is late. -/
def beaconing (l : List Tx) : State :=
  let s := withRegs [(R.MAC_PAN_DATA 0 0 + 2 ^ 20, 0x81010007), (R.MAC_PAN_DATA 0 1 + 2 ^ 20, 433150000), (R.MAC_PAN_DATA 0 2 + 2 ^ 20, 0x10000190)]
  { s with dev := { s.dev with tempo := 400, ra := { State.reset.dev.ra with txs := l } } }

theorem wit_MediumAccessActs_beacons : (beaconing []).Inv ∧ (beaconing []).dev.noGrants = false ∧ (beaconing []).dev.panEn 0 = true ∧ (beaconing []).dev.panBeaconInt 0 = 400
    ∧ (beaconing []).dev.panGroup 0 = portGroup 8 ∧ bit ((beaconing []).dev.panPorts 0) (portSector 8) = true ∧ (beaconing []).dev.panBeaconPhase 0 = 0
    ∧ (beaconing []).dev.ra.beaconSeq.length = 128 ∧ (beaconing [{ rawAt .step4 with src := .none, kind := .beacon }]).dev.tx 1 = some { rawAt .step4 with src := .none, kind := .beacon } :=
  ⟨canonical _, by and_intros <;> decide +kernel⟩

/-- A peer at index 0 in a state, adopted automatically or not; and a relay whose Scoresheet entry has been seen three times. -/
def peered (st auto : Nat) : State :=
  let s := withFlds (withRegs [(R.MAC_PAN_DATA 0 0 + 2 ^ 20, 0x81010007)]) [(F.MAC_PEER_CFG_AUTO_ADOPT 1, auto)]
  { s with dev := { s.dev with tempo := 2 ^ 30, ra := { State.reset.dev.ra with peers := [⟨0, 5, 7, 1, 10, 6, 0, st, 0⟩] } } }
def relaying (k : Nat) (pan : Option Nat) : State :=
  let s := withFlds (withRegs [(R.MAC_PAN_DATA 0 0 + 2 ^ 20, 0x81010007)]) [(F.SHEET_CFG_SUPPRESS_K, k)]
  { s with dev := ({ s.dev with ra := { State.reset.dev.ra with relays := [⟨0, 1, pan, ⟨0x18, 4, 7, 0, 0⟩, MacFrame.blank, sheetAddr 0 0, 0⟩] } } : Dev).setMem (sheetAddr 0 0) (3 * 2 ^ 32) }

theorem wit_MediumAccessActs_peers : (peered 1 0).Inv ∧ (peered 1 0).dev.peer 0 = some ⟨0, 5, 7, 1, 10, 6, 0, 1, 0⟩ ∧ (peered 1 0).dev.pw.phase = .run
    ∧ 0 + 3 * 10 + (peered 1 0).dev.get (F.MAC_PEER_CFG_TOL 1) ≤ (peered 1 0).dev.tempo
    ∧ 0 + (peered 2 0).dev.get (F.MAC_PEER_CFG_HOLD_S 1) * 4000 ≤ (peered 2 0).dev.tempo
    ∧ (peered 2 0).dev.is (F.MAC_PEER_CFG_AUTO_ADOPT 1) = false ∧ (peered 2 1).dev.is (F.MAC_PEER_CFG_AUTO_ADOPT 1) = true
    ∧ (peered 2 1).dev.peerPan ⟨0, 5, 7, 1, 10, 6, 0, 2, 0⟩ = some 0 ∧ (relaying 3 none).Inv
    ∧ (relaying 3 none).dev.get F.SHEET_CFG_SUPPRESS_K = 3 ∧ (relaying 3 none).dev.memBits (sheetAddr 0 0) 34 32 = 3 ∧ (relaying 0 (some 0)).dev.get F.SHEET_CFG_SUPPRESS_K = 0
    ∧ (relaying 0 (some 0)).dev.ra.macSeq.length = 128 ∧ (relaying 0 (some 0)).dev.ra.macSeq.getD 0 0 = 0 :=
  ⟨canonical _, rfl, rfl, by decide, by decide, by decide, by decide, by decide +kernel, canonical _, by decide, by decide, by decide, rfl, rfl⟩

/-- A raw frame's entry: port 8, PHY 0x10, preamble 8, 433.15 MHz, one byte from the host region. -/
def rawParams (port : Nat) : List Byte :=
  beBytes 1 port ++ [0x10, 0, 0] ++ beBytes 2 100 ++ beBytes 2 8 ++ beBytes 4 433150000 ++ beBytes 2 0 ++ beBytes 2 1 ++ beBytes 4 0x03E00000 ++ beBytes 4 0 ++ beBytes 8 0
/-- A command runs where node 1 of PAN 0 is in the directory (word 1 of its timing given), and PAN 0 is enabled or not. -/
def pannedRegs (en : Nat) : List (Nat × Nat) :=
  [(H.ctrl 0x20, 1), (R.MAC_PAN_DATA 0 0 + 2 ^ 20, 0x01010007 + en * 2 ^ 31), (R.MAC_PAN_DATA 0 2 + 2 ^ 20, 0x10000000), (R.MAC_PAN_DATA 0 3 + 2 ^ 20, 0x03E803E8)]
def panned (en w checkin op : Nat) (params : List Byte) : State :=
  let s := withRegs ((R.MAC_PAN_DATA 0 4 + 2 ^ 20, checkin * 2 ^ 16) :: pannedRegs en)
  running { s with dev := ((({ s.dev with tab := { s.dev.tab with blockMap := [⟨0, 0, 0, 1⟩] }, ra := { s.dev.ra with peers := [⟨0, 5, 7, 1, 10, 6, 0, 3, 0⟩, ⟨1, 5, 9, 1, 10, 6, 0, 3, 0⟩, ⟨2, 5, 7, 1, 10, 6, 0, 1, 0⟩] } } : Dev).setMem 4 (2 ^ 35)).setMem 7 0x1000).setMem (timingAddr 1 + 1) w } op params

theorem panned_inv : (panned 1 0xFFF80 1 0x0322 []).Inv ∧ (panned 0 0 0 0x0322 []).Inv ∧ (running (withRegs txRegs) 0x0300 (rawParams 8)).Inv :=
  ⟨canonical _, canonical _, canonical _⟩

theorem wit_MacCommandsAct_raw : (running (withRegs txRegs) 0x0300 (rawParams 8)).dev.cmdFor 0 1 0x0300 = some (entryOf 0x0300 (rawParams 8))
    ∧ txRawOk (entryOf 0x0300 (rawParams 8)) = true ∧ txRawOk (entryOf 0x0300 (rawParams 32)) = false
    ∧ (running (withRegs txRegs) 0x0300 (rawParams 8)).dev.inService ((entryOf 0x0300 (rawParams 8)).p1 0) = true
    ∧ (running State.reset 0x0300 (rawParams 8)).dev.inService ((entryOf 0x0300 (rawParams 8)).p1 0) = false :=
  ⟨rfl, by and_intros <;> decide⟩

theorem wit_DirectoryActs_remove : (panned 1 0 0 0x0501 (beBytes 4 1)).dev.cmdFor 0 1 0x0501 = some (entryOf 0x0501 (beBytes 4 1))
    ∧ (panned 1 0 0 0x0501 []).dev.validEntry 1 = some 1
    ∧ ((panned 1 0 0 0x0501 []).dev.tab.blockMap.filter (fun y => y.pan == 1 / 65536 && y.block == 1 % 65536 / 1024)).length = 1 :=
  ⟨rfl, by decide +kernel, by decide⟩

theorem wit_MacCommandsAct_send : (panned 1 0 0 0x0320 (beBytes 4 1 ++ beBytes 2 0 ++ beBytes 2 1 ++ beBytes 4 0x03E00000)).dev.cmdFor 0 1 0x0320
      = some (entryOf 0x0320 (beBytes 4 1 ++ beBytes 2 0 ++ beBytes 2 1 ++ beBytes 4 0x03E00000))
    ∧ macSendOk (panned 1 0 0 0x0320 []).dev (entryOf 0x0320 (beBytes 4 1 ++ beBytes 2 0 ++ beBytes 2 1 ++ beBytes 4 0x03E00000)) = true
    ∧ macSendOk (panned 0 0 0 0x0320 []).dev (entryOf 0x0320 (beBytes 4 1 ++ beBytes 2 0 ++ beBytes 2 1 ++ beBytes 4 0x03E00000)) = true
    ∧ macSendOk (panned 1 0 0 0x0320 []).dev (entryOf 0x0320 []) = false
    ∧ (panned 1 0 0 0x0320 []).dev.panEn 0 = true ∧ (panned 0 0 0 0x0320 []).dev.panEn 0 = false
    ∧ (panned 1 0 0 0x0320 []).dev.validEntry 1 = some 1 ∧ (panned 1 0 0 0x0320 []).dev.validEntry 2 = none ∧ (panned 1 0 0 0x0320 []).dev.ra.macSeq.length = 128
    ∧ (panned 1 0 0 0x0321 (beBytes 4 1)).dev.cmdFor 0 1 0x0321 = some (entryOf 0x0321 (beBytes 4 1)) ∧ (entryOf 0x0321 (beBytes 4 1)).zeroFrom 4 = true
    ∧ (entryOf 0x0321 (beBytes 4 1)).p4 0 = 1 ∧ (entryOf 0x0321 (beBytes 4 2)).p4 0 = 2 ∧ (entryOf 0x0321 (beBytes 4 (2 ^ 23))).p4 0 = 2 ^ 23 :=
  by and_intros <;> decide +kernel

theorem wit_MacCommandsAct_timing : (panned 1 0 0 0x0322 (beBytes 4 1)).dev.cmdFor 0 1 0x0322 = some (entryOf 0x0322 (beBytes 4 1))
    ∧ (panned 1 0 0 0x0322 []).dev.is F.DIR_TCLEAR_ACTIVE = false ∧ (panned 1 0 0 0x0322 []).dev.panCheckin 0 = 0 ∧ (panned 1 0 0 0x0322 []).dev.eAnchor 1 = none
    ∧ (panned 1 0xC0 0 0x0322 []).dev.eAnchor 1 = some 0 ∧ (panned 1 0xC0 0 0x0322 []).dev.panWakePeriod 0 ≠ 0
    ∧ 0 < (panned 1 0xFFF80 1 0x0322 []).dev.panCheckin 0 ∧ (panned 1 0xFFF80 1 0x0322 []).dev.eLastAge 1 = none ∧ (panned 1 0xFFF80 1 0x0322 []).dev.eAdrift 1 = false
    ∧ (panned 1 0xFFF80 1 0x0322 []).dev.paused = false :=
  ⟨rfl, by and_intros <;> decide +kernel⟩

theorem wit_MacCommandsAct_scan : (panned 1 0 0 0x0323 ([0, 0] ++ beBytes 2 1 ++ beBytes 2 1)).dev.cmdFor 0 1 0x0323 = some (entryOf 0x0323 ([0, 0] ++ beBytes 2 1 ++ beBytes 2 1))
    ∧ (entryOf 0x0323 ([0, 0] ++ beBytes 2 1 ++ beBytes 2 1)).p2 4 = 1 ∧ (entryOf 0x0323 ([0, 0] ++ beBytes 2 1 ++ beBytes 2 1)).zeroFrom 6 = true
    ∧ 127 < (entryOf 0x0323 [128]).p1 0 ∧ (panned 1 0 0 0x0323 []).dev.ra.scans = [] :=
  ⟨rfl, by decide, by decide, by decide, rfl⟩

theorem wit_MacCommandsAct_flood : (panned 1 0 0 0x0330 ([0, 4] ++ beBytes 2 1 ++ beBytes 4 0x03E00000)).dev.cmdFor 0 1 0x0330
      = some (entryOf 0x0330 ([0, 4] ++ beBytes 2 1 ++ beBytes 4 0x03E00000))
    ∧ floodOk (panned 1 0 0 0x0330 []).dev (entryOf 0x0330 ([0, 4] ++ beBytes 2 1 ++ beBytes 4 0x03E00000)) = true
    ∧ floodOk (panned 0 0 0 0x0330 []).dev (entryOf 0x0330 ([0, 4] ++ beBytes 2 1 ++ beBytes 4 0x03E00000)) = true
    ∧ floodOk (panned 1 0 0 0x0330 []).dev (entryOf 0x0330 ([0, 32] ++ beBytes 2 1 ++ beBytes 4 0x03E00000)) = false
    ∧ (panned 1 0 0 0x0330 []).dev.ra.floodSeq.length = 128 ∧ (panned 1 0 0 0x0330 []).dev.ra.macSeq.getD 0 0 = 0 :=
  ⟨rfl, by decide +kernel, by decide +kernel, by decide +kernel, rfl, rfl⟩

theorem wit_MacCommandsAct_adopt : (panned 1 0 0 0x0331 [0]).dev.cmdFor 0 1 0x0331 = some (entryOf 0x0331 [0]) ∧ (entryOf 0x0331 [0]).zeroFrom 1 = true
    ∧ 63 < (entryOf 0x0331 [64]).p1 0 ∧ (panned 1 0 0 0x0331 [0]).dev.peer 0 = some ⟨0, 5, 7, 1, 10, 6, 0, 3, 0⟩
    ∧ (panned 1 0 0 0x0331 [0]).dev.peerPan ⟨0, 5, 7, 1, 10, 6, 0, 3, 0⟩ = some 0 ∧ (panned 1 0 0 0x0331 [1]).dev.peerPan ⟨1, 5, 9, 1, 10, 6, 0, 3, 0⟩ = none
    ∧ (panned 1 0 0 0x0331 [2]).dev.peer 2 = some ⟨2, 5, 7, 1, 10, 6, 0, 1, 0⟩ :=
  by and_intros <;> decide +kernel

/-- A slot of the key store, and a device that holds it at slot 5, with the node of `panned` in the directory. -/
def aKey (reserving failed : Bool) : KeySlot :=
  { slot := 5, state := 1, type := 2, levels := 0x20, pan := 0, index := 1, gen := 3, key := [], next := 7, block := 0, refs := 0, reserving := reserving, failed := failed,
    warned := false, stallT := 0, retryT := 0 }
def keyed (reserving failed : Bool) (op : Nat) (params : List Byte) : State :=
  let s := panned 1 0 0 op params
  { s with dev := { s.dev with ks := { s.dev.ks with slots := [aKey reserving failed] } } }
def requested (type : Nat) (p : List Byte) : State :=
  { State.reset with dev := { State.reset.dev with fw := { State.reset.dev.fw with request := some (type, 1, p) } } }

theorem wit_KeyStoreActs_commands : (keyed false false 0x0400 []).Inv ∧ (keyed false false 0x0400 []).dev.paused = false
    ∧ (keyed false false 0x0400 []).dev.cmdFor 0 1 0x0400 = some (entryOf 0x0400 []) ∧ (keyed false false 0x0404 []).dev.cmdFor 0 1 0x0404 = some (entryOf 0x0404 [])
    ∧ (keyed false false 0x0405 []).dev.cmdFor 0 1 0x0405 = some (entryOf 0x0405 []) :=
  ⟨canonical _, by decide, rfl, rfl, rfl⟩

/-- A frame at step 5 uses the key; and a PAN names it as its group key. -/
def keyInFrame : State :=
  { keyed false false 0x0401 [0, 5] with dev := { (keyed false false 0x0401 [0, 5]).dev with ra := { State.reset.dev.ra with txs := [{ rawAt .step5 with key := some 5 }] } } }
def keyNamedByPan : State := withFlds (keyed false false 0x0401 [0, 5]) [(F.SEC_PAN_SEC_GROUP_EN 0, 1), (F.SEC_PAN_SEC_GROUP_KEY 0, 5)]

theorem wit_KeyStoreActs_erase : (keyed false false 0x0401 [0, 5]).dev.cmdFor 0 1 0x0401 = some (entryOf 0x0401 [0, 5]) ∧ (entryOf 0x0401 [0, 5]).p2 0 = 5
    ∧ (entryOf 0x0401 [0, 5]).zeroFrom 2 = true ∧ 4095 < (entryOf 0x0401 [16]).p2 0 ∧ (keyed false false 0x0401 [0, 5]).dev.ks.lock = false
    ∧ ({ keyed false false 0x0401 [0, 5] with dev := { (keyed false false 0x0401 [0, 5]).dev with ks := { State.reset.dev.ks with lock := true } } } : State).dev.ks.lock = true
    ∧ (keyed false false 0x0401 [0, 5]).dev.slotRefs 5 = 0 ∧ keyInFrame.dev.slotRefs 5 = keyInFrame.dev.frameRefs 5 ∧ 0 < keyInFrame.dev.frameRefs 5
    ∧ keyNamedByPan.dev.frameRefs 5 < keyNamedByPan.dev.slotRefs 5 :=
  by and_intros <;> decide +kernel

theorem wit_KeyStoreActs_bind : (keyed false false 0x0402 [0, 0, 0, 1, 0, 5, 1]).dev.cmdFor 0 1 0x0402 = some (entryOf 0x0402 [0, 0, 0, 1, 0, 5, 1])
    ∧ (entryOf 0x0402 [0, 0, 0, 1, 0, 5, 1]).p4 0 = 1 ∧ (entryOf 0x0402 [0, 0, 0, 1, 0, 5, 1]).p2 4 = 5 ∧ (entryOf 0x0402 [0, 0, 0, 1, 0, 5, 1]).p1 6 = 1
    ∧ (entryOf 0x0402 [0, 0, 0, 1, 0, 5, 1]).zeroFrom 7 = true ∧ 1 < (entryOf 0x0402 [0, 0, 0, 1, 0, 5, 2]).p1 6
    ∧ (keyed false false 0x0402 []).dev.activeSlot 5 [1, 2] 0 = true ∧ (keyed false false 0x0402 []).dev.activeSlot 6 [1, 2] 0 = false
    ∧ (keyed false false 0x0402 []).dev.validEntry 1 = some 1 ∧ (keyed false false 0x0402 []).dev.validEntry 2 = none
    ∧ (keyed false false 0x0402 []).dev.keySlot 5 = some (aKey false false) ∧ (keyed false false 0x0402 []).dev.eKey 1 = none
    ∧ (keyed false false 0x0403 [0, 5]).dev.cmdFor 0 1 0x0403 = some (entryOf 0x0403 [0, 5]) ∧ (keyed false false 0x0403 []).dev.keySlot 0 = none :=
  by and_intros <;> decide +kernel

theorem wit_KeyStoreActs_reserve : (keyed true false 0 []).dev.keySlot 5 = some (aKey true false) ∧ (aKey true false).reserving = true
    ∧ (keyed true false 0 []).dev.ra.txs = [] ∧ (keyed true true 0 []).dev.keySlot 5 = some (aKey true true) ∧ (aKey true true).failed = true
    ∧ (aKey true true).retryT ≤ (keyed true true 0 []).dev.tempo ∧ (keyed true true 0 []).dev.tempo < { aKey true true with retryT := 1000000 }.retryT
    ∧ (withFlds (keyed true false 0 []) [(F.SEC_CFG_WARN_BLOCK, 1)]).dev.get F.SEC_CFG_WARN_BLOCK ≤ (aKey true false).block + 1 :=
  ⟨rfl, rfl, rfl, rfl, rfl, by and_intros <;> decide⟩

theorem wit_KeyStoreActs_init : (requested 0x07 []).Inv ∧ (requested 0x07 []).dev.fw.request = some (0x07, 1, []) ∧ (requested 0x07 []).dev.awake = true
    ∧ (requested 0x07 []).dev.paused = false ∧ (requested 0x07 []).dev.ks.owner = none ∧ (owned (requested 0x07 [])).dev.ks.owner ≠ none :=
  ⟨canonical _, rfl, by decide, by decide, rfl, by decide⟩

/-- A frame at step 2 or queued in flow 8, with QSCH enabled; and a frame in egress queue 5 of a backhaul port whose link is up. -/
def flowed (regs : List (Nat × Nat)) (st : TxStage) : State := carrying ((H.ctrl 0x28, 1) :: regs ++ txRegs) { rawAt st with flow := 8, cells := 0 }
def queuedTx : Tx := { rawAt .queued with flow := 8, src := .none, kind := .packet, cells := 1 }
def inFlow : State :=
  let s := carrying ((H.ctrl 0x28, 1) :: (R.QSCH_BUF_HELD_DOWN, 1) :: txRegs) queuedTx
  running { s with dev := s.dev.setDepth 8 1 1 } 0x0600 [0, 8]
def egressOn (gw : Nat) (b : EgrBody) : State :=
  let s := withRegs [(H.ctrl 0x28, 1), (H.ctrl 0x30, 1), (R.BHL_LINK 0, 0xFFFFFFFF), (R.BHL_GW_MAC_LO 0, gw), (R.QSCH_BUF_HELD_UP, 2)]
  { s with dev := { s.dev with sch := { s.dev.sch with egress := [⟨5, 300, 2, b⟩] } } }
def aPacket : IpPacket := ⟨1, 2, 0, 64, []⟩

theorem wit_BoundaryAndTrafficAct_boundary : State.reset.dev.awake = true ∧ quietBoundary State.reset.dev ∧ State.reset.dev.bh.slew = 0 ∧ State.reset.dev.paused = false
    ∧ ({ State.reset with dev := { State.reset.dev with ln := { State.reset.dev.ln with marked := true } } } : State).dev.ln.marked = true
    ∧ (atPhase .sleep).Inv ∧ (atPhase .sleep).dev.awake = false ∧ 0 < (State.reset.dev.ra.duty.getD 31 []).length :=
  ⟨by decide, by and_intros <;> decide, rfl, by decide, rfl, atPhase_inv _, by decide, by decide⟩

def granting : State := { withRegs [(H.ctrl 0x24, 1), (R.FWD_CFG 0, 0xFFFFFFFF)] with dev := { (withRegs [(H.ctrl 0x24, 1), (R.FWD_CFG 0, 0xFFFFFFFF)]).dev with bg := { State.reset.dev.bg with granted := [0, 2, 3, 5] } } }

theorem wit_BoundaryAndTrafficAct_granted : granting.Inv ∧ granting.dev.awake = true ∧ granting.dev.paused = false ∧ granting.dev.bg.granted.contains 5 = true
    ∧ granting.dev.bg.granted.contains 1 = false ∧ granting.dev.enabled 0x24 = true ∧ granting.dev.is (F.FWD_CFG_SWEEP_EN 0) = true :=
  ⟨canonical _, by and_intros <;> decide⟩

theorem wit_BoundaryAndTrafficAct_admission : (flowed [] .step2).Inv
    ∧ (flowed [] .step2).dev.ra.txs.find? (fun t => t.stage == .step2) = some { rawAt .step2 with flow := 8, cells := 0 }
    ∧ rawTx (flowed [] .step2).dev { rawAt .step2 with flow := 8, cells := 0 } 0 1 ∧ (flowed [] .step2).dev.flowFor 8 8 = 8 ∧ (flowed [] .step2).dev.enabled 0x28 = true
    ∧ (carrying txRegs (rawAt .step2)).dev.enabled 0x28 = false ∧ (flowed [] .step2).dev.flowPort 8 = 8 ∧ (flowed [] .step2).dev.flowPort 9 ≠ 8
    ∧ (flowed [(F.QFLOW_CFG_MODE.at 8 |>.addr, 0x01080001)] .step2).dev.flowPort 8 = 8 ∧ (flowed [] .step2).dev.flowMode 8 ≠ 1 :=
  ⟨canonical _, by decide, ⟨by decide, by decide, by decide, by decide, by decide, none_displaced _ _ (by decide)⟩, by and_intros <;> decide +kernel⟩
def policed : State := { withFlds (flowed [] .step2) [(F.QFLOW_CFG_MODE.at 8, 1)] with dev := (withFlds (flowed [] .step2) [(F.QFLOW_CFG_MODE.at 8, 1)]).dev.setP 8 (-1) }

theorem wit_BoundaryAndTrafficAct_refused : policed.Inv ∧ policed.dev.flowMode 8 = 1 ∧ policed.dev.fP 8 < 0
    ∧ (withFlds (flowed [] .step2) [(F.QFLOW_LIMIT_LIMIT.at 8, 0)]).dev.get (F.QFLOW_LIMIT_LIMIT.at 8) < (withFlds (flowed [] .step2) [(F.QFLOW_LIMIT_LIMIT.at 8, 0)]).dev.fDepth 8 + 1
    ∧ (flowed [] .step2).dev.fDepth 8 + 1 ≤ (flowed [] .step2).dev.get (F.QFLOW_LIMIT_LIMIT.at 8)
    ∧ (flowed [(R.QSCH_BUF_HELD_DOWN, 192512)] .step2).dev.cellsFit true (cellsFor 0) = false ∧ (flowed [] .step2).dev.cellsFit true (cellsFor 0) = true
    ∧ (flowed [] .step2).dev.fCells 8 + 1 < 2 ^ 18 ∧ ((flowed [] .step2).dev.sized { rawAt .step2 with flow := 8, cells := 0 }).cells = cellsFor 0 :=
  ⟨canonical _, by and_intros <;> decide +kernel⟩

theorem wit_BoundaryAndTrafficAct_selection : inFlow.Inv ∧ inFlow.dev.maySelect 8 = true ∧ inFlow.dev.maySelect 9 = false ∧ inFlow.dev.pickClass 8 = some (64, 8, true)
    ∧ inFlow.dev.headOf 8 = some queuedTx ∧ inFlow.dev.tx 1 = some queuedTx ∧ queuedTx.latest = 0 ∧ inFlow.dev.sch.selected.length = 32
    ∧ (flowed [] .step5).dev.maySelect 8 = true ∧ (flowed [] .step5).dev.pickClass 8 = none :=
  ⟨canonical _, by and_intros <;> decide +kernel⟩

theorem wit_BoundaryAndTrafficAct_flush : inFlow.dev.cmdFor 0 1 0x0600 = some (entryOf 0x0600 [0, 8]) ∧ (entryOf 0x0600 [0, 8]).p2 0 = 8 ∧ (entryOf 0x0600 [0, 8]).zeroFrom 2 = true
    ∧ inFlow.dev.flowFrames 8 = [queuedTx] ∧ inFlow.dev.flowFrames 9 = [] ∧ queuedTx.src = .none ∧ queuedTx.kind = .packet ∧ 16383 < (entryOf 0x0600 [64, 0]).p2 0 :=
  by and_intros <;> decide

theorem wit_BoundaryAndTrafficAct_egress : (egressOn 1 (.ip aPacket)).Inv ∧ (egressOn 1 (.ip aPacket)).dev.portHears 0 = true ∧ (egressOn 1 (.ip aPacket)).dev.paused = false
    ∧ (egressOn 1 (.ip aPacket)).dev.egrPick 0 = some 5 ∧ (egressOn 1 (.ip aPacket)).dev.gateway 0 = some 1 ∧ (egressOn 0 (.ip aPacket)).dev.gateway 0 = none
    ∧ (egressOn 1 (.ip aPacket)).dev.egrFrames 5 = [⟨5, 300, 2, .ip aPacket⟩] ∧ (egressOn 0 (.datagram 0 1 2 [])).dev.egrPick 0 = some 5
    ∧ State.reset.dev.portHears 0 = false :=
  ⟨canonical _, by and_intros <;> decide +kernel⟩

/-- Backhaul port 0 enabled and supplied, its link up, its gateway from an advertisement, and PTP on it. -/
def backRegs : List (Nat × Nat) := [(H.ctrl 0x28, 1), (H.ctrl 0x30, 1), (H.ctrl 0x32, 1), (H.ctrl 0x33, 1), (R.BHL_LINK 0, 15), (R.BHL_ADDR 0 3, 9)]
def backhauled : State := withRegs backRegs
def someMaster : PtpMaster := ⟨1, 2, 3, 4, 5, 6, 7, 8⟩
def mastered : State := { backhauled with dev := { backhauled.dev with bh := { backhauled.dev.bh with masters := [someMaster], chosen := some someMaster, within := 15 } } }
def moduleRead (vsfp present : Nat) (params : List Byte) : State :=
  let s := running (withRegs [(R.BHL_LINK 0, 4 * vsfp)]) 0x0700 params
  { s with dev := { s.dev with tempo := 1208, pins := { s.dev.pins with modPresent := BitVec.ofNat 2 present } } }
/-- Node 1 of PAN 0 is in the directory, whose mesh prefix is 1, with group 1 in service. -/
def routed : State :=
  let s := withFlds (panned 1 0 0 0 []) [(F.LOWPAN_PFX_LO_PREFIX.at 0, 1)]
  { s with dev := (backRegs ++ txRegs).foldl (fun d x => d.wr x.1 x.2) s.dev }
def toNode (iid n : Nat) : IpPacket := ⟨0, 2 ^ 64 + iid, 0, 64, List.replicate n 0⟩
def reassembling (t : Nat) : State :=
  { State.reset with dev := { State.reset.dev with tempo := t, bh := { State.reset.dev.bh with reasm := [⟨0, .short 1, 2, 100, [], false, 0, 1⟩] } } }

theorem wit_BackhaulAndTimeAct_ports : backhauled.Inv ∧ backhauled.dev.paused = false ∧ backhauled.dev.awake = true ∧ backhauled.dev.is (F.BHL_LINK_VSFP 0) = true
    ∧ backhauled.dev.is (F.BHL_LINK_VSFP 1) = false ∧ backhauled.dev.bh.overcurrent.length = 2 ∧ backhauled.dev.bh.moduleT.length = 2
    ∧ (atPhase .sleep).dev.awake = false ∧ (atPhase .sleep).dev.paused = false ∧ (atPhase .sleep).Inv :=
  ⟨canonical _, by decide, by decide, by decide, by decide, rfl, rfl, by decide, by decide, atPhase_inv _⟩

theorem wit_BackhaulAndTimeAct_module : (moduleRead 1 1 [0, 0xA0, 0, 16]).Inv ∧ (moduleRead 1 1 [0, 0xA0, 0, 16]).dev.paused = false
    ∧ (moduleRead 1 1 [0, 0xA0, 0, 16]).dev.cmdFor 0 1 0x0700 = some (entryOf 0x0700 [0, 0xA0, 0, 16])
    ∧ (∀ c ∈ (moduleRead 1 1 [0, 0xA0, 0, 16]).dev.inflight, c.e.opcode = 0x0700 → c.ring = 0 ∧ c.e.hseq = 1)
    ∧ (entryOf 0x0700 [0, 0xA0, 0, 16]).zeroFrom 4 = true ∧ (entryOf 0x0700 [0, 0xA0, 0, 16]).p1 3 = 16 ∧ 1 < (entryOf 0x0700 [2]).p1 0
    ∧ (moduleRead 1 0 [0, 0xA0, 0, 16]).dev.pins.modPresent.getLsbD 0 = false ∧ (moduleRead 1 1 [0, 0xA0, 0, 16]).dev.pins.modPresent.getLsbD 0 = true
    ∧ (moduleRead 0 1 [0, 0xA0, 0, 16]).dev.is (F.BHL_LINK_VSFP 0) = false ∧ (moduleRead 1 1 [0, 0xA0, 0, 16]).dev.is (F.BHL_LINK_VSFP 0) = true
    ∧ (moduleRead 1 1 []).dev.bh.moduleT.getD 0 0 + 1208 ≤ (moduleRead 1 1 []).dev.tempo :=
  ⟨canonical _, by decide, rfl, by and_intros <;> decide⟩

/-- An address below the link-local ones, other than the global address, is none of the port's own. -/
theorem not_own (d : Dev) (n a g : Nat) (hg : d.globalAddr n = g) (h1 : a < 2 ^ 127) (h2 : a ≠ g) : d.ownAddr n a = false := by
  have h : a ≠ linkLocal := by unfold linkLocal; omega
  simp [Dev.ownAddr, hg, h, h2]

theorem wit_BackhaulAndTimeAct_own : backhauled.dev.ownAddr 0 7 = false ∧ routed.dev.ownAddr 0 (toNode 0xFFFE000001 4).dst = false :=
  ⟨not_own _ _ _ 9 (by decide) (by decide) (by decide), not_own _ _ _ 9 (by decide +kernel) (by decide) (by decide)⟩

theorem wit_BackhaulAndTimeAct_heard : backhauled.dev.portHears 0 = true ∧ backhauled.dev.portHears 1 = false ∧ backhauled.dev.vlanOk 0 none = true
    ∧ backhauled.dev.vlanOk 0 (some 5) = false ∧ backhauled.dev.getPair (F.BHL_GW_MAC_LO_MAC 0) (F.BHL_GW_MAC_HI_MAC 0) = 0 ∧ backhauled.dev.bh.raMac.length = 2
    ∧ backhauled.dev.prefixPan 7 = none ∧ backhauled.dev.ownAddr 0 9 = true :=
  ⟨by decide, by decide, by decide, by decide, by decide, rfl, by decide +kernel, by
    have h : backhauled.dev.globalAddr 0 = 9 := by decide
    simp [Dev.ownAddr, h]⟩

theorem wit_BackhaulAndTimeAct_routed : routed.Inv ∧ routed.dev.paused = false ∧ routed.dev.portHears 0 = true
    ∧ routed.dev.prefixPan (toNode 0xFFFE000001 4).dst = some 0 ∧ (toNode 0xFFFE000001 4).dst % 2 ^ 64 / 65536 = 0x000000FFFE00 ∧ (toNode 0xFFFE000001 4).dst % 65536 = 1
    ∧ (routed.dev.validEntry 1).isSome = true ∧ routed.dev.validEntry 2 = none ∧ (toNode 0xFFFE000002 4).dst % 65536 = 2
    ∧ 1280 < (toNode 0xFFFE000001 1281).bytes.length ∧ (toNode 0xFFFE000001 1280).bytes.length ≤ 1280 ∧ (1 : Nat) < (toNode 0xFFFE000001 4).hopLimit :=
  ⟨canonical _, by decide, by decide +kernel, by decide +kernel, by decide, by decide, by decide +kernel, by decide +kernel, by decide,
    Nat.lt_of_lt_of_eq (by decide) List.length_replicate.symm, Nat.le_of_eq List.length_replicate, by decide⟩

theorem wit_BackhaulAndTimeAct_reasm : (reassembling 10000000).Inv
    ∧ (reassembling 10000000).dev.bh.reasm.find? (fun r => decide (r.startT + (reassembling 10000000).dev.get F.LOWPAN_CFG_REASM_S * 4000 ≤ (reassembling 10000000).dev.tempo))
      = some ⟨0, .short 1, 2, 100, [], false, 0, 1⟩
    ∧ (∀ r ∈ (reassembling 0).dev.bh.reasm, (reassembling 0).dev.tempo < r.startT + (reassembling 0).dev.get F.LOWPAN_CFG_REASM_S * 4000) :=
  ⟨canonical _, by decide, by decide⟩

theorem wit_BackhaulAndTimeAct_ptp : mastered.Inv ∧ mastered.dev.paused = false ∧ mastered.dev.ptpUp = true ∧ mastered.dev.bh.chosen.isSome = true ∧ mastered.dev.bh.within = 15
    ∧ State.reset.dev.ptpUp = false ∧ mastered.dev.is F.PTP_SERVO_LOCKED = false
    ∧ mastered.dev.bh.masters.filter (fun x => x.sender != ({ someMaster with sender := 9 } : PtpMaster).sender) = [someMaster] :=
  ⟨canonical _, by decide, by decide, by decide, rfl, by and_intros <;> decide⟩

theorem wit_BackhaulAndTimeAct_pcie : backhauled.dev.ringPcie 0 = true ∧ backhauled.dev.rxPcie 0 = true
    ∧ (withFlds State.reset [(F.HOST_RING_CFG_TRANSPORT 0, 1)]).dev.ringPcie 0 = false :=
  by and_intros <;> decide

/-- A Brioz Link session 0 of backhaul port 0, subscribed to receive ring 0 and to telemetry; and a device that holds it. -/
def aSession : Session :=
  { uid := 3, port := 0, num := 0, peerAddr := 5, peerPort := 6, rxSub := 1, evSub := 3, key := [], seen := [4], nextSeq := 2, lastRxT := 0, openT := 0, lastTxT := 0,
    heard := true, paced := 0, telemSeq := 0 }
def linked (regs : List (Nat × Nat)) : State :=
  let s := withRegs ((R.HOST_RING_CFG 0, 3) :: (H.ctrl 5, 1) :: regs ++ backRegs)
  { s with dev := { s.dev with sessions := [aSession], tempo := 800000, bh := { s.dev.bh with hdata := [(3, 0x03E00000, List.replicate 9 1)], events := [(3, [1])] } } }
/-- A datagram of session 0, with DGSEQ 5 and any MAC. -/
def dgram (type : Nat) (payload : List Byte) : List Byte := dgBody type 0 5 payload ++ List.replicate 16 0
/-- A CMD of one entry, HSEQ 1, for a ring. -/
def cmdItems (ring : Nat) : List Byte := beBytes 1 1 ++ [0, 0, 0] ++ (beBytes 1 ring ++ [0, 0, 0] ++ (entryOf 0 []).bytes)

theorem wit_BriozLinkActs_datagrams : (linked []).Inv ∧ (linked []).dev.portHears 0 = true ∧ (linked []).dev.portHears 1 = false ∧ (linked []).dev.vlanOk 0 none = true
    ∧ (linked []).dev.vlanOk 0 (some 5) = false ∧ (linked []).dev.paused = false ∧ dgFormatOk (dgram 0x03 [1, 0, 0, 0]) = true ∧ beField (dgram 0x03 [1, 0, 0, 0]) 3 1 = 0x03
    ∧ dgFormatOk (dgram 0x04 []) = true ∧ dgFormatOk (dgram 0x14 (beBytes 4 0x03E00000 ++ beBytes 2 9 ++ [0, 0] ++ List.replicate 9 0)) = true
    ∧ (linked []).dev.sessionAt 0 0 = some aSession ∧ dgFormatOk [] = false ∧ beField (dgram 0x14 []) 3 1 = 0x14 ∧ beField (dgram 0x04 []) 3 1 = 0x04
    ∧ (linked []).dev.sessionAt 0 1 = none :=
  ⟨canonical _, by and_intros <;> decide +kernel⟩

theorem wit_BriozLinkActs_paused : (linked [(R.UPD_STAT, 0xFFFFFFFF)]).Inv ∧ (linked [(R.UPD_STAT, 0xFFFFFFFF)]).dev.paused = true ∧ (linked [(R.UPD_STAT, 0xFFFFFFFF)]).dev.portHears 0 = true
    ∧ (linked [(R.UPD_STAT, 0xFFFFFFFF)]).dev.vlanOk 0 none = true :=
  ⟨canonical _, by and_intros <;> decide⟩

theorem wit_BriozLinkActs_cmd : dgFormatOk (dgram 0x10 (cmdItems 0)) = true ∧ beField (dgram 0x10 (cmdItems 0)) 12 1 = 1 ∧ beField (dgram 0x10 (cmdItems 0)) 16 1 = 0
    ∧ beField (dgram 0x10 (cmdItems 8)) 16 1 = 8 ∧ (Entry.ofBytes (((dgram 0x10 (cmdItems 0)).drop 20).take 64)).hseq = ((linked []).dev.lastHseq 0 + 1) % 65536
    ∧ (linked []).dev.ringPcie 0 = false ∧ (linked []).dev.ringEn 0 = true ∧ (Entry.ofBytes (((dgram 0x10 (cmdItems 0)).drop 20).take 64)).byte7 = 0
    ∧ (Entry.ofBytes (((dgram 0x10 (cmdItems 0)).drop 20).take 64)).flags / 8 = 0 ∧ (linked []).dev.inflight = [] :=
  by and_intros <;> decide +kernel

theorem wit_BriozLinkActs_open : dgFormatOk (dgram 0x01 (List.replicate 20 0)) = true ∧ (linked []).dev.ks.owner = none ∧ (owned (linked [])).dev.ks.owner = some []
    ∧ (List.range 4).find? (fun j => ((owned (linked [])).dev.sessionAt 0 j).isNone) = some 1
    ∧ (List.range 4).find? (fun j => (({ linked [] with dev := { (linked []).dev with sessions := [0, 1, 2, 3].map (fun j => { aSession with num := j }) } } : State).dev.sessionAt 0 j).isNone) = none :=
  ⟨by decide +kernel, rfl, rfl, by decide, by decide⟩

theorem linked_session (regs : List (Nat × Nat)) : openSessionIs (linked regs).dev 0 0 aSession :=
  ⟨rfl, fun _ hx _ => List.mem_singleton.mp hx⟩

theorem wit_BriozLinkActs_hdata : (linked []).dev.bh.hdata = [(3, 0x03E00000, List.replicate 9 1)] ∧ (linked []).dev.awake = true ∧ aSession.uid = 3
    ∧ inHostRegion 0x03E00000 2 = true ∧ inHostRegion 0x03E00000 (2 ^ 22) = false ∧ (linked []).dev.tab.ueLines = [] := ⟨rfl, by decide, rfl, by decide, by decide, rfl⟩

/-- A record waits on receive ring 0, over Brioz Link; and a completion of ring 0 for the session. -/
def gathered : State :=
  let s := linked [(R.RXP_RXR_CFG 0, 3), (R.TMEM_TELEM_SEQ, 2)]
  { s with dev := { s.dev with rings := ⟨[], [⟨⟨1, 7, 1, 0, 0, 0, []⟩, true, some 3⟩], false, false⟩ :: s.dev.rings.drop 1,
                               rx := { s.dev.rx with rings := ⟨0, [⟨[], [], 1⟩], 0⟩ :: s.dev.rx.rings.drop 1 } } }

theorem wit_BriozLinkActs_timers : aSession.lastRxT + (linked []).dev.get (F.BHL_BRZ_CFG_TIMEOUT_S 0) * 4000 ≤ (linked []).dev.tempo
    ∧ ({ (linked []).dev with tempo := 0 } : Dev).tempo < aSession.lastRxT + (linked []).dev.get (F.BHL_BRZ_CFG_TIMEOUT_S 0) * 4000
    ∧ (linked []).dev.get (F.BHL_BRZ_CFG_TIMEOUT_S 0) * 4000 ≤ 3 * ((linked []).dev.tempo - aSession.lastTxT) :=
  by and_intros <;> decide

theorem wit_BriozLinkActs_gathered : gathered.Inv ∧ gathered.dev.complWaiting 3 = [(0, ⟨⟨1, 7, 1, 0, 0, 0, []⟩, true, some 3⟩)] ∧ (linked []).dev.complWaiting 3 = []
    ∧ gathered.dev.bh.events.filter (fun x => x.1 == 3) = [(3, [1])] ∧ bit aSession.evSub 1 = true ∧ aSession.telemSeq + 2 = gathered.dev.get F.TMEM_TELEM_SEQ_SEQ
    ∧ (gathered.dev.rxRing 0).backlog = [⟨[], [], 1⟩] ∧ gathered.dev.rxPcie 0 = false ∧ gathered.dev.is (F.RXP_RXR_CFG_EN 0) = true
    ∧ gathered.dev.sessions.filter (fun y => bit y.rxSub 0) = [aSession] ∧ gathered.dev.rx.rings.length = 4 ∧ ((linked []).dev.rxRing 0).backlog = [] :=
  ⟨canonical _, by and_intros <;> decide⟩

/-- A staging session of 1,280 bytes is open, with `got` of them received, and a request is being processed. -/
def staging (got type : Nat) (p : List Byte) : State :=
  let s := withFlds (requested type p) [(F.UPD_PROGRESS_RECEIVED, got)]
  { s with dev := { s.dev with fw := { s.dev.fw with session := some 1280 } } }
/-- A request transaction: the operation, then a frame with its CRC. -/
def reqBytes (type : Nat) (p : List Byte) : List Byte :=
  let b := [0x53, 0x51] ++ beBytes 1 type ++ [9] ++ beBytes 2 p.length ++ p
  0xA1 :: b ++ beBytes 4 (crc32 b)
def cmdAsked (en : Nat) (b : List Byte) : State := withFlds (requested 0x10 b) [(F.SVC_CFG_CMD_EN, en)]

theorem wit_ServicePortActs_port : State.reset.dev.svcUp = true ∧ (atPhase .sleep).dev.svcUp = false ∧ State.reset.dev.paused = false
    ∧ svcFrameOk ((reqBytes 0x01 []).drop 1) = true ∧ svcFrameOk [] = false ∧ (reqBytes 0x01 []).headD 0 = 0xA1 ∧ State.reset.dev.fw.request = none
    ∧ svcLenOk 0x01 0 = true ∧ svcLenOk 0x09 0 = false ∧ (atPhase .safe).Inv ∧ (atPhase .safe).dev.svcUp = true ∧ (requested 0x01 []).dev.fw.request ≠ none :=
  ⟨by decide, by decide, by decide, by decide +kernel, by decide, by decide, rfl, by decide, by decide, atPhase_inv _, by decide, by decide⟩

theorem wit_ServicePortActs_repeat : State.reset.dev.fw.latest ≠ some (1, 9, 5)
    ∧ ({ State.reset with dev := { State.reset.dev with fw := { State.reset.dev.fw with latest := some (1, 9, 5), response := some [1, 2] } } } : State).dev.fw.latest = some (1, 9, 5) :=
  ⟨by decide, rfl⟩

/-- What was refused when the request was accepted. -/
def refusing (s : State) (code : Nat) : State := { s with dev := { s.dev with fw := { s.dev.fw with blocked := code } } }

theorem wit_ServicePortActs_staging : stageDataCode (staging 0 0x03 []).dev 1280 0 1 = 0 ∧ stageDataCode (staging 5 0x03 []).dev 1280 0 1 = 0x10
    ∧ updBlock (staging 0 0x03 []).dev = 0 ∧ updBlock (withFlds (staging 0 0x03 []) [(F.UPD_STAT_MOVING, 1)]).dev = 0x0B
    ∧ stageBeginCode (requested 0x02 []).dev 1280 = 0 ∧ stageBeginCode (requested 0x02 []).dev 1279 = 0x01 ∧ stageBeginCode (refusing (staging 0 0x02 []) 0x06).dev 1280 = 0x06
    ∧ requestBlock (staging 0 0x02 []).dev 0x02 = 0x06 ∧ stageDataCode (refusing (staging 0 0x03 []) 0x0B).dev 1280 0 1 = 0x0B := by and_intros <;> decide

theorem staging_inv : (staging 0 0x03 []).Inv := canonical _
theorem wit_ServicePortActs_session : (staging 1280 0x04 []).dev.get F.UPD_PROGRESS_RECEIVED = 1280 ∧ (staging 0 0x04 []).dev.get F.UPD_PROGRESS_RECEIVED ≠ 1280
    ∧ (staging 0 0x04 []).dev.fw.session = some 1280 ∧ (requested 0x04 []).dev.fw.session = none ∧ (staging 0 0x04 []).dev.fw.slots.length = 2 := by and_intros <;> decide

theorem wit_ServicePortActs_asked : asked (staging 0 0x03 [0, 0, 0, 0, 7]).dev 0x03 1 [0, 0, 0, 0, 7] ∧ asked (requested 0x02 (beBytes 4 1280)).dev 0x02 1 (beBytes 4 1280)
    ∧ asked (staging 0 0x05 []).dev 0x05 1 [] ∧ asked (staging 1280 0x04 []).dev 0x04 1 [] := by unfold asked; and_intros <;> decide

theorem wit_ServicePortActs_idle : (0 : Nat) < (staging 0 0 []).dev.fw.sessionT + (staging 0 0 []).dev.get F.UPD_SESSION_CFG_IDLE_S * 4000
    ∧ (withFlds (staging 0 0 []) [(F.UPD_SESSION_CFG_IDLE_S, 0)]).dev.fw.sessionT + (withFlds (staging 0 0 []) [(F.UPD_SESSION_CFG_IDLE_S, 0)]).dev.get F.UPD_SESSION_CFG_IDLE_S * 4000
      ≤ (withFlds (staging 0 0 []) [(F.UPD_SESSION_CFG_IDLE_S, 0)]).dev.tempo := ⟨by decide, by decide⟩

theorem wit_ServicePortActs_cmd : asked (cmdAsked 1 (entryOf 0 []).bytes).dev 0x10 1 (entryOf 0 []).bytes ∧ (cmdAsked 1 (entryOf 0 []).bytes).Inv
    ∧ (cmdAsked 1 []).dev.is F.SVC_CFG_CMD_EN = true ∧ (cmdAsked 0 []).dev.is F.SVC_CFG_CMD_EN = false ∧ (cmdAsked 1 []).dev.fw.svcRan = false ∧ (cmdAsked 1 []).dev.ra.scans = []
    ∧ (Entry.ofBytes (entryOf 0x0802 []).bytes).opcode = 0x0802 ∧ (Entry.ofBytes (entryOf 0x0802 []).bytes).flags = 0 ∧ (Entry.ofBytes (entryOf 0x0802 []).bytes).byte7 = 0
    ∧ (cmdAsked 1 []).dev.tooLate (Entry.ofBytes (entryOf 0 []).bytes) = false ∧ (Entry.ofBytes (entryOf 0xFFFF []).bytes).opcode ∉ opcodes
    ∧ ({ (cmdAsked 1 []).dev with systime := 2 ^ 33 } : Dev).tooLate (Entry.ofBytes { entryOf 0 [] with flags := 2 }.bytes) = true :=
  ⟨⟨rfl, by decide, by decide⟩, canonical _, by decide, by decide, rfl, rfl, by and_intros <;> decide⟩

/-- Slot 1 holds a newer VALID image than the running slot 0, with one handover (`h`) or another. -/
def promotable (h : Nat) (s : State) : State :=
  let x := FwSlot.empty
  { s with dev := { s.dev with fw := { s.dev.fw with slots := [{ x with state := 2 }, { x with state := 2, seq := 1, handover := h }] } } }
/-- A PROMOTE of slot 1 from ring 0, at some point of its way. -/
def promoting (verified at' : Option Nat) (restarted : Bool) (ready : Option Nat) (tempo : Nat) : State :=
  let s := promotable 0 (running (pageOn 0x0C) 0x0800 [])
  { s with dev := { s.dev with tempo := tempo, inflight := s.dev.inflight.map (fun c => { c with ran := true }),
                               fw := { s.dev.fw with promote := some { src := .ring 0 1, slot := 1, verified := verified, pausedAt := at', restarted := restarted, ready := ready, held := none } } } }

theorem wit_PromoteActs_promote : (promotable 0 (running (pageOn 0x0C) 0x0800 [])).Inv ∧ (promotable 0 (running (pageOn 0x0C) 0x0800 [])).dev.cmdFor 0 1 0x0800 = some (entryOf 0x0800 [])
    ∧ promoteCode (promotable 0 (running (pageOn 0x0C) 0x0800 [])).dev true = 0 ∧ (promotable 0 (running (pageOn 0x0C) 0x0800 [])).dev.promoteSlot = some 1
    ∧ promoteCode (promotable 1 (running (pageOn 0x0C) 0x0800 [])).dev true = 0x03 ∧ promoteCounted (promotable 1 State.reset).dev 0x03 = false
    ∧ promoteCode (promoting none none false none 0).dev true = 0x06 ∧ promoteCounted (promoting none none false none 0).dev 0x06 = true
    ∧ (promotable 0 (running (pageOn 0x0C) 0x0800 [])).dev.paused = false
    ∧ (running State.reset 0x0801 []).dev.cmdFor 0 1 0x0801 = some (entryOf 0x0801 []) ∧ (running State.reset 0x0802 []).dev.cmdFor 0 1 0x0802 = some (entryOf 0x0802 []) :=
  ⟨canonical _, by and_intros <;> decide⟩

theorem wit_PromoteActs_svc : asked (promotable 0 (requested 0x06 [])).dev 0x06 1 [] ∧ (promotable 0 (requested 0x06 [])).Inv
    ∧ promoteCode (promotable 0 (requested 0x06 [])).dev false = 0 ∧ (promotable 0 (requested 0x06 [])).dev.promoteSlot = some 1
    ∧ promoteCode (promotable 1 (requested 0x06 [])).dev false = 0x03 ∧ (promotable 0 (requested 0x06 [])).dev.fw.svcRan = false :=
  ⟨⟨rfl, by decide, by decide⟩, canonical _, by decide, by decide, by decide, rfl⟩

theorem wit_PromoteActs_way : (promoting none none false none 0).Inv ∧ ((promoting none none false none 0).dev.cmdOf 0 1).isSome = true
    ∧ (promoting none none false none 0).dev.fw.slots.length = 2 ∧ (promoting (some 0) none false none 1).dev.awake = true ∧ updBlock (promoting (some 0) none false none 1).dev = 0
    ∧ (promoting (some 0) none false none 1).dev.promoteBusy = false ∧ (promoting (some 0) (some 0) false none 6).dev.tempo = 6 ∧ (promoting (some 0) (some 0) false none 6).dev.released = true
    ∧ (promoting (some 0) (some 0) true (some 4) 5).dev.bh.heldDg = [] ∧ (promoting none none false none 0).dev.paused = false
    ∧ ({ promoting (some 0) none false none 1 with dev := { (promoting (some 0) none false none 1).dev with fw := { (promoting (some 0) none false none 1).dev.fw with session := some 0 } } } : State).dev.promoteBusy
      = true ∧ State.reset.dev.fw.promote = none :=
  ⟨canonical _, by and_intros <;> decide⟩

/-! ### Witnesses: the pawn chain -/

/-- Page 0x0E enabled with RETRY_TEMPOS, STALL_S, WINDOW and MAX_RETRIES, a budget of group 0, and image 0 in a state with one block. -/
def pawnRegs (rate : Nat) : List (Nat × Nat) :=
  [(H.ctrl 0x0E, 1), (R.PAWN_CFG, 0x34010002), (R.PAWN_BUDGET 0, rate), (R.PAWN_IMG_BYTES 0, 1)]
def pawned (rate st : Nat) (l : List Chain) : State :=
  let s := withFlds (withRegs (pawnRegs rate)) [(F.PAWN_IMG_STAT_STATE 0, st), (F.PAWN_BUDGET_RATE 0, rate), (F.PAWN_ACTIVE_CHAINS, (l.filter Chain.active).length)]
  { s with dev := { s.dev with pn := { s.dev.pn with chains := l } } }
/-- Chain 0 of image 0, in a state, with its retries and its waits. -/
def chain0 (st retries waited still : Nat) : Chain := ⟨0, 0, [1], [0], st, 0, retries, 4, 1, false, waited, still⟩
/-- Chain 0 waits for its SETUP to be sent. -/
def setup0 : Chain := { chain0 1 0 0 0 with sendSetup := true }
def loadParams : List Byte := [0, 0, 0, 0] ++ beBytes 4 0 ++ beBytes 4 0x03E00000 ++ beBytes 4 1
def sealParams (crc : Nat) : List Byte := [0, 0] ++ beBytes 2 9 ++ beBytes 4 1 ++ beBytes 4 crc
def startParams : List Byte := [0, 0, 4, 1] ++ beBytes 4 0x03E00000 ++ beBytes 4 1
def chainParams (number : Nat) : List Byte := [0, 0] ++ beBytes 2 number ++ beBytes 4 0x03E00000
/-- Node 1 of PAN 0 is in the directory and in the forwarding table of its group, as its own relay, and stands in a target list. -/
def plannable (st relay : Nat) : State :=
  let s := panned 1 0 0 0x0812 startParams
  let k := (bucketEntries 1).headD 0
  let d := (((s.dev.setMem (fwdAddr 1 k) (2 ^ 35 + 2 ^ 10)).setMem (fwdAddr 1 k + 1) (relay * 2 ^ 12)).setMem 0x03E00000 1)
  withFlds { s with dev := ((d.wr (H.ctrl 0x0E) 1).wr (H.ctrl 0x25) 1).wr R.PAWN_CFG 0x34010002 } [(F.PAWN_IMG_STAT_STATE 0, st)]

theorem pawned_inv : (pawned 5 3 [chain0 2 0 2 0]).Inv ∧ (plannable 2 1).Inv ∧ (running (pawned 5 0 []) 0x0810 loadParams).Inv :=
  ⟨canonical _, by refine ⟨?_, ?_, ?_, ?_, ?_⟩ <;> decide +kernel, canonical _⟩

theorem wit_PawnChainActs_load : (running (pawned 5 0 []) 0x0810 loadParams).dev.cmdFor 0 1 0x0810 = some (entryOf 0x0810 loadParams)
    ∧ pawnLoadCode (running (pawned 5 0 []) 0x0810 loadParams).dev (entryOf 0x0810 loadParams) = 0
    ∧ pawnLoadCode (running (pawned 5 2 []) 0x0810 loadParams).dev (entryOf 0x0810 loadParams) = 0x03 :=
  ⟨rfl, by decide, by decide⟩

theorem wit_PawnChainActs_seal : (running (pawned 5 1 []) 0x0811 (sealParams 0xD202EF8D)).dev.cmdFor 0 1 0x0811 = some (entryOf 0x0811 (sealParams 0xD202EF8D))
    ∧ pawnSealCode (running (pawned 5 1 []) 0x0811 (sealParams 0xD202EF8D)).dev (entryOf 0x0811 (sealParams 0xD202EF8D)) = 0
    ∧ pawnSealCode (running (pawned 5 1 []) 0x0811 (sealParams 0)).dev (entryOf 0x0811 (sealParams 0)) = 0x13
    ∧ (running (pawned 5 1 []) 0x0811 (sealParams 0)).dev.pn.crcs.length = 4 :=
  ⟨rfl, by and_intros <;> decide +kernel⟩

theorem wit_PawnChainActs_start : (plannable 2 1).dev.cmdFor 0 1 0x0812 = some (entryOf 0x0812 startParams)
    ∧ pawnStartCode (plannable 2 1).dev (entryOf 0x0812 startParams) = 0 ∧ pawnStartCode (plannable 1 1).dev (entryOf 0x0812 startParams) = 0x03
    ∧ (plannable 2 1).dev.pawnTargets 0 0x03E00000 1 = [1] ∧ ((plannable 2 1).dev.validEntry 1).isSome = true ∧ (plannable 2 1).dev.panGroup 0 = 1
    ∧ (plannable 2 1).dev.planChains 1 4 [1] = [[1]] ∧ (plannable 2 2).dev.planChains 1 4 [1] = [] ∧ (plannable 2 1).dev.pn.pans.length = 4 :=
  ⟨rfl, by and_intros <;> decide +kernel⟩

theorem wit_PawnChainActs_stop : (running (pawned 5 3 [chain0 2 0 0 0]) 0x0813 []).dev.cmdFor 0 1 0x0813 = some (entryOf 0x0813 [])
    ∧ (entryOf 0x0813 []).p1 0 ≤ 3 ∧ (entryOf 0x0813 []).zeroFrom 1 = true ∧ (running (pawned 5 3 [chain0 2 0 0 0]) 0x0813 []).dev.enabled 0x0E = true
    ∧ (running (pawned 5 3 [chain0 2 0 0 0]) 0x0813 []).dev.paused = false ∧ (pawned 5 3 [chain0 2 0 0 0]).dev.imgState 0 = 3
    ∧ ((pawned 5 3 [chain0 2 0 0 0]).dev.pn.chains.map (fun c => (c.image, c.number))).Nodup ∧ (running State.reset 0x0813 []).dev.enabled 0x0E = false
    ∧ (entryOf 0x0813 [4]).p1 0 = 4 :=
  ⟨rfl, by and_intros <;> decide⟩

theorem wit_PawnChainActs_chain : (running (pawned 5 3 [chain0 2 0 0 0]) 0x0814 (chainParams 0)).dev.cmdFor 0 1 0x0814 = some (entryOf 0x0814 (chainParams 0))
    ∧ (pawned 5 3 [chain0 2 0 0 0]).dev.chain 0 ((entryOf 0x0814 (chainParams 0)).p2 2) = some (chain0 2 0 0 0)
    ∧ pawnChainCode (pawned 5 3 [chain0 2 0 0 0]).dev (entryOf 0x0814 (chainParams 0)) (chain0 2 0 0 0).members.length = 0
    ∧ (chain0 2 0 0 0).have_.length = (chain0 2 0 0 0).members.length ∧ (pawned 5 3 []).dev.chain 0 ((entryOf 0x0814 (chainParams 0)).p2 2) = none
    ∧ pawnChainCode State.reset.dev (entryOf 0x0814 (chainParams 0)) 1 = 0x03
    ∧ (running (pawned 5 4 []) 0x0815 []).dev.cmdFor 0 1 0x0815 = some (entryOf 0x0815 []) ∧ (running (pawned 5 4 []) 0x0815 []).dev.enabled 0x0E = true
    ∧ (running (pawned 5 4 []) 0x0815 []).dev.imgState 0 ≠ 3 :=
  by and_intros <;> decide

theorem wit_PawnChainActs_paths : (pawned 0 3 [chain0 0 0 0 0]).dev.enabled 0x0E = true ∧ (pawned 0 3 [chain0 0 0 0 0]).dev.pw.phase = .run
    ∧ (pawned 0 3 [chain0 0 0 0 0]).dev.get F.PAWN_ACTIVE_CHAINS < 64 ∧ (pawned 0 3 [chain0 0 0 0 0]).dev.is F.UPD_STAT_MOVING = false
    ∧ (pawned 0 3 [chain0 0 0 0 0]).dev.pn.chains.find? (fun c => c.state == 0) = some (chain0 0 0 0 0)
    ∧ (pawned 0 3 [chain0 0 0 0 0]).dev.get (F.PAWN_BUDGET_RATE 0) = 0 ∧ (pawned 0 3 [chain0 0 0 0 0]).dev.chainGroupOf (chain0 0 0 0 0) = 0
    ∧ (pawned 5 3 [setup0]).dev.noGrants = false ∧ (pawned 5 3 [setup0]).dev.get (F.PAWN_BUDGET_RATE 0) = 5
    ∧ (0 : Int) ≤ (pawned 5 3 [setup0]).dev.pawnLevel 0 ∧ (pawned 5 3 [setup0]).dev.pawnNext 0 = some setup0 ∧ State.reset.dev.pawnNext 0 = none :=
  ⟨by decide, rfl, by and_intros <;> decide⟩

theorem wit_PawnChainActs_time : (pawned 5 3 [chain0 2 0 2 0]).dev.chain 0 0 = some (chain0 2 0 2 0) ∧ retryDue (pawned 5 3 [chain0 2 0 2 0]).dev (chain0 2 0 2 0) = true
    ∧ retryDue (pawned 5 3 [chain0 2 0 1 0]).dev (chain0 2 0 1 0) = false ∧ (chain0 2 0 2 0).retries + 1 < (pawned 5 3 [chain0 2 0 2 0]).dev.get F.PAWN_CFG_MAX_RETRIES
    ∧ (pawned 5 3 [chain0 2 2 2 0]).dev.get F.PAWN_CFG_MAX_RETRIES ≤ (chain0 2 2 2 0).retries + 1 ∧ retryDue (pawned 5 3 [chain0 2 2 2 0]).dev (chain0 2 2 2 0) = true
    ∧ (pawned 5 3 [chain0 3 0 0 4000]).dev.get F.PAWN_CFG_STALL_S * 4000 ≤ (chain0 3 0 0 4000).still ∧ (chain0 3 0 0 3999).still < (pawned 5 3 [chain0 3 0 0 3999]).dev.get F.PAWN_CFG_STALL_S * 4000
    ∧ (pawned 5 3 [chain0 2 0 2 0]).dev.paused = false ∧ State.reset.dev.chain 0 0 = none :=
  by and_intros <;> decide

/-! ### Cryptographic primitives, by the vectors of their standards -/

/-- The octets that a number spells, n of them. -/
def hexOf (n v : Nat) : List Byte := beBytes n v

/-- FIPS 197, appendix C.1. -/
theorem test_aes : aesEncrypt (octetsOf 16 0x000102030405060708090a0b0c0d0e0f) (octetsOf 16 0x00112233445566778899aabbccddeeff)
    = octetsOf 16 0x69c4e0d86a7b0430d8cdb78070b4c55a := by decide +kernel
/-- RFC 4493, example 1. -/
theorem test_cmac : aesCmac (hexOf 16 0x2b7e151628aed2a6abf7158809cf4f3c) [] = hexOf 16 0xbb1d6929e95937287fa37d129b756746 := by decide +kernel
/-- RFC 3394, section 4.1. -/
theorem test_key_unwrap : keyUnwrap (hexOf 16 0x000102030405060708090A0B0C0D0E0F) (hexOf 24 0x1FA68B0A8112B447AEF34BD8FB5A7B829D3E862371D2CFE5)
      = some (hexOf 16 0x00112233445566778899AABBCCDDEEFF) := by decide +kernel
/-- IEEE 802.15.4, the MAC command of annex C. -/
theorem test_ccm : ccmSeal (hexOf 16 0xc0c1c2c3c4c5c6c7c8c9cacbcccdcecf) (hexOf 13 0xacde4800000000010000000506) 6
      (hexOf 29 0x2bdc842143020000000048deacffff010000000048deac060500000001) [0xce] = hexOf 9 0xd84fde529061f9c6f1 := by decide +kernel
/-- FIPS 180-4, the one-block message. -/
theorem test_sha : sha256 [0x61, 0x62, 0x63] = hexOf 32 0xba7816bf8f01cfea414140de5dae2223b00361a396177a9cb410ff61f20015ad := by decide +kernel
/-- RFC 6979, A.2.5, the message "sample" under SHA-256. -/
theorem test_ecdsa : ecdsaOk (0x60FED4BA255A9D31C961EB74C6356D68C049B8923B61FA6CE669622E60F29FB6, 0x7903FE1008B8BC99A41AE9E95628BC64F2F1B20C2D7E9F5177A3C294D4462299)
    (hexOf 32 0xAF2BDBE1AA9B6EC1E2ADE1D694F41FC71A831D0268E9891562113D8A62ADD1BF) (hexOf 32 0xEFD48B2AACB6A8FD1140DD9CD45E81D69D2C877B56AAF991C34D0EA84EAF3716)
    (hexOf 32 0xF7CB1C942D657C41D436C7A1B6E29F65F3E900DBB9AFF4064DC4AB2F843ACDA8) = true := by decide +kernel

/-- An IPv6 packet of 40 + 8 + 2 octets to a mesh address, UDP with a checksum, or another next header and hop limit. -/
def ipOctets (next hops src dst : Nat) : List Byte :=
  beBytes 4 0x60000000 ++ beBytes 2 10 ++ beBytes 1 next ++ beBytes 1 hops ++ beBytes 16 src ++ beBytes 16 dst ++ (beBytes 2 0xF0B1 ++ beBytes 2 0xF0B2 ++ beBytes 2 10 ++ beBytes 2 0xABCD ++ [1, 2])

/-- What the device compresses, it opens again (R440); a mesh address of the node takes no octet of the packet (RFC 6282). -/
theorem test_compress : ∀ b ∈ [ipOctets 17 64 (2 ^ 127 + 5) (0x20010DB8 * 2 ^ 96 + 0xFFFE000001), ipOctets 58 3 (0xFE80 * 2 ^ 112 + 0xFFFE000000) (0xFF02 * 2 ^ 112 + 1)],
    lowHead (0x20010DB8 * 2 ^ 32) (.short 0) (.short 1) (compress (0x20010DB8 * 2 ^ 32) 1 b) 0 = .ok b false := by decide +kernel
theorem test_compress_short : (compress (0x20010DB8 * 2 ^ 32) 1 (ipOctets 17 64 (0xFE80 * 2 ^ 112 + 0xFFFE000000) (0x20010DB8 * 2 ^ 96 + 0xFFFE000001))).length = 2 + 4 + 2 := by decide +kernel

/-! ### Witnesses: further clauses -/

theorem wit_TriggersResign_waking : (inTransition .sleep .waking 2 0).dev.pw.phase = .sleep ∧ (inTransition .sleep .waking 2 0).dev.pw.trans = .waking := ⟨rfl, rfl⟩

theorem wit_IdleStep_granted : ∀ r ∈ State.reset.dev.bg.granted, r = 0 := by decide

/-- Slot 5 in MRAM: its two copies, and a device key that wraps the key of RFC 3394. -/
def aCopy (gen : Nat) : SlotCopy :=
  let c := { SlotCopy.fresh with gen := gen, state := 1, type := 2, levels := 0x20, index := 1, wrapped := hexOf 24 0x1FA68B0A8112B447AEF34BD8FB5A7B829D3E862371D2CFE5 }
  { c with crc := crc32 c.body }
def inMram (x y : SlotCopy) (key : Option (List Byte)) : State :=
  { atPhase .load with dev := { (atPhase .load).dev with ks := { (atPhase .load).dev.ks with copies := [(5, x, y)], deviceKey := key } } }
def kek : List Byte := hexOf 16 0x000102030405060708090A0B0C0D0E0F

theorem wit_PowerUpPhasesAdvance_copies : (inMram (aCopy 1) (aCopy 2) (some kek)).Inv ∧ (inMram (aCopy 1) (aCopy 2) (some kek)).dev.pw.eraseMark = false
    ∧ newerCopy (aCopy 1) (aCopy 2) = some true ∧ newerCopy (aCopy 2) (aCopy 1) = some false ∧ (aCopy 255).valid = true ∧ newerCopy (aCopy 255) (aCopy 0) = some true
    ∧ (inMram (aCopy 1) SlotCopy.fresh none).dev.ks.deviceKey = none ∧ (aCopy 1).state ≠ 0
    ∧ keyUnwrap ((inMram (aCopy 1) (aCopy 2) (some kek)).dev.ks.deviceKey.getD []) (aCopy 1).wrapped = some (hexOf 16 0x00112233445566778899AABBCCDDEEFF) :=
  ⟨canonical _, rfl, by decide +kernel, by decide +kernel, by decide +kernel, by decide +kernel, rfl, by decide +kernel, test_key_unwrap⟩

theorem wit_PowerUpPhasesAdvance_lanes : (atPhase .laneStart).dev.live ≠ [] ∧ (atPhase .laneStart).dev.ln.dry = none ∧ (atPhase .laneStart).dev.ln.issued.length = 5
    ∧ (atPhase .laneStart).dev.ln.mem[3]?.isSome = true ∧ (atPhase .copy).dev.paused = false := by decide

theorem wit_BankChargedRaisesPwrGood_rails :
    ({ atPhase .rails with dev := { (atPhase .rails).dev with pw := { (atPhase .rails).dev.pw with vout3v3 := true } } } : State).dev.pw.vout3v3 = true
    ∧ ({ atPhase .rails with dev := { (atPhase .rails).dev with pw := { (atPhase .rails).dev.pw with vout3v3 := true } } } : State).dev.pw.phase = .rails := ⟨rfl, rfl⟩

theorem wit_WakeSourcesWake_timer : asleepArmed.dev.getPair F.PWR_WAKE_TIMER_LO_TICKS F.PWR_WAKE_TIMER_HI_TICKS = 9 ∧ asleepArmed.dev.pw.aonSlept ≤ 9 := by decide

/-- A ring that failed while it drained keeps FAULT with EN 0. -/
theorem wit_RingsAct_fault : (withFlds ringOn [(F.HOST_RING_STAT_FAULT 0, 1), (F.HOST_RING_CFG_EN 0, 0)]).dev.is (F.HOST_RING_STAT_FAULT 0) = true
    ∧ waitingOne.dev.is F.PCIE_LINK_UP = true ∧ resyncing.dev.is F.PCIE_LINK_UP = true ∧ ringOn.dev.ringPcie 0 = true ∧ ringOn.dev.ringEn 0 = true
    ∧ (ringOn.dev.begun 0 1).lateCode (entryOf 0x0320 []) ≠ 0 := by and_intros <;> decide +kernel

/-- BAR2 at a word of table memory; a frame-store cell is filled, and a word of one that is not. -/
theorem wit_TableMemoryActs_store : scrubLast.dev.is F.DIR_TCLEAR_ACTIVE = false ∧ (scrubLast.dev.barWord 8 % 2 ^ 26 < 0x02800000)
    ∧ (withFlds hosted [(F.HOST_WIN_BASE_BASE, 40)]).dev.barWord 0 % 2 ^ 26 = 0x02800000
    ∧ (withFlds hosted [(F.HOST_WIN_BASE_BASE, 40)]).dev.lineBad (0x02800000 / 4) = false
    ∧ (∀ x ∈ (withFlds hosted [(F.HOST_WIN_BASE_BASE, 40)]).dev.tab.store.cells, x.1 ≠ (0x02800000 - 0x02800000) / 64) := by and_intros <;> decide

/-- A timing clear stands at an entry, BAR2 shows the timing words, and the device is paused or not. -/
def clearing (pause : Nat) : State := withFlds hosted [(F.DIR_TCLEAR_ACTIVE, 1), (F.DIR_TCLEAR_NEXT, 5), (F.HOST_WIN_BASE_BASE, 28), (F.UPD_STAT_PAUSE, pause)]

theorem wit_TableMemoryActs_cleared : (clearing 0).Inv ∧ (clearing 0).dev.hostOpen = true ∧ (clearing 0).dev.is F.DIR_TCLEAR_ACTIVE = true
    ∧ (clearing 0).dev.get F.DIR_TCLEAR_NEXT ≤ 5 ∧ (clearing 0).dev.barWord 88 % 2 ^ 26 = timingAddr 5 + 1 ∧ (clearing 0).dev.lineBad ((timingAddr 5 + 1) / 4) = false
    ∧ (clearing 0).dev.paused = false ∧ (clearing 1).dev.paused = true ∧ (clearing 1).dev.hostOpen = true
    ∧ inHostRegion ((withFlds (clearing 1) [(F.HOST_WIN_BASE_BASE, 63)]).dev.barWord 0 % 2 ^ 26) 1 = true :=
  ⟨canonical _, by and_intros <;> decide⟩

/-- The tempo's 2,048 records have been processed; or all but one. -/
def loadedThisTempo (n : Nat) : State := { loadingDir with dev := { loadingDir.dev with tab := { loadingDir.dev.tab with loadT := loadingDir.dev.tempo + 1, loadN := n } } }

theorem wit_DirectoryActs_left : (loadedThisTempo 2048).dev.loadLeft = 0 ∧ (loadedThisTempo 2047).dev.loadLeft = 1 ∧ loadingDir.dev.loadLeft = 2048 ∧ 0 + 2048 < 2049
    ∧ ({ loadingDir with dev := { loadingDir.dev with tab := { loadingDir.dev.tab with loads := [⟨.ring 0 1, 0x03E00000, 2048, 0, 0, 0, 0, 0, 0⟩] } } } : State).dev.tab.loads ≠ [] := by
  decide

theorem wit_LanesAct_half : (rolesAre 0 0 0 1).dev.role 3 ≠ 0 ∧ (rolesAre 0 0 0 1).dev.role 0 = 0 ∧ 2 ≤ (rolesAre 0 0 0 1).dev.live.length
    ∧ admittingLane.dev.ln.copy = some (2, 0) ∧ admittingLane.dev.ln.mem[0]?.isSome = true := by and_intros <;> decide

/-- A command in a slot whose delay line is to fill, now or later; and an acknowledgment that waits for its instant. -/
def slotAt (planned : Nat) : Tx := { rawAt .slot with filling := false, planned := planned }

theorem wit_RadioPortsAct_fill : (carrying txRegs (slotAt 0)).dev.slotTx 8 = some (slotAt 0) ∧ (slotAt 0).planned ≤ (carrying txRegs (slotAt 0)).dev.monoUs + phyDelayLine 0x10
    ∧ (carrying txRegs (slotAt 0)).dev.tx 1 = some (slotAt 0) ∧ (carrying txRegs (slotAt 5000)).dev.fillDue (slotAt 5000) = false
    ∧ (carrying txRegs (slotAt 5000)).dev.slotTx 8 = some (slotAt 5000) ∧ (carrying txRegs (slotAt 5000)).dev.fixedUnfilled 8 = none
    ∧ (carrying txRegs { fixedAt .ack with filling := false }).dev.fixedUnfilled 8 = some { fixedAt .ack with filling := false }
    ∧ (carrying txRegs { fixedAt .ack with filling := false }).dev.tx 1 = some { fixedAt .ack with filling := false } := by and_intros <;> decide

/-- The slot of 433 MHz asks for listen-before-talk. -/
def lbtVaulted (s : State) : State :=
  { s with dev := { s.dev with ra := { s.dev.ra with vault := { s.dev.ra.vault with words := s.dev.ra.vault.words.map (fun x => if x.1 = 1 then (1, 0xE0010078) else x) } } } }
def sensing (t : Tx) : State := lbtVaulted (onChannel txRegs t)
def onePower (x : Option Int) : List (Option Int) := [x]

theorem wit_RadioPortsAct_lbt : ((sensing (rawAt .slot)).dev.slotInForce 0).map (fun r => r.lbtEn) = some true ∧ (rawAt .slot).kind ≠ .ack
    ∧ ((sensing (rawAt .slot)).dev.slotInForce 0).map (fun r => (sensing (rawAt .slot)).dev.airBusy (rawAt .slot) r (onePower (some 400))) = some true
    ∧ ((sensing (rawAt .slot)).dev.slotInForce 0).map (fun r => (sensing (rawAt .slot)).dev.airBusy (rawAt .slot) r (onePower none)) = some true
    ∧ ((sensing (rawAt .slot)).dev.slotInForce 0).map (fun r => (sensing (rawAt .slot)).dev.airBusy (rawAt .slot) r (onePower (some (-400)))) = some false
    ∧ (rawAt .slot).nb + 1 ≤ (sensing (rawAt .slot)).dev.get (F.MAC_LBT_MAX_BACKOFFS 1)
    ∧ ((sensing { rawAt .backoff with nb := 1 }).dev.slotInForce 0).map (fun r => r.lbtEn) = some true
    ∧ ((sensing { rawAt .backoff with nb := 1 }).dev.slotInForce 0).map (fun r => (sensing (rawAt .slot)).dev.airBusy (rawAt .slot) r (onePower (some 400))) = some true
    ∧ (sensing { rawAt .backoff with nb := 1 }).dev.tunedFor { rawAt .backoff with nb := 1 } = true := by and_intros <;> decide +kernel

/-- A swap of chain 0 is due in group 1, while the lanes run or PROMOTE has stopped them. -/
def swapping (pause : Nat) : State := withFlds (calibrating 1 0 0 { CalGroup.reset with settled := true }) [(F.UPD_STAT_PAUSE, pause)]

theorem wit_VaultAndCalibrationAct_swap : (swapping 0).Inv ∧ (swapping 0).dev.calChain 1 = 0 ∧ (swapping 0).dev.swapPoint 1 8 = true ∧ lanesVote (swapping 0).dev
    ∧ (swapping 1).dev.lanesRun = false ∧ (swapping 1).dev.paused = true ∧ (swapping 1).dev.swapPoint 1 8 = true ∧ 8 * 1 + 0 < (swapping 0).dev.ra.gapEnd.length
    ∧ (calibrating 1 0 0 CalGroup.reset).dev.swapPoint 1 8 = false
    ∧ ({ (calibrating 1 0 0 CalGroup.reset).dev with tm := { (calibrating 1 0 0 CalGroup.reset).dev.tm with halted := true } } : Dev).lanesRun = false :=
  ⟨canonical _, by decide, by decide, ⟨by decide, by decide, by decide⟩, by and_intros <;> decide⟩

/-- Calibration holds its guaranteed slice, with a step of chain 0 ready in group 1, at one item or another. -/
def stepReady (left : Nat) : State :=
  let s := withFlds (calibrating 2 0 left CalGroup.reset) [(F.SYS_BG_STAT_GUARANTEED 0, 1)]
  { s with dev := { s.dev.setChainState 1 0 5 with bg := { s.dev.bg with granted := [0] } } }

theorem wit_BoundaryAndTrafficAct_calibration : (stepReady 28).Inv ∧ (stepReady 28).dev.calCan 1 = true ∧ (stepReady 28).dev.holdsSlice 0 = true
    ∧ (stepReady 28).dev.cal.length = 4 ∧ (∀ g : Fin 4, (stepReady 28).dev.calCan g = true → ((stepReady 28).dev.calg g).again = false ∧ ((stepReady 28).dev.calg g).load = 0)
    ∧ (stepReady 28).dev.bg.granted.contains 0 = true ∧ (stepReady 28).dev.awake = true ∧ (stepReady 28).dev.paused = false ∧ (stepReady 28).dev.calItem 1 < 4
    ∧ 4 ≤ (stepReady 1).dev.calItem 1 ∧ (stepReady 1).dev.calCan 1 = true ∧ (∀ g : Fin 4, State.reset.dev.calCan g = false) ∧ (stepReady 28).dev.calCan 0 = false
    ∧ State.reset.dev.bg.granted.contains 0 = false :=
  ⟨canonical _, by and_intros <;> decide⟩

theorem wit_VaultAndCalibrationAct_unheld : (calibrating 2 0 28 CalGroup.reset).dev.heldList .budgetHeld = [] := by decide

theorem wit_ReceptionActs_lost : (ctxAt 1 8 0 none false).members.all (fun m => (receiving [] []).dev.portBlanked m.1 || !(receiving [] []).dev.inService m.1
      || { ctxAt 1 8 0 none false with lost := [8] }.lost.contains m.1) = true
    ∧ { MacFrame.blank with ftype := 2, sec := some ⟨5, 0, 0, 0, 0⟩ }.sec ≠ none := by decide

/-- Node 1's window of a frame in a new round comes up, with duty and occupancy for it. -/
theorem wit_MediumAccessActs_round : ((noded (dataAt .newRound) 0xC0).dev.pickWindow (dataAt .newRound) 1 ((noded (dataAt .newRound) 0xC0).dev.windowNow (dataAt .newRound) 1 + 1)).isSome = true
    ∧ (noded (dataAt .newRound) 0xC0).dev.validEntry 1 = some 1
    ∧ ((noded (dataAt .newRound) 0xC0).dev.pickWindow (dataAt .newRound) 1 ((noded (dataAt .newRound) 0xC0).dev.windowNow (dataAt .newRound) 1 + 1)).any (fun w =>
        let t1 := { dataAt .newRound with planned := w.planned, window := w.k, preamble := w.preamble, anchor := w.anchor, stage := .step4 }
        let d := (noded (dataAt .newRound) 0xC0).dev
        let t := { t1 with airtime := d.predictUs t1 }
        decide (d.ra.vault.inForce = some 0 ∧ d.slotFor t.group t.freq = some 0
          ∧ d.dutyHour 0 + d.dutyReserved 0 t.id + t.airtime + d.get (F.MAC_DUTY_CFG_ACK_RESERVE t.group) * 360000 ≤ (d.slotRec 0 0).budgetUs
          ∧ (d.occCheck (d.slotRec 0 0) 0 (((d.slotRec 0 0).channel t.freq).getD 64) t.planned t.airtime t.id).1 = true)) = true := by and_intros <;> decide +kernel

/-- An acknowledgment of a frame stands in its pipeline. -/
def acked : State :=
  let t := { dataAt .ackWait with frame := some MacFrame.blank }
  let s := carrying txRegs t
  { s with dev := { s.dev with rx := { s.dev.rx with queues := [[], [{ uplinkFrom with freq := 433150000, frame := { MacFrame.blank with ftype := 2 } }], [], []] } } }

theorem wit_MediumAccessActs_queued : acked.dev.ackQueued { dataAt .ackWait with frame := some MacFrame.blank } = true ∧ (carrying txRegs (dataAt .ackWait)).dev.ackQueued (dataAt .ackWait) = false
    ∧ acked.dev.tx 1 = some { dataAt .ackWait with frame := some MacFrame.blank }
    ∧ ({ (carrying txRegs (fixedAt .ack)).dev with tm := { (carrying txRegs (fixedAt .ack)).dev.tm with halted := true } } : Dev).lanesRun = false := by and_intros <;> decide

theorem wit_KeyStoreActs_again : (keyed false false 0 []).dev.keySlot 5 = some (aKey false false) ∧ (aKey false false).reserving = false ∧ (aKey true true).failed = true
    ∧ (aKey true false).failed = false ∧ (∀ t ∈ (keyed false false 0 []).dev.ra.txs, t.stage = .fcntWait → t.key ≠ some 5) := by and_intros <;> decide

theorem wit_BackhaulAndTimeAct_mode : backhauled.dev.bh.mode.length = 2 ∧ (withFlds backhauled [(F.BHL_LINK_UP 0, 0)]).dev.is (F.BHL_LINK_UP 0) = false
    ∧ routed.dev.fitsFrame 0 1505 = false ∧ routed.dev.fitsFrame 0 1504 = true ∧ routed.dev.fitsFrame 0 (toNode 0xFFFE000001 4).bytes.length = true ∧ udpMost < 1453 := by
  and_intros <;> decide +kernel

theorem wit_BackhaulAndTimeAct_exchange : mastered.dev.get F.PTP_CFG_PORT = 0 ∧ mastered.dev.portHears 0 = true ∧ mastered.dev.vlanOk 0 none = true ∧ mastered.dev.vlanOk 0 (some 5) = false
    ∧ mastered.dev.bh.chosen.isSome = true ∧ backhauled.dev.bh.chosen = none ∧ State.reset.dev.portHears 0 = false
    ∧ mastered.dev.ptpMine 0 0 (mastered.dev.is F.PTP_CFG_TRANSPORT) = true
    ∧ (⟨none, false, 1000, 10, 0, 1000, 10, 0⟩ : PtpExchange).offset.natAbs ≤ 1000000 ∧ 1000000 < (⟨none, false, 2 ^ 70, 0, 0, 0, 0, 0⟩ : PtpExchange).offset.natAbs := by
  and_intros <;> decide +kernel

theorem wit_BackhaulAndTimeAct_pps : (∀ (k : Fin 16) (c : Fin 4), State.reset.dev.captures k c 4 true = false)
    ∧ (withRegs [(R.TIM_CH_CFG 0, 0x31)]).dev.captures 0 0 4 true = true := by and_intros <;> decide +kernel

/-- The ring's last two lines hold records. -/
def telemetered : State := { gathered with dev := (gathered.dev.setMem (telemAddr (2 ^ 20 - 2)) 1).setMem (telemAddr (2 ^ 20 - 1)) 1 }

theorem wit_BriozLinkActs_telem : telemetered.dev.get F.TMEM_TELEM_WR_LINE = 0 ∧ telemetered.dev.get F.TMEM_TELEM_SEQ_SEQ = 2
    ∧ (∀ i : Fin 2, (List.range 4).any (fun j => telemetered.dev.mem (telemAddr ((telemetered.dev.get F.TMEM_TELEM_WR_LINE + 2 ^ 20 - 2 + i) % 2 ^ 20) + j) != 0) = true)
    ∧ telemetered.dev.sessions = [aSession] := by and_intros <;> decide +kernel

theorem wit_ServicePortActs_selftest : asked (requested 0x08 []).dev 0x08 1 [] := by unfold asked; and_intros <;> decide

/-- MOTION has fallen, with the hold still to run or past. -/
def stilled (tempo : Nat) : State := { State.reset with dev := { State.reset.dev with tempo := tempo, pins := { State.reset.dev.pins with motion := false, moved := true, motionT := 0 } } }

theorem wit_ServicePortActs_motion : (stilled 0).Inv ∧ (stilled 0).dev.pins.motion = false ∧ 0 < (stilled 0).dev.pins.motionT + (stilled 0).dev.get F.UPD_MOTION_CFG_HOLD_S * 4000
    ∧ (stilled 100000000).dev.pins.motionT + (stilled 100000000).dev.get F.UPD_MOTION_CFG_HOLD_S * 4000 ≤ (stilled 100000000).dev.tempo
    ∧ ({ (stilled 0).dev.pins with motion := true } : Pins).motion = true ∧ (refusing (requested 0x02 []) 0x06).dev.fw.blocked ∈ [0, 0x06] ∧ (refusing (requested 0x02 []) 0x0B).dev.fw.blocked ∈ refusals
    ∧ (requested 0x06 []).dev.fw.blocked = requestBlock (requested 0x06 []).dev 6 ∧ (requested 0x03 []).dev.fw.session = none :=
  ⟨canonical _, by and_intros <;> decide⟩

theorem wit_PromoteActs_ways : (promoting (some 0) none false none 1).dev.cycle = 0 ∧ (0 : Nat) < (promoting (some 0) none false none 1).dev.tempo
    ∧ (promoting (some 0) (some 0) true (some 4) 5).dev.fw.request = none ∧ (4 : Nat) < (promoting (some 0) (some 0) true (some 4) 5).dev.tempo
    ∧ (promoting (some 0) (some 0) true (some 4) 5).dev.cycle = 0 ∧ (promoting (some 0) (some 0) false none 6).dev.ln.mem[0]?.isSome = true
    ∧ (promoting (some 0) (some 0) false none 6).dev.role 0 = 0 := by and_intros <;> decide

end Sys2Proof.Tests
end

section
/-! SUPPORT and the proof of O16: the codes a register write can be refused with, what a rejection leaves in the error record of its page,
and what a refused write leaves as it was. -/

namespace Sys2Proof.Machine

/-! ### The code of a refused write fits the CODE field (R24, R142) -/

/-- Every condition of the list reports a code that the 8 bits of CODE hold. -/
def CodesFit (l : List (Bool × Nat)) : Prop := ∀ x ∈ l, x.2 < 2 ^ 8

@[simp] theorem codesFit_nil : CodesFit [] := by simp [CodesFit]

@[simp] theorem codesFit_cons (x : Bool × Nat) (l : List (Bool × Nat)) : CodesFit (x :: l) ↔ x.2 < 2 ^ 8 ∧ CodesFit l :=
  List.forall_mem_cons

@[simp] theorem codesFit_append (l m : List (Bool × Nat)) : CodesFit (l ++ m) ↔ CodesFit l ∧ CodesFit m :=
  List.forall_mem_append

@[simp] theorem codesFit_ite (c : Prop) [Decidable c] (l m : List (Bool × Nat)) :
    CodesFit (if c then l else m) ↔ if c then CodesFit l else CodesFit m := apply_ite CodesFit c l m ▸ Iff.rfl

/-- The one code reported is 0 or a code of the list. -/
theorem oneCode_lt {l : List (Bool × Nat)} (h : CodesFit l) : oneCode l < 2 ^ 8 := by
  refine List.foldlRecOn (motive := fun best => best < 2 ^ 8) l _ (by decide) (fun best hb x hx => ?_)
  split
  · exact h x hx
  · exact hb

theorem Dev.listenConds_fit (d : Dev) : CodesFit d.listenConds := by simp [Dev.listenConds]

theorem Dev.panConds_fit (d : Dev) (g : Nat) : CodesFit (d.panConds g) := by simp [Dev.panConds]

theorem Dev.setConds_fit (d : Dev) : CodesFit d.setConds := by simp [Dev.setConds]

theorem Dev.hostConds_fit (d : Dev) (off data : Nat) : CodesFit (d.hostConds off data) := by
  unfold Dev.hostConds
  split
  · simp
  · dsimp only
    split <;> simp

theorem Dev.timConds_fit (d : Dev) (off data : Nat) : CodesFit (d.timConds off data) := by simp [Dev.timConds]

theorem Dev.rxpConds_fit (d : Dev) (off data : Nat) : CodesFit (d.rxpConds off data) := by
  unfold Dev.rxpConds
  split
  · simp
  split
  · simp [Dev.listenConds_fit]
  split
  · dsimp only
    split <;> simp
  · simp

theorem Dev.pageConds_fit (d : Dev) (p off data : Nat) : CodesFit (d.pageConds p off data) := by
  unfold Dev.pageConds
  split
  -- TXP and the MAC pages match on the offset again.
  case h_9 => split <;> simp [Dev.setConds_fit]
  case h_10 | h_11 | h_12 | h_13 => split <;> simp [Dev.panConds_fit]
  all_goals simp [Dev.hostConds_fit, Dev.timConds_fit, Dev.rxpConds_fit, Dev.panSecConds, Dev.deferredConds]

theorem Dev.headerConds_fit (d : Dev) (p off data : Nat) : CodesFit (d.headerConds p off data) := by
  simp [Dev.headerConds, Dev.ctrlConds]

/-- The code of a register write fits CODE of the error record. -/
theorem Dev.writeCode_lt (d : Dev) (a data : Nat) (whole : Bool) : d.writeCode a data whole < 2 ^ 8 := by
  refine oneCode_lt ?_
  rw [codesFit_append]
  refine ⟨by simp, ?_⟩
  split -- an unassigned page
  · simp
  split -- the page's header
  · exact d.headerConds_fit _ _ _
  split -- the MSI-X table and its pending bits
  · simp
  split -- no register, or one of the field table
  · simp
  · simp [Dev.fieldConds, Dev.pageConds_fit]

/-! ### What a rejection leaves in the error record (R135, R142) -/

theorem pageAssigned_lt {p : Nat} (h : pageAssigned p = true) : p < 0x35 := by
  simp [pageAssigned] at h
  omega

/-- The page whose error record takes the rejection of a write to page q (R52). -/
theorem pageAssigned_recordPage (q : Nat) : pageAssigned (if pageAssigned q then q else 0) = true := by
  split
  · assumption
  · decide

theorem keyPage_header {p o : Nat} (hp : p < 0x100) (ho : o < 0x1000) : keyPage (p * 0x1000 + o) = p := by
  unfold keyPage keyAddr
  omega

/-- The error record written, and REG_REJECT not raised yet. -/
def Dev.recorded (d : Dev) (p code addr data : Nat) : Dev :=
  ((((d.bump (H.errCount p) 1).put (H.errMore p) (b2n (d.get (H.errCode p) != 0))).put (H.errCode p) code).put
    (H.errAddr p) addr).put (H.errData p) data

theorem Dev.reject_eq (d : Dev) (p code addr data : Nat) : d.reject p code addr data = (d.recorded p code addr data).raise p 31 := rfl

/-- A field put in a register of `ks` keeps the canonical form, and that only `ks` changed. -/
theorem Dev.put_keeps {d e : Dev} {ks : List Nat} (he : e.Canon ∧ d.OnlyRegs ks e) {f : Fld} (n : Nat) (hf : f.addr ∈ ks) :
    (e.put f n).Canon ∧ d.OnlyRegs ks (e.put f n) :=
  ⟨Dev.put_canon _ _ _ he.1, he.2.trans (Dev.put_only e he.1 f n ks hf)⟩

theorem Dev.recorded_keeps {d : Dev} (h : d.Canon) (p code addr data : Nat) :
    (d.recorded p code addr data).Canon ∧ d.OnlyRegs (errKeys p) (d.recorded p code addr data) := by
  have word : p * 0x1000 + 0x01C ∈ errKeys p := by simp [errKeys]
  have count := Dev.put_keeps ⟨h, .refl (errKeys p) d⟩ (f := H.errCount p) (min (d.get (H.errCount p) + 1) (H.errCount p).top) word
  have more := Dev.put_keeps count (f := H.errMore p) (b2n (d.get (H.errCode p) != 0)) word
  have code' := Dev.put_keeps more (f := H.errCode p) code word
  have addr' := Dev.put_keeps code' (f := H.errAddr p) addr (by simp [errKeys, H.errAddr])
  exact Dev.put_keeps addr' data (by simp [errKeys, H.errData])

/-- The PROMOTE pause is no part of an error record. -/
theorem Dev.paused_recorded {d : Dev} (h : d.Canon) (p code addr data : Nat) : (d.recorded p code addr data).paused = d.paused :=
  congrArg (· == 1) ((Dev.recorded_keeps h p code addr data).2.get F.UPD_STAT_PAUSE
    (by simp [F.UPD_STAT_PAUSE, R.UPD_STAT, errKeys]; omega) (by decide))

/-- Each field of the record, to its width: the five fields share no bit. -/
theorem Dev.recorded_fields {d : Dev} (h : d.Canon) (p code addr data : Nat) :
    (d.recorded p code addr data).get (H.errCode p) = code % 2 ^ 8 ∧ (d.recorded p code addr data).get (H.errAddr p) = addr % 2 ^ 26
      ∧ (d.recorded p code addr data).get (H.errData p) = data % 2 ^ 32
      ∧ (d.recorded p code addr data).get (H.errMore p) = b2n (d.get (H.errCode p) != 0) % 2
      ∧ (d.recorded p code addr data).get (H.errCount p) = min (d.get (H.errCount p) + 1) 65535 % 2 ^ 16 := by
  have c1 := Dev.bump_canon d (H.errCount p) 1 h
  have c2 := Dev.put_canon _ (H.errMore p) (b2n (d.get (H.errCode p) != 0)) c1
  have c3 := Dev.put_canon _ (H.errCode p) code c2
  have c4 := Dev.put_canon _ (H.errAddr p) addr c3
  unfold Dev.recorded
  simp only [Dev.bump, H.errCount, H.errMore, H.errCode, H.errAddr, H.errData, Fld.top, Nat.reduceAdd, Nat.reduceSub, Nat.reducePow] at *
  simp [Dev.get_put, Dev.get_put_other, h, c1, c2, c3, c4]

/-- A field outside IRQ_RAW, of a page other than EVC's, reads after a rejection as the record was written. -/
theorem Dev.get_reject {d : Dev} (h : d.Canon) (p code addr data : Nat) (f : Fld) (hf : f.addr ≠ H.irqRaw p) (h7 : keyPage f.addr ≠ 7) :
    (d.reject p code addr data).get f = (d.recorded p code addr data).get f :=
  (Dev.raise_only _ (Dev.recorded_keeps h ..).1 p 31 [H.irqRaw p] (.head _)).get f (by simpa using hf) h7

/-! ### The source REG_REJECT -/

theorem bit_and (v w i : Nat) : bit (v &&& w) i = (bit v i && bit w i) := by
  simp [bit, beq_eq_decide, ← Nat.testBit_eq_decide_div_mod_eq]

theorem Dev.is_rawBit (d : Dev) (p b : Nat) : d.is (H.rawBit p b) = bit (d.rd (H.irqRaw p)) b := by
  simp [Dev.is, Dev.get, H.rawBit, H.irqRaw, bits, bit]

/-- REJECT of any page feeds REG_REJECT, source 50 (R164). -/
theorem Dev.asserted_regReject {d : Dev} {p : Nat} (hp : pageAssigned p = true) (hr : d.is (H.rawBit p 31) = true)
    (hm : bit (d.rd (H.irqMask p)) 31 = true) : d.asserted 50 = true := by
  have page : p ∈ srcPages 50 := by simp [srcPages, assignedPages, hp, pageAssigned_lt hp]
  have pend : bit (d.pend p) 31 = true := by rw [Dev.pend, bit_and, ← Dev.is_rawBit, hr, hm, Bool.and_self]
  refine List.any_eq_true.2 ⟨p, page, List.any_eq_true.2 ⟨31, by decide, ?_⟩⟩
  rw [pend, Bool.and_true]
  rfl

/-- A rejection outside the PROMOTE pause, in a page other than EVC's: the error record, REJECT, and the source that it asserts where the
page's mask lets it (R142, R164). -/
theorem Dev.reject_records {d : Dev} (h : d.Canon) {p code addr data : Nat} (hp : pageAssigned p = true) (h7 : p ≠ 0x07)
    (hq : d.paused = false) (hc : code < 2 ^ 8) (ha : addr < 2 ^ 26) (hv : data < 2 ^ 32) :
    (d.reject p code addr data).get (H.errCode p) = code ∧ (d.reject p code addr data).get (H.errAddr p) = addr
      ∧ (d.reject p code addr data).get (H.errData p) = data
      ∧ (d.reject p code addr data).is (H.errMore p) = (d.get (H.errCode p) != 0)
      ∧ (d.reject p code addr data).get (H.errCount p) = min (d.get (H.errCount p) + 1) 65535
      ∧ (d.reject p code addr data).is (H.rawBit p 31) = true
      ∧ (bit (d.rd (H.irqMask p)) 31 = true → (d.reject p code addr data).asserted 50 = true) := by
  have hlt : p < 0x100 := (pageAssigned_lt hp).trans (by decide)
  have page : ∀ o < 0x1000, keyPage (p * 0x1000 + o) ≠ 7 := fun o ho => by rwa [keyPage_header hlt ho]
  have field : ∀ f : Fld, ∀ o < 0x1000, f.addr = p * 0x1000 + o → o ≠ 0x010 →
      (d.reject p code addr data).get f = (d.recorded p code addr data).get f := fun f o ho hf hne =>
    Dev.get_reject h p code addr data f (by rw [hf, H.irqRaw]; omega) (hf ▸ page o ho)
  have raised : (d.reject p code addr data).is (H.rawBit p 31) = true :=
    Dev.raise_sets _ (Dev.recorded_keeps h ..).1 p 31 (page 0x010 (by decide)) (by decide) ((Dev.paused_recorded h ..).trans hq)
  have mask : (d.reject p code addr data).rd (H.irqMask p) = d.rd (H.irqMask p) :=
    (Dev.reject_only d h p code addr data (errKeys p) (fun _ hk => hk)).2 _ (by simp [H.irqMask, errKeys]) (page 0x014 (by decide))
  obtain ⟨hcode, haddr, hdata, hmore, hcount⟩ := Dev.recorded_fields h p code addr data
  refine ⟨?_, ?_, ?_, ?_, ?_, raised, fun hm => Dev.asserted_regReject hp raised (mask ▸ hm)⟩
  · rw [field _ 0x01C (by decide) rfl (by decide), hcode, Nat.mod_eq_of_lt hc]
  · rw [field _ 0x020 (by decide) rfl (by decide), haddr, Nat.mod_eq_of_lt ha]
  · rw [field _ 0x024 (by decide) rfl (by decide), hdata, Nat.mod_eq_of_lt hv]
  · rw [Dev.is, field _ 0x01C (by decide) rfl (by decide), hmore]
    cases d.get (H.errCode p) != 0 <;> rfl
  · rw [field _ 0x01C (by decide) rfl (by decide), hcount, Nat.mod_eq_of_lt ((Nat.min_le_right _ _).trans_lt (by decide))]

/-! ### A refused write (R8, R52, R142) -/

/-- The device with the staged half of a NAME_HI register discarded (R8). -/
def Dev.unstaged (d : Dev) (a : Nat) : Dev :=
  { d with staged := if pairHi a then d.staged.filter (fun x => x.1 + 4 != a) else d.staged }

theorem Dev.unstaged_canon {d : Dev} (h : d.Canon) (a : Nat) : (d.unstaged a).Canon := ⟨h.regs, h.cfg, h.mem, h.vault, h.rings⟩

/-- A refused write discards the staged half and is rejected in its page, or in SYS. -/
theorem Dev.refuseWrite_eq (d : Dev) (code a data : Nat) :
    d.refuseWrite code a data = (d.unstaged a).reject (if pageAssigned (a / 0x1000) then a / 0x1000 else 0) code a data := by
  unfold Dev.refuseWrite Dev.unstaged
  cases pairHi a <;> rfl

/-- A write that reaches the device and has a code is refused with it (R141). -/
theorem Dev.hostWrite_refused {d : Dev} {a data : Nat} {whole : Bool} (ho : d.hostOpen = true) (hc : d.writeCode a data whole ≠ 0) :
    d.hostWrite a data whole = d.refuseWrite (d.writeCode a data whole) a data := by
  simp [Dev.hostWrite, Dev.busWrite, ho, hc]

theorem exec_regWriteGeneric (a : BitVec 20) (be : BitVec 4) (data : BitVec 32) (s : State) :
    exec (.regWriteGeneric a be data) s = .next { s with dev := s.dev.hostWrite a.toNat data.toNat (allBytes be) } := rfl

/-- Settles O16: a write with a code is refused, which is a rejection in the page's error record once the staged half is discarded. -/
theorem rejectedWriteIsRecorded : Obligations.RejectedWriteIsRecorded := by
  intro s a be data p hinv hopen hpause hcode hp h7
  have canon := Dev.unstaged_canon hinv a.toNat
  have assigned : pageAssigned p = true := hp ▸ pageAssigned_recordPage _
  have refused : s.dev.hostWrite a.toNat data.toNat (allBytes be) = _ := (Dev.hostWrite_refused hopen hcode).trans (Dev.refuseWrite_eq ..)
  rw [← hp] at refused
  refine ⟨_, (exec_regWriteGeneric a be data s).trans (by rw [refused]), ?_⟩
  obtain ⟨code, addr, word, more, count, raw, source⟩ := Dev.reject_records canon assigned h7 hpause
    (Dev.writeCode_lt s.dev a.toNat data.toNat (allBytes be)) (a.isLt.trans (by decide)) data.isLt
  exact ⟨code, addr, word, more, count, raw, source, Dev.reject_only _ canon _ _ _ _ _ (fun _ hk => hk)⟩

end Sys2Proof.Machine
end

section
/-! SUPPORT and the proof of O17: what a register write of SYSTIME_HI is refused with, what it stores and does where it is accepted, and the
commands that a step of SYSTIME plans again. -/

namespace Sys2Proof.Machine

/-! ### The word and the code of a write of SYSTIME_HI (R141, R473) -/

/-- A row that forces no bits writes its operand. -/
theorem merge32_unforced (v : BitVec 32) : merge32 0 0 (v.toNat ||| 0) = v.toNat := by
  have low : v.toNat &&& (2 ^ 32 - 1) = v.toNat := Nat.and_two_pow_sub_one_of_lt_two_pow v.isLt
  simpa [merge32] using low

theorem exec_systimeWrite (v : BitVec 32) (s : State) :
    exec (.systimeWrite v) s = .next { s with dev := s.dev.hostWrite R.TIM_SYSTIME_HI v.toNat true } := by
  rw [← merge32_unforced v]
  rfl

/-- The row of SYSTIME_HI in the register map: one field of 32 bits that software writes. -/
def systimeHi : RegDesc := { name := "SYSTIME_HI", off := 0x44, fields := [⟨"NS", 31, 0, .rw, 0, 0, 4294967295, false⟩] }

theorem findReg_systimeHi : findReg 0x08 0x044 = some systimeHi := by decide

/-- SYSTIME_HI reserves no bits and takes every value. -/
theorem Dev.fieldConds_systimeHi (d : Dev) (v : BitVec 32) :
    d.fieldConds R.TIM_SYSTIME_HI systimeHi v.toNat = [(false, 0x02), (false, 0x01), (false, 0x04)] := by
  have mask : systimeHi.mask (fun _ => true) = 2 ^ 32 - 1 := by decide
  have fits : bits v.toNat 31 0 ≤ 4294967295 := Nat.le_of_lt_succ (bits_lt v.toNat 31 0)
  unfold Dev.fieldConds
  rw [mask]
  simp [merge32, systimeHi, fits]

/-- A write of SYSTIME is refused only while the servo is locked. -/
theorem Dev.writeCode_systimeHi {d : Dev} (v : BitVec 32) (hr : 0x08 ∉ d.resetting) (hp : d.paused = false) :
    d.writeCode R.TIM_SYSTIME_HI v.toNat true = if d.is F.PTP_SERVO_LOCKED then 0x03 else 0 := by
  have page : R.TIM_SYSTIME_HI / 0x1000 = 0x08 := rfl
  have off : R.TIM_SYSTIME_HI % 0x1000 = 0x044 := rfl
  have running : (d.resetting.contains 0x08 || d.is F.UPD_STAT_PAUSE) = false := by
    rw [Bool.or_eq_false_iff]
    exact ⟨by simpa using hr, hp⟩
  have key : d.shownKey R.TIM_SYSTIME_HI = R.TIM_SYSTIME_HI := rfl
  have row : d.extraReserved 0x08 0x044 v.toNat = false := rfl
  have conds : d.pageConds 0x08 0x044 v.toNat = [(d.is F.PTP_SERVO_LOCKED, 0x03)] := rfl
  unfold Dev.writeCode
  simp only [page, off, running, key, row, conds, findReg_systimeHi, Dev.fieldConds_systimeHi]
  cases d.is F.PTP_SERVO_LOCKED <;> rfl

/-! ### The write accepted (R8, R473) -/

/-- The device with the staged low half of SYSTIME taken from its latch. -/
def Dev.systimeUnlatched (d : Dev) : Dev := { d with staged := d.staged.filter (fun x => x.1 != R.TIM_SYSTIME_LO) }

theorem Dev.systimeUnlatched_canon {d : Dev} (h : d.Canon) : d.systimeUnlatched.Canon := ⟨h.regs, h.cfg, h.mem, h.vault, h.rings⟩

/-- The halves of SYSTIME stored as a pair: the low half from its latch, or as it stands, and the high half written. -/
def Dev.systimeStored (d : Dev) (v : Nat) : Dev :=
  (d.systimeUnlatched.wr R.TIM_SYSTIME_LO (d.stagedLo R.TIM_SYSTIME_LO)).storeReg R.TIM_SYSTIME_HI systimeHi v

/-- SYSTIME set from the halves, which no register stores. -/
def Dev.systimeSet (d : Dev) (v : Nat) : Dev :=
  { ((d.systimeStored v).wr R.TIM_SYSTIME_LO 0).wr R.TIM_SYSTIME_HI 0 with
    systime := ((d.systimeStored v).rd R.TIM_SYSTIME_LO + 2 ^ 32 * v) * 2 ^ 32 }

theorem Dev.acceptWrite_systimeHi (d : Dev) (v : Nat) :
    d.acceptWrite R.TIM_SYSTIME_HI v = (d.systimeSet v).dueMoved.seqInc 0x08 := by
  have page : R.TIM_SYSTIME_HI / 0x1000 = 0x08 := rfl
  have off : R.TIM_SYSTIME_HI % 0x1000 = 0x044 := rfl
  have pair : pairHi R.TIM_SYSTIME_HI = true := rfl
  have unsaved : savedMask R.TIM_SYSTIME_HI = 0 := by decide
  have taken : d.takeWrite R.TIM_SYSTIME_HI systimeHi v = d.systimeStored v := by
    unfold Dev.takeWrite
    rw [if_neg (by decide), if_neg (by decide), if_neg (by decide), if_pos pair]
    exact if_pos unsaved
  unfold Dev.acceptWrite
  simp only [page, off, findReg_systimeHi]
  rw [if_neg (by decide), if_neg (by decide), if_neg (by decide), if_pos (by decide), taken]
  rfl

theorem Dev.rd_systimeStored_low {d : Dev} (h : d.Canon) (v : Nat) :
    (d.systimeStored v).rd R.TIM_SYSTIME_LO = d.stagedLo R.TIM_SYSTIME_LO % 2 ^ 32 := by
  have latch := Dev.systimeUnlatched_canon h
  unfold Dev.systimeStored Dev.storeReg
  rw [Dev.rd_wr _ (Dev.wr_canon _ _ _ latch), if_neg (by decide), Dev.rd_wr _ latch, if_pos rfl]

/-- A register of `ks` written keeps the canonical form, and that only `ks` changed. -/
theorem Dev.wr_keeps {d e : Dev} {ks : List Nat} (he : e.Canon ∧ d.OnlyRegs ks e) {k : Nat} (hk : k ∈ ks) (v : Nat) :
    (e.wr k v).Canon ∧ d.OnlyRegs ks (e.wr k v) :=
  ⟨Dev.wr_canon _ _ _ he.1, he.2.trans (Dev.wr_only e he.1 k v ks hk)⟩

/-- An accepted write of SYSTIME_HI writes no registers but the pair's two and SEQ. -/
theorem Dev.acceptWrite_systimeHi_kept {d : Dev} (h : d.Canon) (v : Nat) :
    d.regsKept [R.TIM_SYSTIME_LO, R.TIM_SYSTIME_HI, H.seq 0x08] (d.acceptWrite R.TIM_SYSTIME_HI v) := by
  rw [Dev.acceptWrite_systimeHi]
  have low := Dev.wr_keeps (ks := [R.TIM_SYSTIME_LO, R.TIM_SYSTIME_HI, H.seq 0x08]) ⟨Dev.systimeUnlatched_canon h, .refl _ _⟩
    (k := R.TIM_SYSTIME_LO) (by simp) (d.stagedLo R.TIM_SYSTIME_LO)
  have stored : (d.systimeStored v).Canon ∧ d.systimeUnlatched.OnlyRegs _ (d.systimeStored v) :=
    Dev.wr_keeps low (k := R.TIM_SYSTIME_HI) (by simp) _
  have cleared := Dev.wr_keeps (Dev.wr_keeps stored (k := R.TIM_SYSTIME_LO) (by simp) 0) (k := R.TIM_SYSTIME_HI) (by simp) 0
  exact (Dev.wr_keeps cleared (k := H.seq 0x08) (by simp) _).2.kept

/-- What an accepted write of SYSTIME_HI may change: registers, the staged half, SYSTIME, and transmissions. -/
theorem Dev.acceptWrite_systimeHi_frame (d : Dev) (v : Nat) :
    d.acceptWrite R.TIM_SYSTIME_HI v = { d.systimeUnlatched with
      regs := (d.acceptWrite R.TIM_SYSTIME_HI v).regs, systime := (d.acceptWrite R.TIM_SYSTIME_HI v).systime,
      ra := (d.acceptWrite R.TIM_SYSTIME_HI v).ra } := by
  rw [Dev.acceptWrite_systimeHi]
  rfl

/-- A step of SYSTIME plans again the commands that wait in a slot for their DUE, and leaves every other transmission (R454). -/
theorem Dev.dueMoved_replanned (d : Dev) : replanned d d.dueMoved := by
  refine ⟨rfl, fun t ht => ⟨fun other => ?_, fun slot untimed due filling => ?_⟩⟩
  · refine List.mem_map.2 ⟨t, ht, if_neg ?_⟩
    rintro ⟨slot, untimed, due⟩
    simp [slot, untimed, due] at other
  · refine List.mem_map.2 ⟨t, ht, ?_⟩
    rw [if_pos ⟨slot, untimed, due⟩, if_pos filling]
    rfl

/-- SYSTIME set to the pair with the staged half `lo`, and the step that this is (R454). -/
theorem Dev.acceptWrite_systimeHi_sets {d : Dev} (h : d.Canon) (v : Nat) {lo : Nat} (hs : d.stagedLo R.TIM_SYSTIME_LO = lo) (hlo : lo < 2 ^ 32) :
    (d.acceptWrite R.TIM_SYSTIME_HI v).systime = (lo + 2 ^ 32 * v) * 2 ^ 32 ∧ replanned d (d.acceptWrite R.TIM_SYSTIME_HI v) := by
  rw [Dev.acceptWrite_systimeHi]
  have low := Dev.rd_systimeStored_low h v
  rw [hs, Nat.mod_eq_of_lt hlo] at low
  have set : (d.systimeSet v).systime = (lo + 2 ^ 32 * v) * 2 ^ 32 := by rw [← low]; rfl
  exact ⟨set, Dev.dueMoved_replanned (d.systimeSet v)⟩

theorem Dev.hostWrite_accepted {d : Dev} {a data : Nat} {whole : Bool} (ho : d.hostOpen = true) (hc : d.writeCode a data whole = 0) :
    d.hostWrite a data whole = d.acceptWrite a data := by
  simp [Dev.hostWrite, Dev.busWrite, ho, hc]

/-! ### The write refused (R142, R473) -/

/-- A write of SYSTIME_HI refused with STATE: the error record of TIM takes it, and SYSTIME and SYNC stay. -/
theorem Dev.refuseWrite_systimeHi {d : Dev} (h : d.Canon) (hp : d.paused = false) (v : BitVec 32) :
    (d.refuseWrite 0x03 R.TIM_SYSTIME_HI v.toNat).systime = d.systime
      ∧ (d.refuseWrite 0x03 R.TIM_SYSTIME_HI v.toNat).get (H.errCode 0x08) = 0x03
      ∧ (d.refuseWrite 0x03 R.TIM_SYSTIME_HI v.toNat).get (H.errAddr 0x08) = R.TIM_SYSTIME_HI
      ∧ (d.refuseWrite 0x03 R.TIM_SYSTIME_HI v.toNat).get (H.errData 0x08) = v.toNat
      ∧ (d.refuseWrite 0x03 R.TIM_SYSTIME_HI v.toNat).is F.TIM_SYSTIME_STAT_SYNC = d.is F.TIM_SYSTIME_STAT_SYNC := by
  have canon := Dev.unstaged_canon h R.TIM_SYSTIME_HI
  have refused : d.refuseWrite 0x03 R.TIM_SYSTIME_HI v.toNat = (d.unstaged R.TIM_SYSTIME_HI).reject 0x08 0x03 R.TIM_SYSTIME_HI v.toNat :=
    Dev.refuseWrite_eq ..
  rw [refused]
  obtain ⟨code, addr, data, -⟩ := Dev.reject_records canon (by decide : pageAssigned 0x08 = true) (by decide) hp
    (by decide : 0x03 < 2 ^ 8) (by decide : R.TIM_SYSTIME_HI < 2 ^ 26) v.isLt
  have only := Dev.reject_only _ canon 0x08 0x03 R.TIM_SYSTIME_HI v.toNat _ (fun _ hk => hk)
  have sync := only.get F.TIM_SYSTIME_STAT_SYNC (by decide) (by decide)
  obtain ⟨⟨r, e, same⟩, -⟩ := only
  exact ⟨by rw [same]; rfl, code, addr, data, congrArg (· == 1) sync⟩

/-- Settles O17: a write of SYSTIME_HI is accepted unless the servo is locked; accepted it sets SYSTIME from the pair and plans the waiting
commands again, refused it is a rejection in TIM's error record. -/
theorem systimeWriteSteps : Obligations.SystimeWriteSteps := by
  intro s v lo hinv hopen hpause hreset
  have code := Dev.writeCode_systimeHi v hreset hpause
  refine ⟨fun unlocked hstaged hlo => ?_, fun locked => ?_⟩
  · rw [if_neg (by simp [unlocked])] at code
    refine ⟨_, (exec_systimeWrite v s).trans (by rw [Dev.hostWrite_accepted hopen code]), ?_⟩
    obtain ⟨set, moved⟩ := Dev.acceptWrite_systimeHi_sets hinv v.toNat hstaged hlo
    have kept := Dev.acceptWrite_systimeHi_kept hinv v.toNat
    have sync : (s.dev.acceptWrite R.TIM_SYSTIME_HI v.toNat).is F.TIM_SYSTIME_STAT_SYNC = s.dev.is F.TIM_SYSTIME_STAT_SYNC :=
      congrArg (fun w => bits w 0 0 == 1) (kept R.TIM_SYSTIME_STAT (by decide) (by decide))
    have frame := Dev.acceptWrite_systimeHi_frame s.dev v.toNat
    exact ⟨set, sync, (congrArg Dev.staged frame :), (congrArg Dev.tempo frame :), moved, (congrArg Dev.tab frame :), (congrArg Dev.ks frame :),
      (congrArg Dev.inflight frame :), kept⟩
  · rw [if_pos locked] at code
    refine ⟨_, (exec_systimeWrite v s).trans (by rw [Dev.hostWrite_refused hopen (by rw [code]; decide), code]), ?_⟩
    exact Dev.refuseWrite_systimeHi hinv hpause v

end Sys2Proof.Machine
end
